-- ==== Sys2Proof/Word.lean ====
section
/-!
DEFINITION. The word and byte types of the SB8 (R6, R7) and their plainest arithmetic. Everything that a test could
show wrong (bit fields, byte order, maps) stands in Sys2Proof/Machine/.
-/
namespace Sys2Proof

/-- A byte of memory or of a buffer. -/
abbrev Byte := BitVec 8

/-- A 64-bit register (R7) or bundle word (R62). -/
abbrev Word := BitVec 64

/-- The FP32 and 32-bit integer lane of a v register (R29). -/
abbrev Lane := BitVec 32

end Sys2Proof
end

