-- ==== Sys2Proof/Syntax.lean ====
section
/-!
DEFINITION. The commands of the SB8 package: one constructor of `Instr` per row of the spec's table of operations and events.
-/
namespace Sys2Proof

/-- The agents that access registers (R8, R11): Lighthouse, a hart, the host at the port of Q0 or Q1, the fabric at a Q-die with or
without the fabric manager's rights (R380), the I3C target (R611), a debug module (R339), a companion site, an engine of the
package. -/
inductive Agent where
  | lighthouse
  | hart (h : Nat)
  | host (q : Nat)
  | fabric (q : Nat) (manager : Bool)
  | i3c
  | debug (q : Nat)
  | companion (site : Nat)
  | engine
  deriving DecidableEq, Repr

/-- A Breakwater message (R376): the fields of its header unit, and the units that follow it as 128-bit numbers. -/
structure Machine.FabMsg where
  typ : Nat
  hops : Nat
  dst : Nat
  src : Nat
  tag : Nat
  agent : Nat
  aux : Nat
  addr : Nat
  units : List Nat
  deriving DecidableEq, Repr

/-- A link that carries TICK markers (R407): a Breakwater port, or a Jetty link seen from the die that receives or sends. -/
inductive TickLink where
  | port (p : Nat)
  | jetty (die peer : Nat)
  deriving DecidableEq, Repr

/-- A request that is held toward a stopped die (R256): an agent's request for a line, the oldest command of a core's queue,
a command already sent to a unit, a transfer, the source read of a Glaze unit's front command, what the engine of a queue reads or
writes, or a fabric request. -/
inductive HeldReq where
  | line (agent line : Nat)
  | cmd (die core : Nat)
  | sent (die id : Nat)
  | dma (no : Nat)
  | glaze (die v : Nat)
  | queue (q : Nat)
  | fab (src agent tag : Nat)
  deriving DecidableEq, Repr

/-- The commands of the package, in the order of the spec's table. Dies are 0 to 5 (C0 to C3, Q0, Q1), cores, vaults and routers 0 to
63 of a die, harts 0 to 63, ports 0 to 31, queues 0 to 4095, agents of coherence those of R269; a line is an address over 64. -/
inductive Instr where
  /-- REGISTER_WRITE (R11). A write to a register field that has no row of its own takes effect under the field access types.
  -/
  | registerWrite (agent : Agent) (addr len : Nat) (w : Word)
  /-- PKG_ID_WRITE (R24). A write to PKG_ID sets the package ID and ID_VALID, and every port then resends IDENT. -/
  | pkgIdWrite (agent : Agent) (die : Nat) (w : Word)
  /-- BUNDLE_FETCH (R65). The sequencer fetches the next bundle and checks it for FORMAT and FETCH faults. -/
  | bundleFetch (die : Nat) (parity : Bool)
  /-- REFETCH_ARRIVAL (R84). A bundle refetched from the stack arrives and ends its fetch freeze. -/
  | refetchArrival (die : Nat)
  /-- BUNDLE_ISSUE (R63). A normal bundle issues its slot operations in its first cycle and then holds for HOLD cycles. -/
  | bundleIssue (die : Nat)
  /-- HOLD_BUNDLE (R64). A hold bundle issues nothing and occupies 1 + extended HOLD cycles. -/
  | holdBundle (die : Nat)
  /-- CHECKPOINT_FETCH (R79). A checkpoint bundle is fetched and waits for every earlier operation and check to complete. -/
  | checkpointFetch (die : Nat)
  /-- CHECKPOINT_ISSUE (R79). The checkpoint issues: shadows and loop state are saved, STEP takes effect and held commands are
  sent. -/
  | checkpointIssue (die : Nat)
  /-- CHUNK_REFILL_COMPLETE (R84). The refill of a ring-image chunk into its buffer half completes. -/
  | chunkRefillComplete (die : Nat)
  /-- AWAIT_FETCH (R73). An await bundle is fetched, fetching stops, and the sequencer waits for operations and command queues
  to drain. -/
  | awaitFetch (die : Nat)
  /-- AWAIT_RELEASE (R73). The token or tick condition holds, the token count is subtracted, and the await bundle issues in
  the release cycle. -/
  | awaitRelease (die wait : Nat)
  /-- AWAIT_TIMEOUT (R76). An await waits longer than SEQ_AWAIT_TIMEOUT and ends the work item with AWAIT_TIMEOUT. -/
  | awaitTimeout (die : Nat)
  /-- BRANCH_ISSUE (R72). A branch bundle issues and reads its scalar, and its shadow begins. -/
  | branchIssue (die : Nat)
  /-- BRANCH_RESOLVE (R72). 24 cycles after the branch, the target or the next bundle issues. -/
  | branchResolve (die : Nat)
  /-- LOOP_ISSUE (R69). A loop bundle issues its operations and sets its counter from COUNT or SEQ_PARAM. -/
  | loopIssue (die : Nat)
  /-- LOOP_ITERATION_END (R69). The last body bundle of an iteration ends, and the body repeats or the loop exits. -/
  | loopIterationEnd (die : Nat)
  /-- END_FETCH (R72). An end bundle is fetched and the drain of the work item begins. -/
  | endFetch (die : Nat)
  /-- WORK_ITEM_COMPLETE (R72). The end-bundle drain completes, and the sequencer reports completion or ABORTED and enters
  READY. -/
  | workItemComplete (die : Nat)
  /-- DRAIN_COMPLETE (R94). The drain after a fault, ABORT or fence ends, and the sequencer enters STOPPED. -/
  | drainComplete (die : Nat)
  /-- ARITHMETIC_FAULT_REPORT (R81). An arithmetic fault reaches the sequencer and starts a replay or ends the work item. -/
  | arithmeticFaultReport (die : Nat) (silicon : Option (Nat × Nat × Nat))
  /-- REPLAY_RESTORE (R81). Once in-flight operations complete, the registers and loop state are restored and the checkpoint
  issues again. -/
  | replayRestore (die : Nat)
  /-- FREEZE_BEGIN (R83). A freeze cause stops issue and every Tide unit within 2 cycles. -/
  | freezeBegin (die : Nat)
  /-- FREEZE_END (R83). The last freeze cause ends, and every unit continues from its held state. -/
  | freezeEnd (die : Nat)
  /-- TLOAD (R112). A stationary tile load into W-A or W-B from a near, far or striped vault. -/
  | tload (die : Nat) (w : Word) (d : Nat × Nat × Nat)
  /-- MPASS (R116). A matrix pass streams activation rows through a loaded buffer and writes FP32 output rows. -/
  | mpass (die : Nat) (w : Word)
  /-- VFP (R118). VPU FP32 arithmetic on one FMA pipe. -/
  | vfp (die : Nat) (w : Word)
  /-- VINT (R119). VPU integer, logical and lane-movement operation. -/
  | vint (die : Nat) (w : Word)
  /-- VCMP (R120). VPU compare or predicate logic that writes a p register. -/
  | vcmp (die : Nat) (w : Word)
  /-- VCVT (R121). VPU conversion, including MX quantization and dequantization. -/
  | vcvt (die : Nat) (w : Word)
  /-- VTRN (R122). Correctly rounded transcendental function on the transcendental unit. -/
  | vtrn (die : Nat) (w : Word)
  /-- SLD (R124). Slab to v register move. -/
  | sld (die : Nat) (w : Word)
  /-- SST (R124). v register to slab move, or a store of the scale bytes. -/
  | sst (die : Nat) (w : Word)
  /-- SCOPY (R126). Slab-to-slab copy of 256 B blocks within one core. -/
  | scopy (die : Nat) (w : Word)
  /-- SFILL (R126). Fill of a slab range with a scalar word. -/
  | sfill (die : Nat) (w : Word)
  /-- VRD (R127). Vault to slab read on a near, far or striped schedule. -/
  | vrd (die : Nat) (w : Word) (d : Nat × Nat × Nat)
  /-- VWR (R128). Slab to near vault write, invalidating in coherent regions. -/
  | vwr (die : Nat) (w : Word)
  /-- REFRESH (R85). A placed refresh slot excludes stream access to a vault for 192 cycles and lets it refresh. -/
  | refresh (die : Nat) (w : Word)
  /-- SSEND (R131). Static Swell transfer from the performing core's slab to another core's slab. -/
  | ssend (die : Nat) (w : Word) (d : Nat × Nat × Nat)
  /-- GLZ (R133). A stream Glaze command enters the core's command queue. -/
  | glz (die : Nat) (w : Word)
  /-- DMA (R134). A stream DMA transfer enters the core's command queue. -/
  | dma (die : Nat) (w : Word)
  /-- RATOM (R135). A stream remote or local atomic enters the core's command queue. -/
  | ratom (die : Nat) (w : Word)
  /-- SALU (R136). Scalar arithmetic and logic. -/
  | salu (die : Nat) (w : Word)
  /-- SLI (R137). Load of an immediate into a scalar or address register. -/
  | sli (die : Nat) (w : Word)
  /-- SLDS (R138). Slab to scalar load. -/
  | slds (die : Nat) (w : Word)
  /-- SSTS (R138). Scalar to slab store. -/
  | ssts (die : Nat) (w : Word)
  /-- SFROMV (R138). Move of a vector lane to a scalar register. -/
  | sfromv (die : Nat) (w : Word)
  /-- SIGNAL (R139). A token counter of a C-die is incremented. -/
  | signal (die : Nat) (w : Word)
  /-- SIGNAL_ARRIVAL (R139). A SIGNAL increment from another C-die arrives and adds to the token counter. -/
  | signalArrival (die : Nat)
  /-- MARK (R140). A sample-buffer record with a marker, the step and the stream cycle is written. -/
  | mark (die : Nat) (w : Word)
  /-- COMMAND_SEND (R132). A queued class-0b101 command is sent to its engine once the step closes or the engine accepts it.
  -/
  | commandSend (die core : Nat)
  /-- COMMAND_COMPLETE (R132). An engine completes a stream command and adds its token. -/
  | commandComplete (die : Nat)
  /-- COMMAND_FAILURE (R132). A stream command fails, is recorded, and sets ABORT on the issuing die. -/
  | commandFailure (die : Nat)
  /-- SEQ_LOAD (R91). SEQ_CTRL.LOAD starts loading the image at SEQ_IMAGE_BASE. -/
  | seqLoad (die : Nat)
  /-- IMAGE_LOAD_DONE (R91). The image checks finish, and SEQ_LOAD_RESULT records success or the first failing check. -/
  | imageLoadDone (die : Nat)
  /-- SEQ_START (R94). SEQ_CTRL.START starts a work item at ENTRY after rechecking CORE_MAP and zeroing state. -/
  | seqStart (die : Nat)
  /-- SEQ_ABORT (R93). SEQ_CTRL.ABORT ends the running work item after a drain with ABORTED. -/
  | seqAbort (die : Nat)
  /-- SEQ_TOKEN_ADD (R101). A write to SEQ_TOKEN_ADD increments a token counter. -/
  | seqTokenAdd (die index inc : Nat)
  /-- TC_INJECT_SLAB_PARITY (R61). Arms inverted parity on the next stream slab write. -/
  | tcInjectSlabParity (die core : Nat)
  /-- TC_INJECT_RESIDUE (R61). Arms an inverted residue on column 0 of the next MXU output row. -/
  | tcInjectResidue (die core : Nat)
  /-- TC_FAULT_CLEAR (R57). Clearing every TC_FAULT bit clears FIRST_KIND and FIRST_STEP for recapture. -/
  | tcFaultClear (die core : Nat) (w : Word)
  /-- DYNAMIC_SLAB_ACCESS (R46). A hart, host or DMA load or store to a slab through the slab window arrives. -/
  | dynamicSlabAccess (agent : Agent) (addr len : Nat) (write : Bool) (data : List Byte)
  /-- DYNAMIC_SLAB_SERVED (R46). A waiting dynamic slab access is served in a cycle its bank port is free. -/
  | dynamicSlabServed (die : Nat)
  /-- REFRESH_DEBT_RISE (R171). At each tREFI a vault's refresh debt rises by 1. -/
  | refreshDebtRise (die v : Nat)
  /-- REFRESH_ROUND_DONE (R171). A vault's refresh round on all eight channels completes, and waiting dynamic accesses
  proceed. -/
  | refreshRoundDone (die v : Nat)
  /-- VAULT_DYNAMIC_REQUEST (R161). A dynamic access to a vault arrives and waits for time left by stream accesses. -/
  | vaultDynamicRequest (agent : Agent) (addr len : Nat) (write : Bool) (data : List Byte)
  /-- VAULT_DYNAMIC_SERVED (R161). A waiting dynamic vault access is performed in free bank and channel time. -/
  | vaultDynamicServed (die v : Nat)
  /-- POISON_REWRITE (R165, R345). After an uncorrectable read, the block is rewritten in poisoned form as a dynamic access; of a Q-die,
  the line of its Shelf channel `v`. -/
  | poisonRewrite (die v : Nat)
  /-- SCRUB_READ (R177). Patrol scrub reads a block and rewrites corrected data. -/
  | scrubRead (die v : Nat)
  /-- VAULT_FENCE (R179). MFS_CTRL.FENCE starts fencing a vault and walking its directory. -/
  | vaultFence (die v : Nat)
  /-- VAULT_FENCE_WALK_DONE (R179). The directory walk of a fenced vault ends, STATE becomes fenced and refresh stops. -/
  | vaultFenceWalkDone (die v : Nat)
  /-- VAULT_INIT (R175). MFS_CTRL.INIT starts zeroing the vault by ROWFILL. -/
  | vaultInit (die v : Nat)
  /-- VAULT_INIT_DONE (R175). Vault initialisation completes and waiting dynamic accesses proceed. -/
  | vaultInitDone (die v : Nat)
  /-- VAULT_INJECT_ARM (R185). MFS_INJECT.ARM inverts one wire of the next block written on a channel. -/
  | vaultInjectArm (die v channel wire : Nat)
  /-- STACK_THERM_SAMPLE (R172). Every 100 µs the controller samples layer temperatures and adjusts the refresh rate. -/
  | stackThermSample (die : Nat) (temps : List Nat)
  /-- SELF_REFRESH_EXIT (R173). A vault leaves self-refresh, zeroes its debt and performs one round. -/
  | selfRefreshExit (die v : Nat)
  /-- GLAZE_COMMAND_ARRIVAL (R190). A Glaze command or stack RATOM enters a unit's input queue in port order and gets a
  progress record. -/
  | glazeCommandArrival (die v : Nat)
  /-- FILL (R196). Glaze FILL writes a 32 B pattern over a range. -/
  | fill (die v : Nat)
  /-- COPY (R196). Glaze COPY copies a range into the target vault. -/
  | copy (die v : Nat)
  /-- ACCUM (R197). Glaze ACCUM adds source elements into the target in arrival order. -/
  | accum (die v : Nat)
  /-- SCALE_ADD (R197). Glaze SCALE_ADD adds α times the source into the target. -/
  | scaleAdd (die v : Nat)
  /-- OPT_STEP (R198). Glaze OPT_STEP performs an optimizer update of weights and moments. -/
  | optStep (die v : Nat)
  /-- KV_APPEND (R199). Glaze KV_APPEND quantizes rows and appends them to a paged KV region. -/
  | kvAppend (die v : Nat)
  /-- GATHER_COMPACT (R200). Glaze GATHER_COMPACT appends indexed rows to a contiguous output. -/
  | gatherCompact (die v : Nat)
  /-- TOPK (R201). Glaze TOPK writes the k largest values and their indices of each row. -/
  | topk (die v : Nat)
  /-- STROKE_COMMIT (R206). A stroke of up to 64 KiB is written and its number committed to the progress record. -/
  | strokeCommit (die v : Nat)
  /-- GLAZE_COMMAND_COMPLETE (R203). The last stroke commits, the invalidations are acknowledged, and the command completes.
  -/
  | glazeCommandComplete (die v : Nat)
  /-- GLZ_AREA_RESUME (R207). GLZ_AREA written VALID with MODE 0 starts a scan that resumes surviving records. -/
  | glzAreaResume (die v base size : Nat)
  /-- GLZ_AREA_DISCARD (R207). GLZ_AREA written VALID with MODE 1 discards every record. -/
  | glzAreaDiscard (die v base size : Nat)
  /-- RESUME_SCAN_DONE (R207). The area scan ends, RESUMING clears, and resumed commands continue. -/
  | resumeScanDone (die v : Nat)
  /-- GLZ_APPLY_COMMIT (R210). GLZ_APPLY commits a journal key at all 64 units of the die. -/
  | glzApplyCommit (die pkg jid : Nat)
  /-- GLZ_APPLY_DISCARD (R210). GLZ_APPLY discards a journal key at all 64 units of the die. -/
  | glzApplyDiscard (die pkg jid : Nat)
  /-- GLZ_APPLY_DONE (R217). Every unit finishes the commit or discard, and BUSY clears with RESULT. -/
  | glzApplyDone (die : Nat)
  /-- RAT_COMMIT (R228). PKG_RAT_CTRL.COMMIT copies the staged region attribute table to every die. -/
  | ratCommit
  /-- RAT_COMMIT_DONE (R228). Every running die uses the new table, and BUSY clears. -/
  | ratCommitDone
  /-- DYNAMIC_FLIT_NAK (R244). A dynamic Swell flit with a parity error is NAKed, and the sender replays from it. -/
  | dynamicFlitNak (die router port cls word : Nat) (again : Bool)
  /-- JETTY_FLIT_NAK (R248). A Jetty flit with a parity error is NAKed and replayed. -/
  | jettyFlitNak (a b sub word : Nat) (again : Bool)
  /-- LINK_UP_RECEIVED (R250). A LINK_UP flit with die index, REVLEVEL and errata mask arrives and is acknowledged. -/
  | linkUpReceived (die peer : Nat)
  /-- JTY_REJOIN (R264). JTY_CTRL.REJOIN makes a FAILED link run link-up again. -/
  | jtyRejoin (die link : Nat)
  /-- DIE_RESET (R253). PKG_DIE_RESET resets a C-die: DOWN notices, sequencer stop, self-refresh and logic reset. -/
  | dieReset (die : Nat)
  /-- DIE_RESET_EXIT (R253). The die leaves reset within 5 ms, and its vaults and links return. -/
  | dieResetExit (die : Nat)
  /-- CLOCK_LOSS (R254). A die's reference clock or PLL stops, and the die behaves as stopped until the clock returns. -/
  | clockLoss (die : Nat) (tags : Bool)
  /-- DOWN_NOTICE (R254). A neighbour receives a DOWN notice and fences its end of the link. -/
  | downNotice (die peer : Nat)
  /-- FORWARDED_CLOCK_LOSS (R254). 32 ns without a forwarded-clock edge fences the link and counts a clock loss. -/
  | forwardedClockLoss (die peer : Nat)
  /-- REQUEST_RESEND (R256). A request held toward a stopped die is resent every 100 µs. -/
  | requestResend (r : HeldReq)
  /-- HOME_UNAVAILABLE (R256). 40 ms after its first send, a held request fails with home unavailable. -/
  | homeUnavailable (r : HeldReq)
  /-- RD_S (R282). A home serves a read for S. -/
  | rdS (agent line : Nat)
  /-- RD_E (R282). A home serves a read for E or an upgrade from S. -/
  | rdE (agent line : Nat)
  /-- RD_NC (R282). A home serves a read without caching. -/
  | rdNc (agent line : Nat)
  /-- WR_INV (R283). A home performs an invalidating write. -/
  | wrInv (agent line : Nat) (data : List Byte) (mask : Nat) (poison : Bool)
  /-- WR_WT (R283). A home performs a write-through write. -/
  | wrWt (agent line : Nat) (data : List Byte) (mask : Nat) (poison : Bool)
  /-- WB (R282). A home receives an evicted dirty line and writes it. -/
  | wb (agent line : Nat) (data : List Byte) (poison : Bool)
  /-- WB_SNP (R284). A home receives a dirty line written back in answer to a snoop. -/
  | wbSnp (agent line : Nat) (data : List Byte) (poison keepS : Bool)
  /-- EVICT (R282). A home removes an agent that dropped a clean line. -/
  | evict (agent line : Nat)
  /-- SNP_DOWN (R279). An agent receives a snoop to keep at most S and write back if dirty. -/
  | snpDown (agent line : Nat)
  /-- SNP_INV (R279). An agent receives a snoop to keep nothing and write back if dirty. -/
  | snpInv (agent line : Nat)
  /-- DAT_S (R279). An agent receives line data granted in S. -/
  | datS (agent line : Nat)
  /-- DAT_E (R279). An agent receives line data granted in E. -/
  | datE (agent line : Nat)
  /-- DAT_NC (R279). An agent receives line data not to be cached. -/
  | datNc (agent line : Nat)
  /-- RSP_GRANT_E (R279). An agent receives an upgrade from S to E without data. -/
  | rspGrantE (agent line : Nat)
  /-- RSP_CMP (R283). A writer learns that its write is performed at the home. -/
  | rspCmp (agent line : Nat)
  /-- RSP_WBACK (R281). An agent learns its WB was written and frees its write-back buffer entry. -/
  | rspWback (agent line : Nat)
  /-- RSP_I (R284). A home receives a snoop answer that the agent holds no copy. -/
  | rspI (agent line : Nat)
  /-- RSP_S (R284). A home receives a snoop answer that the agent keeps a clean S copy. -/
  | rspS (agent line : Nat)
  /-- RSP_I_WBPEND (R284). A home receives a snoop answer that a WB is on its way, and waits for it. -/
  | rspIWbpend (agent line : Nat)
  /-- MERGE_TIMEOUT (R291). A merging-buffer entry reaches MERGE_CTRL.TIMEOUT and drains as WR_WT. -/
  | mergeTimeout (agent : Nat)
  /-- STRIDE_PREFETCH (R292). The stride prefetcher fetches lines ahead of a confident stream into the side buffer. -/
  | stridePrefetch (agent : Nat)
  /-- RNG_CLEAN (R293). The range engine cleans every line of a range. -/
  | rngClean (agent : Nat)
  /-- RNG_INVALIDATE (R293). The range engine drops every line of a range, discarding dirty data. -/
  | rngInvalidate (agent : Nat)
  /-- RNG_CLEAN_INVALIDATE (R293). The range engine writes back and drops every line of a range. -/
  | rngCleanInvalidate (agent : Nat)
  /-- RANGE_OP_DONE (R293). Every write-back of a range operation is acknowledged, and BUSY clears. -/
  | rangeOpDone (agent : Nat)
  /-- CACHE_DISABLE (R295). CTRL.ENABLE written 0 disables the cache, recording any dirty lines left. -/
  | cacheDisable (agent : Nat)
  /-- CACHE_ENABLE (R295). CTRL.ENABLE written 1 makes held lines usable again. -/
  | cacheEnable (agent : Nat)
  /-- HART_LOAD (R308). A hart load is performed under RVWMO and the SB8 performance points. -/
  | hartLoad (hart addr len pbmt err : Nat)
  /-- HART_STORE (R308). A hart store retires into the store buffer. -/
  | hartStore (hart addr : Nat) (data : List Byte) (pbmt : Nat)
  /-- STORE_PERFORMED (R308). A buffered store is performed at its line, home or home package. -/
  | storePerformed (hart id : Nat) (bad : Bool)
  /-- REMOTE_STORE_FAILURE (R314). A store fails by timeout, NAK or home unavailable, is recorded, FAILED advances and
  interrupt 16 is set. -/
  | remoteStoreFailure (hart : Nat)
  /-- FENCE (R310). A hart FENCE begins waiting for its predecessor accesses and drains. -/
  | fence (hart pred succ : Nat)
  /-- FENCE_COMPLETE (R310). Every predecessor access of a FENCE is performed or failed, and the FENCE completes. -/
  | fenceComplete (hart : Nat)
  /-- NT_STORE (R311). A store with a Zihintntl hint merges into the non-temporal buffer. -/
  | ntStore (hart addr : Nat) (data : List Byte)
  /-- NT_IDLE_DRAIN (R311). 256 Headland cycles with no store accepted drain the whole non-temporal buffer. -/
  | ntIdleDrain (hart : Nat)
  /-- LR (R312). A hart load-reserved on a 64 B granule. -/
  | lr (hart addr len : Nat) (constrained : Bool)
  /-- SC (R312). A hart store-conditional that succeeds only while the reservation holds. -/
  | sc (hart addr : Nat) (data : List Byte)
  /-- SNOOP_DEFERRAL_EXPIRY (R312). A snoop deferred after an LR is answered after 64 Headland cycles. -/
  | snoopDeferralExpiry (hart : Nat)
  /-- AMO (R313). A hart AMO is performed in L1 or at a remote home package. -/
  | amo (hart addr code : Nat) (data : List Byte)
  /-- CBO_CLEAN (R330). cbo.clean writes back a dirty copy of a line. -/
  | cboClean (hart addr : Nat)
  /-- CBO_FLUSH (R330). cbo.flush writes back and removes a line. -/
  | cboFlush (hart addr : Nat)
  /-- CBO_INVAL (R330). cbo.inval removes a line, discarding or flushing as CBIE selects. -/
  | cboInval (hart addr : Nat) (flush : Bool)
  /-- CBO_ZERO (R330). cbo.zero obtains a line in E and writes zeros. -/
  | cboZero (hart addr : Nat)
  /-- ZICBOP_PREFETCH (R292). A Zicbop prefetch fetches a line into the side buffer in S or E. -/
  | zicbopPrefetch (hart addr : Nat) (write : Bool)
  /-- MDRAIN_WRITE (R315). A CSR write to mdrain or sdrain waits for every earlier global store. -/
  | mdrainWrite (hart num priv : Nat) (virt : Bool)
  /-- MFENCE (R334). Writing the key to mfence offlines the hart. -/
  | mfence (hart priv : Nat) (virt : Bool) (key : Word)
  /-- HART_OFFLINE (R337). HL_CTRL.OFFLINE starts offlining a hart: stop, drain and write back. -/
  | hartOffline (hart : Nat)
  /-- HART_OFFLINE_DONE (R337). Offlining completes, STATE reads OFFLINE, and CAUSE is recorded. -/
  | hartOfflineDone (hart : Nat)
  /-- MSI_WRITE (R338). An MSI arrives at an IMSIC file, and it is discarded and counted if the hart is offline. -/
  | msiWrite (hart file eiid : Nat)
  /-- MACHINE_TIMER (R336). Time reaches HL_MTIMECMP, and the machine timer interrupt becomes pending. -/
  | machineTimer (hart : Nat)
  /-- SHELF_INIT (R361). SHF_SPLIT.INIT starts zeroing all 64 Shelf channels. -/
  | shelfInit
  /-- SHELF_INIT_DONE (R361). Shelf initialisation completes. -/
  | shelfInitDone
  /-- ALLOC (R352). A free pool slot is taken and zeroed for a tidal page. -/
  | alloc (page account : Nat)
  /-- FREE (R352). A tidal page's lines are recalled and its slot is freed. -/
  | free (page : Nat)
  /-- FLOOD (R352). A pool page is moved into a reserve slot, ebbing a victim if the reserve is full. -/
  | flood (page : Nat)
  /-- EBB (R352). A reserve page is moved to a free pool slot. -/
  | ebb (page : Nat)
  /-- QUERY (R352). A page's remap entry is written to TDL_QUERY. -/
  | query (page : Nat)
  /-- MIGRATION_ACK (R353). Every die acknowledges a MIGRATING page, and recall and copy begin. -/
  | migrationAck (die : Nat)
  /-- MIGRATION_COPY_DONE (R353). The page copy from S to T completes. -/
  | migrationCopyDone
  /-- EPOCH_ADVANCE (R356). Every 1 ms the epoch advances and page ages grow. -/
  | epochAdvance
  /-- LANE_TRAINING_END (R368). Lane transmitter training ends, or fails the lane after 500 ms. -/
  | laneTrainingEnd (port lane : Nat) (ok : Bool)
  /-- LANE_LOCK (R370). A lane locks to codeword boundaries after 8 good codewords. -/
  | laneLock (port lane : Nat)
  /-- LANE_FAILURE (R370). A lane fails on too many uncorrectable codewords, and the port narrows or goes down. -/
  | laneFailure (port lane : Nat)
  /-- PORT_RETRAIN_TIMER (R375). 100 ms after a port goes down with EN set, it trains again. -/
  | portRetrainTimer (port : Nat)
  /-- FLIT_RECEIVE (R371). A Breakwater flit is received, CRC-checked, reordered and acknowledged. -/
  | flitReceive (port : Nat) (bytes : List Byte)
  /-- VIOLATION_WINDOW_END (R390). The 1 s violation window expires. -/
  | violationWindowEnd (port : Nat)
  /-- LINK_CONTROL_RESEND (R371). An unanswered link control flit is resent every 10 µs. -/
  | linkControlResend (port : Nat)
  /-- WIDTH (R375). A WIDTH control flit names the half to keep, and the peer stops new payload. -/
  | width (port half : Nat)
  /-- WIDTH_ACK (R375). WIDTH_ACK moves both ends to the new lane set, and they resend unacknowledged flits. -/
  | widthAck (port half : Nat)
  /-- BWF_RETRAIN (R395). BWF_CTRL.RETRAIN takes the port down and trains it. -/
  | bwfRetrain (port : Nat)
  /-- BWF_EN_WRITE (R395). Writing BWF_CTRL.EN enables the port to train, or takes it down. -/
  | bwfEnWrite (port : Nat) (en : Bool)
  /-- RD (R385). A fabric read of a line or register is served at the destination. -/
  | rd (port : Nat) (m : Machine.FabMsg)
  /-- WR_FULL (R385). A fabric write of a whole 64 B line is served at the destination. -/
  | wrFull (port : Nat) (m : Machine.FabMsg)
  /-- WR_MASK (R385). A fabric write of masked bytes is served at the destination. -/
  | wrMask (port : Nat) (m : Machine.FabMsg)
  /-- ATOM (R387). A fabric atomic is performed at the home and answered with RSP_OLD. -/
  | atom (port : Nat) (m : Machine.FabMsg)
  /-- FABRIC_GLZ (R385). A remote Glaze command arrives and is passed to the target vault's unit. -/
  | fabricGlz (port : Nat) (m : Machine.FabMsg)
  /-- JOURNAL_COMMIT_MESSAGE (R477). A GLZ message with GOP 0xC commits a journal key on every C-die of the receiver. -/
  | journalCommitMessage (port : Nat) (m : Machine.FabMsg)
  /-- JOURNAL_DISCARD_MESSAGE (R477). A GLZ message with GOP 0xD discards a journal key on every C-die of the receiver. -/
  | journalDiscardMessage (port : Nat) (m : Machine.FabMsg)
  /-- WR_REG (R380). A fabric register write is performed only for the fabric manager or while OPEN. -/
  | wrReg (port : Nat) (m : Machine.FabMsg)
  /-- RSP_DATA (R386). Read data arrive at the requester. -/
  | rspData (port : Nat) (m : Machine.FabMsg)
  /-- RSP_ACK (R386). A write or command is acknowledged to the requester. -/
  | rspAck (port : Nat) (m : Machine.FabMsg)
  /-- RSP_OLD (R387). The old value of an atomic arrives at the requester. -/
  | rspOld (port : Nat) (m : Machine.FabMsg)
  /-- RSP_PENDING (R388). A long Glaze command's home reports it still running, and the requester's timeout restarts. -/
  | rspPending (port : Nat) (m : Machine.FabMsg)
  /-- RSP_PENDING_TIMER (R388). Every 50 µs a home running a remote GLZ sends RSP_PENDING. -/
  | rspPendingTimer (pkg agent tag : Nat)
  /-- NAK (R389). A fabric NAK reports a request not performed, and it fails at its requester. -/
  | nak (port : Nat) (m : Machine.FabMsg)
  /-- FABRIC_TIMEOUT (R388). A fabric request expires at its requester after PKG_FAB_TIMEOUT. -/
  | fabricTimeout (tag agent : Nat)
  /-- IDENT (R378). An IDENT frame is received, and its fields are written into BWF_NBR and BWF_NBR2. -/
  | ident (port : Nat) (m : Machine.FabMsg)
  /-- IDENT_ACK (R378). IDENT_ACK stops the IDENT resends. -/
  | identAck (port : Nat) (m : Machine.FabMsg)
  /-- IDENT_RESEND (R378). An unacknowledged IDENT is resent every 1 ms. -/
  | identResend (port : Nat)
  /-- DR_REQ (R379). A directed request is forwarded along its port path or performed at its end. -/
  | drReq (port : Nat) (m : Machine.FabMsg)
  /-- DR_RSP (R379). A directed response returns along the recorded arrival ports. -/
  | drRsp (port : Nat) (m : Machine.FabMsg)
  /-- BWF_DR_GO (R403). BWF_DR_CTRL.GO sends one directed request from this Q-die. -/
  | bwfDrGo (q : Nat)
  /-- DR_TIMEOUT (R403). A directed request with no response within 1 ms ends with RESULT 1. -/
  | drTimeout (q : Nat)
  /-- BWF_ASSIGN_WRITE (R400). BWF_ASSIGN written VALID raises the fabric interrupt for ID assignment. -/
  | bwfAssignWrite (valid : Bool) (id : Nat)
  /-- REPORT (R392). A fault report is merged into its (target, class, period) entry. -/
  | report (port : Nat) (m : Machine.FabMsg)
  /-- REPORT_PERIOD_FORWARD (R392). At its depth slot after a period, a package forwards its merged entries toward the root.
  -/
  | reportPeriodForward (period : Nat)
  /-- ROOT_EVENT_DELIVERY (R392). 2 ms after a period, the root delivers one fault event per key into Q0's event queue. -/
  | rootEventDelivery (period : Nat)
  /-- BWF_EVT_HI_READ (R393). A read of BWF_EVT_HI returns and removes the head fault event. -/
  | bwfEvtHiRead (agent : Agent)
  /-- TICK (R407). A TICK marker arrives, and the link delay and offset are computed and slewed. -/
  | tick (l : TickLink) (u : Nat)
  /-- TICK_SEND (R407). Every 10 µs each linked port and up Jetty link sends a TICK marker. -/
  | tickSend (l : TickLink)
  /-- TMK_SET_WRITE (R409). On an unacquired master, a forward TMK_SET write sets the count and ACQUIRED. -/
  | tmkSetWrite (q : Nat) (time : Word)
  /-- HOLDOVER_FAULT (R410). Holdover longer than 1 s reports a LINK fault event against its own ID. -/
  | holdoverFault
  /-- COL_GROUP_VALID (R412). COL_GRPn_CFG written VALID copies the rank table and records its CRC. -/
  | colGroupValid (q group ranks : Nat)
  /-- REDUCE (R414). A REDUCE collective command reaches its engine. -/
  | reduce (q : Nat)
  /-- ALLREDUCE (R414). An ALLREDUCE collective command reaches its engine. -/
  | allreduce (q : Nat)
  /-- REDUCE_SCATTER (R414). A REDUCE_SCATTER collective command reaches its engine. -/
  | reduceScatter (q : Nat)
  /-- ALLGATHER (R414). An ALLGATHER collective command reaches its engine. -/
  | allgather (q : Nat)
  /-- BROADCAST (R414). A BROADCAST collective command reaches its engine. -/
  | broadcast (q : Nat)
  /-- BARRIER (R423). A BARRIER collective command reaches its engine and sends ARRIVE. -/
  | barrier (q : Nat)
  /-- COLLECTIVE_LAUNCH (R421). The tick count reaches LAUNCH_TICK, and the engine reads SRC. -/
  | collectiveLaunch (group seq : Nat)
  /-- COL_DATA (R418). A child's value for a tree node arrives and is combined. -/
  | colData (port : Nat) (m : Machine.FabMsg)
  /-- COL_RESULT (R418). A result segment arrives and is written to DST. -/
  | colResult (port : Nat) (m : Machine.FabMsg)
  /-- COL_GATHER (R418). A gathered block arrives for ALLGATHER. -/
  | colGather (port : Nat) (m : Machine.FabMsg)
  /-- COL_ARRIVE (R423). A barrier ARRIVE reaches a node, and when all have reached the root it chooses the release tick. -/
  | colArrive (port : Nat) (m : Machine.FabMsg)
  /-- COL_RELEASE (R423). A RELEASE with its tick is forwarded to the C-die that TOKEN names. -/
  | colRelease (port : Nat) (m : Machine.FabMsg)
  /-- COL_FAIL (R420). A FAIL message stops the instance and fails its commands. -/
  | colFail (port : Nat) (m : Machine.FabMsg)
  /-- COLLECTIVE_TIMEOUT (R420). An instance not complete within TIMEOUT_MS fails with TIMEOUT. -/
  | collectiveTimeout (group seq : Nat)
  /-- INSTANCE_COMPLETE (R419). DST is globally visible, and the entry completes and adds its token. -/
  | instanceComplete (group seq : Nat)
  /-- RELEASE_TICK_APPLY (R423). The die's tick count reaches T, and the barrier token increment is applied. -/
  | releaseTickApply (die : Nat)
  /-- BALLAST_RAMP_STEP (R424). The ballast level falls or rises by one MXU each ramp interval. -/
  | ballastRampStep (die : Nat)
  /-- FLOOR_EXPIRY (R425). The collective floor ends after FLOOR_MS. -/
  | floorExpiry (group seq : Nat)
  /-- MEM_RD (R441). A host CXL.mem read is served at its home. -/
  | memRd (port line snp : Nat)
  /-- MEM_WR (R441). A host CXL.mem write is served at its home and answered with Cmp. -/
  | memWr (port line : Nat) (data : List Byte) (mask : Nat) (poison keepS : Bool)
  /-- H2D_SNP_INV (R439). A host SnpInv makes the proxy send SNP_INV to every holder. -/
  | h2dSnpInv (port line : Nat)
  /-- H2D_SNP_DATA (R439). A host SnpData makes the proxy send SNP_DOWN to the owner. -/
  | h2dSnpData (port line : Nat)
  /-- H2D_SNP_CUR (R439). A host SnpCur makes the proxy send SNP_DOWN to the owner. -/
  | h2dSnpCur (port line : Nat)
  /-- HOST_GO (R438). GO or data for a D2H request arrive from the host at the home proxy. -/
  | hostGo (port addr : Nat) (data : List Byte) (poison : Bool)
  /-- BIRSP (R286). A host back-invalidate response is taken as RSP_I or RSP_S. -/
  | birsp (port line : Nat) (keepS : Bool)
  /-- HDM_COMMIT (R436). An HDM decoder commits, or fails on overlap or a disallowed DPA. -/
  | hdmCommit (port dec base size : Nat)
  /-- DPORT_WRITE (R442). A write TLP to a DPORT aperture is performed at ADDR, and ADDR advances. -/
  | dportWrite (port off : Nat) (data : List Byte)
  /-- DPORT_READ (R442). A read TLP to a DPORT aperture returns bytes from ADDR, and ADDR advances. -/
  | dportRead (port off len : Nat)
  /-- DPORT_STATUS_READ (R443). A read of DPORT status completes once every earlier aperture write is complete. -/
  | dportStatusRead (port ap : Nat)
  /-- P2P_REQUEST (R444). A package request in a P2P window travels as CXL.io. -/
  | p2pRequest (agent : Agent) (addr len : Nat) (write : Bool) (data : List Byte)
  /-- P2P_TIMEOUT (R444). A P2P read with no completion in 50 ms fails as home unavailable. -/
  | p2pTimeout (port addr : Nat)
  /-- DRAIN_READ_COMPLETION (R445). A zero-length drain read completes, or times out after 50 ms, before the completion
  record. -/
  | drainReadCompletion (queue : Nat) (timeout : Bool)
  /-- HOST_RETRAIN (R446). A retrain without DL_Down is counted, and requests wait. -/
  | hostRetrain (port speed width : Nat)
  /-- HOST_LINK_LOSS (R447). A link loss makes the HPU reset itself, mark uncertain items and sweep host lines. -/
  | hostLinkLoss (port cause : Nat)
  /-- HPU_RESET_DONE (R447). The HPU self-reset completes within 2 ms, and RESETTING clears. -/
  | hpuResetDone (port : Nat)
  /-- HOST_ENABLE (R440). The host enables Bus Master Enable and CXL.cache, and the port enters service. -/
  | hostEnable (port : Nat) (bme mem cache : Bool)
  /-- PORT_OUT_OF_SERVICE (R440). After 40 ms of link down, a host port leaves service. -/
  | portOutOfService (port : Nat)
  /-- HPU_LOSS_DISCARD (R448). HPU_LOSS.DISCARD cancels the re-issue of uncertain host writes. -/
  | hpuLossDiscard (port : Nat)
  /-- COMPANION_ADMISSION (R451). Admission of a companion site starts with training, at reset or on UCI_CTRL.ADMIT. -/
  | companionAdmission (site modules rate : Nat) (cxl present : Bool)
  /-- DESCRIPTOR_RECEIVED (R452). The companion descriptor arrives and is checked, measured and fused. -/
  | descriptorReceived (site : Nat) (bytes : List Byte)
  /-- ADMISSION_TIMEOUT (R451). No partner answer within 100 ms, or no descriptor within 10 ms, fails admission. -/
  | admissionTimeout (site : Nat)
  /-- COMPANION_TEMP_SAMPLE (R453). Every 1 ms the companion temperature is sampled for throttle or trip. -/
  | companionTempSample (site temp : Nat)
  /-- SIDEBAND_TIMEOUT (R453). A companion register access with no answer in 1 ms reads as unoccupied. -/
  | sidebandTimeout (site : Nat)
  /-- DOORBELL (R467). A write to HQ_DBn records TAIL, and the engine starts reading entries. -/
  | doorbell (queue : Nat) (tail : Word)
  /-- ENTRY_FETCHED (R467). An entry read by RD_NC arrives, and its SEQ is checked. -/
  | entryFetched (queue : Nat)
  /-- ENTRY_ACCEPT (R471). The journal record is written in both regions and at the partner, and the accept pointer advances.
  -/
  | entryAccept (queue : Nat)
  /-- PARTNER_TIMEOUT (R474). A partner write without answer sets PARTNER_DOWN and reports TIMEOUT. -/
  | partnerTimeout (queue : Nat)
  /-- NOP (R469). A NOP entry runs nothing and completes. -/
  | nop (queue : Nat)
  /-- RUN (R476). A RUN entry loads windows, image, parameters and inline bytes on a C-die and starts the stream. -/
  | run (queue : Nat)
  /-- GLAZE (R469). A GLAZE queue entry issues a Glaze command. -/
  | glaze (queue : Nat)
  /-- QUEUE_DMA (R469). A DMA queue entry copies bytes, as a put or get where global. -/
  | queueDma (queue : Nat)
  /-- WRITE (R469). A WRITE queue entry writes its inline bytes as invalidating writes. -/
  | write (queue : Nat)
  /-- COLLECTIVE (R469). A COLLECTIVE queue entry passes its command to the collective engine. -/
  | collective (queue : Nat)
  /-- RUN_END (R480). A run ends, and the engine commits, re-runs or completes according to MODE. -/
  | runEnd (queue : Nat)
  /-- ENTRY_COMPLETE (R478). The completion record is written to the journal and CPL, and the notification is sent. -/
  | entryComplete (queue : Nat)
  /-- MSIX_PENDING_SEND (R478). A pending MSI-X notification is sent once the port serves and the vector is unmasked. -/
  | msixPendingSend (port vector : Nat)
  /-- HQ_ENABLE (R488). HQ_QCMD enable reads the queue context and enables the queue. -/
  | hqEnable (die loc : Nat)
  /-- HQ_DISABLE (R488). HQ_QCMD disable stops acceptance and drains the queue. -/
  | hqDisable (die loc : Nat)
  /-- HQ_QUERY (R488). HQ_QCMD query writes the queue's state into HQ_QSTAT. -/
  | hqQuery (die loc : Nat)
  /-- QUEUE_DRAINED (R488). A draining queue finishes its accepted entries and is disabled. -/
  | queueDrained (queue : Nat)
  /-- PWR_REQ_WRITE (R495). A write of PWR_POINT.REQ raises a frequency-change event. -/
  | pwrReqWrite (die point : Nat)
  /-- EVENT_TICK_RESOLVE (R511). The arbiter resolves all events of one event tick in class order. -/
  | eventTickResolve
  /-- VOLTAGE_RAMP_DONE (R496). A voltage ramp reaches VOLT, and the frequency switch completes. -/
  | voltageRampDone (die : Nat)
  /-- DROOP (R497). A supply falls below its droop threshold, and the domain clock is stretched. -/
  | droop (die dom : Nat)
  /-- DROOP_CLEAR (R497). After 1 µs above threshold the droop clears, and the clock returns to full rate. -/
  | droopClear (die dom : Nat)
  /-- DROOP_SETTLE_END (R498). 2 µs after a droop clears, deferred frequency changes are applied as one. -/
  | droopSettleEnd (die : Nat)
  /-- CONTROL_PERIOD_END (R501). At the end of each 102.4 µs period the power controller updates averages, throttle level and
  ceilings. -/
  | controlPeriodEnd (energies : List Nat) (package : Nat) (temps : List Nat) (acts : List (Nat × List Nat))
  /-- PKG_CAP_WRITE (R502). A write to PKG_CAP raises a power-cap change event. -/
  | pkgCapWrite (w : Word)
  /-- CAP_LIMIT_EDGE (R502). An edge of CAP_LIMIT_N raises a power-cap change event. -/
  | capLimitEdge (asserted : Bool)
  /-- COMPANION_THROTTLE_END (R502). The companion power request ends after 10 ms 5 °C below T_THROTTLE. -/
  | companionThrottleEnd (site : Nat)
  /-- COOLANT_OK_LOW (R509). COOLANT_OK sampled low raises a class 1 stop event. -/
  | coolantOkLow
  /-- TRAY_PWR_OK_LOW (R509). TRAY_PWR_OK sampled low raises a class 1 stop event. -/
  | trayPwrOkLow
  /-- RAIL_FAULT (R607). A monitored rail leaving tolerance is sampled as TRAY_PWR_OK low. -/
  | railFault
  /-- PKG_RESET_ASSERT (R511). PKG_RESET_N asserted raises a class 3 external reset event. -/
  | pkgResetAssert
  /-- PKG_RESET_DEASSERT (R562). PKG_RESET_N deasserts with power and coolant good, and start-up begins. -/
  | pkgResetDeassert (linksBad : List (Nat × Nat)) (shelfBad : List Nat)
  /-- EVT_SW_WRITE (R524). A write to EVT_SW raises a software event carrying CODE. -/
  | evtSwWrite (code : Nat)
  /-- ERR_FENCE_GO (R548). ERR_FENCE.GO fences the named core. -/
  | errFenceGo (die core : Nat)
  /-- SCORE_DECAY (R531). Every DECAY_MIN minutes each non-zero fault score falls by 1. -/
  | scoreDecay (die : Nat)
  /-- LOSS_RELAY (R536). A lost-cache notice reaches a home, which sweeps its directory for the lost agent. -/
  | lossRelay (die agent : Nat)
  /-- HOME_SWEEP_DONE (R536). A home's sweep ends, and the lost agent's requests proceed. -/
  | homeSweepDone (die agent : Nat)
  /-- QDIE_LOST (R537). A Q-die is lost, and the survivor takes over arbitration, queues and the time source. -/
  | qdieLost (die : Nat)
  /-- ERR_REC0_READ (R545). A read of ERR_REC0 returns and removes the oldest error record. -/
  | errRec0Read (agent : Agent) (die : Nat)
  /-- BOOT_WATCHDOG_EXPIRY (R560). 10 s without LHT_PROGRESS fails the current step and resets the package. -/
  | bootWatchdogExpiry
  /-- LHT_PROGRESS_WRITE (R570). Harbour firmware reports a step started, done or failed. -/
  | lhtProgressWrite (die event slot : Nat)
  /-- COUNTER_LOG_APPEND (R556). Every 0.01 h Lighthouse appends a counter-log entry. -/
  | counterLogAppend
  /-- ATTEST (R566). Lighthouse builds and signs an attestation report. -/
  | attest (die : Nat)
  /-- GET_IDENTITY (R568). Lighthouse returns the identity public key and certificate. -/
  | getIdentity (die : Nat)
  /-- FLASH_READ (R568). Lighthouse reads 512 B of boot flash into the buffer. -/
  | flashRead (die : Nat) (bad : Bool)
  /-- FLASH_WRITE (R568). Lighthouse writes 512 B into the image slot not running. -/
  | flashWrite (die : Nat) (bad : Bool)
  /-- IMAGE_COMMIT (R568). Lighthouse verifies the other slot's image and makes it PRIMARY. -/
  | imageCommit (die : Nat)
  /-- ADVANCE_SVN (R568). Lighthouse fuses a higher security version when both slots would boot. -/
  | advanceSvn (die : Nat)
  /-- TOKEN (R563). Lighthouse verifies a token and acts on its KIND. -/
  | token (die : Nat)
  /-- BOOTREC_RETRY (R568). Clears SKIPPED and ALTERNATE of a boot step slot. -/
  | bootrecRetry (die : Nat)
  /-- FUSE_OWNER (R568). Lighthouse fuses the owner key hash on a verified token. -/
  | fuseOwner (die : Nat)
  /-- PERIOD_TRIGGER (R576). A Period trigger fires when Tidemark time crosses a multiple of 2^P ms. -/
  | periodTrigger (t : Nat)
  /-- STRANDLINE_RECORD_WRITE (R574). A record with its snapshot values is written to the ring. -/
  | strandlineRecordWrite (late : List Nat)
  /-- FLASH_COPY_DONE (R578). A copy slot is written, and a pending copy starts if one was marked. -/
  | flashCopyDone
  /-- CURSOR_WRITE (R584). An STL_CURSOR write selects a page, and flash pages are fetched. -/
  | cursorWrite (source page : Nat)
  /-- PAGE_FETCH_DONE (R580). Lighthouse fills the window with a flash page, and READY sets. -/
  | pageFetchDone
  /-- COUNTER_OVERFLOW (R589). A counter wraps, sets its overflow bit, and may notify or freeze counting. -/
  | counterOverflow (die : Nat) (core : Option Nat) (i inc : Nat)
  /-- EVEN_COUNTER_READ (R591). A read of an even counter latches its odd partner into PMU_LATCH. -/
  | evenCounterRead (agent : Agent) (die : Nat) (core : Option Nat) (i : Nat)
  /-- PMU_SAMPLE_ENABLE (R601). PMU_SAMPLE.EN written 1 loads the LFSR from PMU_SEED. -/
  | pmuSampleEnable (die : Nat)
  /-- SAMPLE_TAG (R596). The sampling interval expires, and a bundle or instruction is tagged and its record written. -/
  | sampleTag (die flags a pc n last : Nat)
  /-- PMU_SB_CLEAR (R602). PMU_SB_CTRL.CLEAR empties the sample buffer and clears STOPPED. -/
  | pmuSbClear (die : Nat)
  /-- I3C_ADDRESS_WRITE (R611). An 8 B I3C private write sets the register address for the next read. -/
  | i3cAddressWrite (addr : Word)
  /-- I3C_REGISTER_WRITE (R611). A 16 B I3C private write writes a register. -/
  | i3cRegisterWrite (addr w : Word)
  /-- I3C_PRIVATE_READ (R611). An I3C private read returns the addressed register. -/
  | i3cPrivateRead
  /-- CLOCK_RETURN (R254). A stopped die's reference clock or PLL lock returns, and the die leaves reset as in step 6 of R253.
  -/
  | clockReturn (die : Nat)
  /-- POWER_UP (R607). The rails come up in their stages, the management domain starts, I3C is served and Lighthouse sets up
  an empty Strandline ring. -/
  | powerUp
  /-- POWER_LOSS (R510). The rails are removed, and every volatile state is lost except the boot flash. -/
  | powerLoss
  /-- COOLANT_OK_HIGH (R510). COOLANT_OK returns high, which is a condition for leaving reset after a stop. -/
  | coolantOkHigh
  /-- TRAY_PWR_OK_HIGH (R556). TRAY_PWR_OK rises, which allows start-up and makes the next reset count a power cycle. -/
  | trayPwrOkHigh
  /-- HOST_LINK_UP (R440). The host port link trains back to L0 after a link loss, and held requests can proceed. -/
  | hostLinkUp (port speed width : Nat)
  /-- DEBUG_HALT (R339). The debug module halts a hart, which enters the halted-in-debug state. -/
  | debugHalt (hart : Nat)
  /-- DEBUG_RESUME (R339). The debug module resumes a halted hart, which leaves the halted-in-debug state. -/
  | debugResume (hart : Nat)
  /-- SYSTEM_BUS_ACCESS (R614). A debug module system bus access reaches memory or registers, and fails with sberror 7 while
  the package is stopped or in reset. -/
  | systemBusAccess (q addr len : Nat) (write : Bool) (data : List Byte)
  /-- SHELF_TEMPERATURE_READ (R504). Every 32 ms the Shelf device mode registers are read for derating and trip. -/
  | shelfTemperatureRead (channel derate : Nat) (tooHot : Bool)
  /-- READ_CLEAR (R11). A read of a register with RC fields returns them and clears them, under R12 when an increment
  coincides. -/
  | readClear (agent : Agent) (addr len : Nat)
  /-- IOMMU_INVALIDATION (R234). An invalidation command in an IOMMU command queue is performed on that IOMMU's cached device
  and page tables. -/
  | iommuInvalidation (q : Nat)
  deriving DecidableEq, Repr

end Sys2Proof
end

