-- ==== Sys2Proof/Decode.lean ====
section
/-!
DEFINITION. The commands that a word spells. The table of this block gives no row any bits: its commands come from the block's
agents, buses and clocks, and no word of bits spells one.
-/
namespace Sys2Proof

/-- The command of an instruction of `nbits` bits that are `w`: none, since no row of the table gives bits. -/
def decodeTableWord (nbits w : Nat) : Option Instr :=
  match nbits, w with
  | _, _ => none

end Sys2Proof
end

