-- ==== Sys2Proof/Machine/Maps.lean ====
section
/-!
DEFINITION. Sparse maps, byte memories, bit fields and byte order: the helpers that every unit of the package shares.
-/
namespace Sys2Proof

/-- A sparse map: key and value pairs in strictly ascending order of key. An unlisted key holds the map's default. -/
abbrev SMap (α : Type) := List (Nat × α)

/-- The value at key `k`, or `d` where the map lists none. -/
def mapGet {α : Type} (d : α) : SMap α → Nat → α
  | [], _ => d
  | (a, v) :: m, k => if a = k then v else mapGet d m k

/-- The value at key `k`, if listed. -/
def mapFind {α : Type} : SMap α → Nat → Option α
  | [], _ => none
  | (a, v) :: m, k => if a = k then some v else mapFind m k

/-- The map with `v` at key `k`. -/
def mapSet {α : Type} : SMap α → Nat → α → SMap α
  | [], k, v => [(k, v)]
  | (a, w) :: m, k, v =>
    if k < a then (k, v) :: (a, w) :: m
    else if k = a then (k, v) :: m
    else (a, w) :: mapSet m k v

/-- The map with key `k` unlisted. -/
def mapErase {α : Type} (m : SMap α) (k : Nat) : SMap α := m.filter (fun e => e.1 != k)

/-- The entries of a map whose key lies in `[lo, hi)` taken out. -/
def mapClear {α : Type} (m : SMap α) (lo hi : Nat) : SMap α :=
  m.filter (fun e => e.1 < lo || hi ≤ e.1)

/-- Keys strictly ascending from `b` on. -/
def keysFrom {α : Type} : Nat → SMap α → Bool
  | _, [] => true
  | b, (a, _) :: m => b ≤ a && keysFrom (a + 1) m

/-- The canonical form of a map: keys strictly ascending. -/
def mapWf {α : Type} (m : SMap α) : Bool := keysFrom 0 m

/-- A sparse byte memory: an unlisted address reads as 0, and no entry lists a 0. -/
abbrev Memory := List Host.Cell

/-- What an address that the memory does not list reads as (log entry 2). -/
def memDefault : Byte := 0

/-- One byte. -/
def memRead (m : Memory) (a : Nat) : Byte := mapGet memDefault m a

/-- A write of one byte, which keeps the canonical form. -/
def memWrite (m : Memory) (a : Nat) (b : Byte) : Memory :=
  if b = memDefault then mapErase m a else mapSet m a b

/-- The canonical form of a memory: ascending addresses, and no entry equal to what an unlisted address reads as. -/
def Memory.wf (m : Memory) : Bool := mapWf m && m.all (fun c => c.2 != memDefault)

/-- `n` bytes from address `a` up. -/
def memReadN (m : Memory) (a : Nat) : Nat → List Byte
  | 0 => []
  | n + 1 => memRead m a :: memReadN m (a + 1) n

/-- Bytes written from address `a` up. -/
def memWriteN (m : Memory) (a : Nat) : List Byte → Memory
  | [] => m
  | b :: bs => memWriteN (memWrite m a b) (a + 1) bs

/-- A range of the memory set back to what nothing has written. -/
def memClear (m : Memory) (lo hi : Nat) : Memory := mapClear m lo hi

/-- The entries of a memory with address in `[lo, hi)`, moved down by `lo` and up by `base`. -/
def memSlice (m : Memory) (lo hi base : Nat) : Memory :=
  (m.filter (fun c => lo ≤ c.1 && c.1 < hi)).map (fun c => (c.1 - lo + base, c.2))

/-- Bytes to a number, little-endian (R90). -/
def leNat : List Byte → Nat
  | [] => 0
  | b :: bs => b.toNat + 256 * leNat bs

/-- The low `n` bytes of a number, little-endian. -/
def leBytes : Nat → Nat → List Byte
  | 0, _ => []
  | n + 1, v => BitVec.ofNat 8 v :: leBytes n (v / 256)

/-- Bits `[hi:lo]` of a number. -/
def bitsN (v hi lo : Nat) : Nat := v / 2 ^ lo % 2 ^ (hi + 1 - lo)

/-- Bits `[hi:lo]` of a register, as R6 writes them. -/
def bits (w : Word) (hi lo : Nat) : Nat := bitsN w.toNat hi lo

/-- One bit of a register. -/
def bitAt (w : Word) (i : Nat) : Bool := bits w i i = 1

/-- The mask of bits `[hi:lo]`. -/
def fieldMask (hi lo : Nat) : Word := BitVec.ofNat 64 ((2 ^ (hi + 1 - lo) - 1) * 2 ^ lo)

/-- A register with bits `[hi:lo]` replaced by the low bits of `v`. -/
def setBits (w : Word) (hi lo v : Nat) : Word :=
  (w &&& ~~~(fieldMask hi lo)) ||| (BitVec.ofNat 64 (v % 2 ^ (hi + 1 - lo) * 2 ^ lo))

/-- A Boolean as a field value. -/
def b2n (b : Bool) : Nat := if b then 1 else 0

/-- Two's complement reading of the low `n` bits of a number. -/
def signedN (n v : Nat) : Int :=
  let u := v % 2 ^ n
  if 2 ^ (n - 1) ≤ u then (u : Int) - (2 ^ n : Nat) else (u : Int)

/-- The low `n` bits of an integer, two's complement. -/
def unsignedN (n : Nat) (v : Int) : Nat := (v % ((2 ^ n : Nat) : Int)).toNat

/-- A list cut into pieces of `n`, at most `k` pieces. -/
def chunksOf {α : Type} (n : Nat) : Nat → List α → List (List α)
  | 0, _ => []
  | k + 1, l => l.take n :: chunksOf n k (l.drop n)

/-- Element `i` of a list replaced. -/
def listSet {α : Type} (l : List α) (i : Nat) (v : α) : List α := l.set i v

/-- The first element that satisfies `p`, with the list without it. -/
def takeFirst {α : Type} (p : α → Bool) : List α → Option (α × List α)
  | [] => none
  | a :: l =>
    if p a then some (a, l)
    else match takeFirst p l with
      | none => none
      | some (x, r) => some (x, a :: r)

/-- A fold over the numbers `0 … n − 1`, in ascending order. -/
def foldN {β : Type} (n : Nat) (f : β → Nat → β) (init : β) : β :=
  (List.range n).foldl f init

end Sys2Proof
end

