-- ==== Sys2Proof/Machine/Numerics.lean ====
section
/-!
DEFINITION. Number formats and arithmetic results (chapter 05): the encodings of R142, exact values, the one rounding
of each step, MX quantization, and the vector and transcendental functions of R118 to R122.
-/
namespace Sys2Proof

/-- A floating value: a NaN, an infinity of a sign, or (−1)^neg × m × 2^e. A zero keeps its sign. -/
inductive FV where
  | nan
  | inf (neg : Bool)
  | num (neg : Bool) (m : Nat) (e : Int)
  deriving DecidableEq, Repr

/-- A code of a format with `eb` exponent and `mb` mantissa bits, all codes finite (R142). -/
def decodeFinite (eb mb bias code : Nat) : FV :=
  let s := code / 2 ^ (eb + mb) % 2 = 1
  let ex := code / 2 ^ mb % 2 ^ eb
  let man := code % 2 ^ mb
  if ex = 0 then .num s man (1 - (bias : Int) - mb)
  else .num s (2 ^ mb + man) ((ex : Int) - bias - mb)

/-- A code of a format whose top exponent holds infinities and NaNs (R142). -/
def decodeIEEE (eb mb bias code : Nat) : FV :=
  if code / 2 ^ mb % 2 ^ eb = 2 ^ eb - 1 then
    if code % 2 ^ mb = 0 then .inf (code / 2 ^ (eb + mb) % 2 = 1) else .nan
  else decodeFinite eb mb bias code

def decodeF32 (code : Nat) : FV := decodeIEEE 8 23 127 code
def decodeBF16 (code : Nat) : FV := decodeIEEE 8 7 127 code

/-- An element of the format of R111: FP4, the two FP6, the two FP8, INT8, BF16. DESIGN CHOICE (log entry 51): the bits above an FP4
or FP6 code are ignored for VCVT DQMX too; R153 says so of the MXU's FP6 bytes only. -/
def decodeElem (fmt code : Nat) : FV :=
  match fmt with
  | 0 => decodeFinite 2 1 1 (code % 16)
  | 1 => decodeFinite 3 2 3 (code % 64)
  | 2 => decodeFinite 2 3 1 (code % 64)
  | 3 => if code % 128 = 127 then .nan else decodeFinite 4 3 7 (code % 256)
  | 4 => decodeIEEE 5 2 15 (code % 256)
  | 5 => let i := signedN 8 code; .num (i < 0) i.natAbs 0
  | _ => decodeBF16 (code % 65536)

/-- `m / 2^k` rounded to nearest, ties to even. -/
def rneShift (m k : Nat) : Nat :=
  let d := 2 ^ k
  let q := m / d
  let r := m % d
  if d < 2 * r ∨ (2 * r = d ∧ q % 2 = 1) then q + 1 else q

/-- The magnitude code nearest to `m × 2^e` in a format of `mb` mantissa bits whose smallest subnormal is `2^qmin`,
with no upper bound on the exponent. -/
def roundCode (mb : Nat) (qmin : Int) (m : Nat) (e : Int) : Nat :=
  if m = 0 then 0
  else
    let q := max ((Nat.log2 m : Int) + e - mb) qmin
    let n := if q ≤ e then m * 2 ^ (e - q).toNat else rneShift m (q - e).toNat
    (q - qmin).toNat * 2 ^ mb + n

/-- The canonical NaN of FP32 (R147, R150). -/
def nanF32 : Nat := 0x7FC00000

/-- One rounding to FP32, nearest even; a magnitude above the largest finite gives infinity (R147, R150). -/
def roundF32 : FV → Nat
  | .nan => nanF32
  | .inf s => 0x7F800000 + (if s then 0x80000000 else 0)
  | .num s m e => min (roundCode 23 (-149) m e) 0x7F800000 + (if s then 0x80000000 else 0)

/-- One rounding to BF16 with the canonical NaN 0x7FC0 (R121, R156). -/
def roundBF16 : FV → Nat
  | .nan => 0x7FC0
  | .inf s => 0x7F80 + (if s then 0x8000 else 0)
  | .num s m e => min (roundCode 7 (-133) m e) 0x7F80 + (if s then 0x8000 else 0)

/-- The signed significand at exponent `q ≤ e`. -/
def atExp (neg : Bool) (m : Nat) (e q : Int) : Int :=
  let v : Int := m * 2 ^ (e - q).toNat
  if neg then -v else v

/-- The exact product. Infinity times zero is a NaN. -/
def fvMul : FV → FV → FV
  | .nan, _ => .nan
  | _, .nan => .nan
  | .inf s, .inf t => .inf (s != t)
  | .inf s, .num t m _ => if m = 0 then .nan else .inf (s != t)
  | .num s m _, .inf t => if m = 0 then .nan else .inf (s != t)
  | .num s m e, .num t n f => .num (s != t) (m * n) (e + f)

/-- The exact sum. Zero results take the sign IEEE 754 gives for round to nearest (R150). -/
def fvAdd : FV → FV → FV
  | .nan, _ => .nan
  | _, .nan => .nan
  | .inf s, .inf t => if s = t then .inf s else .nan
  | .inf s, .num .. => .inf s
  | .num .., .inf t => .inf t
  | .num s m e, .num t n f =>
    if m = 0 ∧ n = 0 then .num (s && t) 0 0
    else
      let q := min e f
      let v := atExp s m e q + atExp t n f q
      .num (v < 0) v.natAbs q

def fvNeg : FV → FV
  | .nan => .nan
  | .inf s => .inf (!s)
  | .num s m e => .num (!s) m e

/-- The MXU's sum: an exact sum of zero is +0 (R147). -/
def mxuAdd (a b : FV) : FV :=
  match fvAdd a b with
  | .num s m e => if m = 0 then .num false 0 0 else .num s m e
  | r => r

/-- The value of an E8M0 scale factor, 2^(s − 127); 0xFF is a NaN (R142). -/
def scaleVal (s : Nat) : FV := if s % 256 = 255 then .nan else .num false 1 ((s % 256 : Int) - 127)

/-- The sum of a list of products under the rows of R145, without scales. An exact zero is +0. -/
def sumProducts (ps : List FV) : FV :=
  if ps.any (fun p => p = .nan) then .nan
  else
    let pos := ps.any (fun p => p = .inf false)
    let neg := ps.any (fun p => p = .inf true)
    if pos && neg then .nan
    else if pos then .inf false
    else if neg then .inf true
    else mxuAdd (ps.foldl mxuAdd (.num false 0 0)) (.num false 0 0)

/-- V(g) of one 32-element block (R144, R145); `scaled` is false in the 8-bit integer class. -/
def blockValue (scaled : Bool) (sa sw : Nat) (ps : List FV) : FV :=
  if scaled && (sa % 256 = 255 || sw % 256 = 255) then .nan
  else
    let v := sumProducts ps
    if scaled then
      match fvMul v (fvMul (scaleVal sa) (scaleVal sw)) with
      | .num s m e => if m = 0 then .num false 0 0 else .num s m e
      | r => r
    else v

/-- floor(log₂ |p|) of a finite non-zero value. -/
def fvExp : FV → Option Int
  | .num _ m e => if m = 0 then none else some ((Nat.log2 m : Int) + e)
  | _ => none

/-- G(q) of one group of eight BF16 products (R148): the exact sum, truncated toward zero to a multiple of
2^(E − 32). -/
def groupValue (ps : List FV) : FV :=
  match sumProducts ps with
  | .num s m e =>
    match ps.filterMap fvExp with
    | [] => .num false 0 0
    | x :: xs =>
      let grid := xs.foldl max x - 32
      if e < grid then
        let n := m / 2 ^ (grid - e).toNat
        if n = 0 then .num false 0 0 else .num s n grid
      else if m = 0 then .num false 0 0 else .num s m e
  | r => r

/-- A := round(A + V) over the blocks in ascending order (R146). -/
def accumulate (a : Nat) (vs : List FV) : Nat :=
  vs.foldl (fun acc v => roundF32 (mxuAdd (decodeF32 acc) v)) a

/-! ## Vector functions (R118 to R121) -/

/-- The order that MIN, MAX and the compares use on values that are no NaN: less than. -/
def fvLt (a b : FV) : Bool :=
  match a, b with
  | .inf s, .inf t => s && !t
  | .inf s, .num .. => s
  | .num .., .inf t => !t
  | .num s m e, .num t n f => let q := min e f; atExp s m e q < atExp t n f q
  | _, _ => false

def fvEq (a b : FV) : Bool :=
  match a, b with
  | .nan, _ => false
  | _, .nan => false
  | .inf s, .inf t => s = t
  | .num s m e, .num t n f => let q := min e f; atExp s m e q = atExp t n f q
  | _, _ => false

def isNaN (a : FV) : Bool := a = .nan

/-- MIN and MAX (R118): −0 below +0, the other operand of one NaN, the canonical NaN of two. -/
def f32MinMax (wantMax : Bool) (x y : Nat) : Nat :=
  let a := decodeF32 x
  let b := decodeF32 y
  if isNaN a && isNaN b then nanF32
  else if isNaN a then y
  else if isNaN b then x
  else
    let aBelow := fvLt a b || (fvEq a b && x / 2 ^ 31 = 1)
    if aBelow = wantMax then y else x

/-- VFP (R118) on one lane. -/
def vfpLane (func x y z : Nat) : Nat :=
  let a := decodeF32 x
  let b := decodeF32 y
  let c := decodeF32 z
  match func with
  | 0 => roundF32 (fvAdd a b)
  | 1 => roundF32 (fvAdd a (fvNeg b))
  | 2 => roundF32 (fvMul a b)
  | 3 => roundF32 (fvAdd (fvMul a b) c)
  | 4 => roundF32 (fvAdd (fvMul a b) (fvNeg c))
  | 5 => roundF32 (fvAdd c (fvNeg (fvMul a b)))
  | 6 => f32MinMax false x y
  | 7 => f32MinMax true x y
  | 8 => x % 2 ^ 31
  | _ => (x + 2 ^ 31) % 2 ^ 32

/-- VINT (R119) on one lane, but for SEL, PERM and LANEID. -/
def vintLane (func x y : Nat) : Nat :=
  let sx := signedN 32 x
  let sy := signedN 32 y
  match func with
  | 0 => (x + y) % 2 ^ 32
  | 1 => (x + 2 ^ 32 - y) % 2 ^ 32
  | 2 => x * y % 2 ^ 32
  | 3 => x &&& y
  | 4 => x ||| y
  | 5 => x ^^^ y
  | 6 => x * 2 ^ (y % 32) % 2 ^ 32
  | 7 => x / 2 ^ (y % 32)
  | 8 => unsignedN 32 (sx / (2 ^ (y % 32) : Nat))
  | 9 => if sx ≤ sy then x else y
  | _ => if sx ≤ sy then y else x

/-- VCMP (R120) on one lane, but for the predicate logic. -/
def vcmpLane (func x y : Nat) : Bool :=
  let a := decodeF32 x
  let b := decodeF32 y
  match func with
  | 0 => fvEq a b
  | 1 => fvLt a b
  | 2 => fvLt a b || fvEq a b
  | 3 => isNaN a || isNaN b
  | 4 => x = y
  | 5 => signedN 32 x < signedN 32 y
  | _ => x < y

/-- An exact value rounded to an integer, ties to even, saturating at `lo` and `hi`; a NaN gives 0 (R121). -/
def fvToInt (lo hi : Int) : FV → Int
  | .nan => 0
  | .inf s => if s then lo else hi
  | .num s m e =>
    let n : Nat := if 0 ≤ e then m * 2 ^ (min e.toNat 200) else rneShift m (-e).toNat
    let v : Int := if s then -(n : Int) else n
    max lo (min hi v)

/-- VCVT (R121) on one lane, but for QMX. `fmt` is the format code of DQMX. -/
def vcvtLane (func x fmt : Nat) : Nat :=
  match func with
  | 0 => unsignedN 32 (fvToInt (-(2 ^ 31)) (2 ^ 31 - 1) (decodeF32 x))
  | 1 => let i := signedN 32 x; roundF32 (.num (i < 0) i.natAbs 0)
  | 2 => roundBF16 (decodeF32 x)
  | 3 => roundF32 (decodeBF16 (x % 65536))
  | 4 => unsignedN 8 (fvToInt (-128) 127 (decodeF32 x))
  | _ =>
    -- DQMX (R153): element × 2^(scale − 127)
    roundF32 (fvMul (decodeElem fmt (x % 256)) (scaleVal (x / 256 % 256)))

/-- BF2F passes a NaN as the canonical NaN (R150); the exponent of the largest finite value of a format (R151). -/
def emaxOf (fmt : Nat) : Int :=
  match fmt with
  | 0 => 2
  | 1 => 4
  | 2 => 2
  | 3 => 8
  | _ => 15

/-- Mantissa bits, smallest subnormal exponent, largest finite code and sign bit of an element format (R142). -/
def elemShape (fmt : Nat) : Nat × Int × Nat × Nat :=
  match fmt with
  | 0 => (1, -1, 0x7, 0x8)
  | 1 => (2, -4, 0x1F, 0x20)
  | 2 => (3, -3, 0x1F, 0x20)
  | 3 => (3, -9, 0x7E, 0x80)
  | _ => (2, -16, 0x7B, 0x80)

/-- An exact value rounded into an element format, saturating, sign kept (R152). -/
def encodeElem (fmt : Nat) : FV → Nat
  | .num s m e =>
    let (mb, qmin, big, sgn) := elemShape fmt
    min (roundCode mb qmin m e) big + (if s then sgn else 0)
  | .inf s => let (_, _, big, sgn) := elemShape fmt; big + (if s then sgn else 0)
  | .nan => 0

/-- Scale and shift x of one block of values (R151); `none` is a special block, with scale 0xFF. -/
def blockScale (fmt : Nat) (vals : List FV) : Nat × Option Int :=
  if vals.any (fun v => match v with | .num .. => false | _ => true) then (0xFF, none)
  else
    match vals.filterMap fvExp with
    | [] => (0x7F, some 0)
    | x :: xs =>
      let sh := max (xs.foldl max x - emaxOf fmt) (-127)
      ((sh + 127).toNat, some sh)

/-- The element of one value under a block's shift (R152). -/
def scaledElem (fmt : Nat) (sh : Option Int) (v : FV) : Nat :=
  match sh with
  | none => 0
  | some x =>
    match v with
    | .num s m e => encodeElem fmt (.num s m (e - x))
    | w => encodeElem fmt w

/-! ## Transcendental functions (R122)

Each is evaluated in fixed point with 320 fraction bits and rounded once. FP32 inputs leave no result closer to a
rounding boundary than that error, save the exact cases, which the evaluation returns exactly (log entry 5). -/

/-- Fraction bits of the evaluation. -/
def fxBits : Nat := 320

/-- 1.0 in fixed point. -/
def fxOne : Int := (2 ^ fxBits : Nat)

def fxMul (a b : Int) : Int := a * b / fxOne

/-- Σ x^k / k! in fixed point, for |x| ≤ 1, by `n` terms from term `t` of index `k`. -/
def expSeries : Nat → Nat → Int → Int → Int
  | 0, _, _, _ => 0
  | n + 1, k, x, t => t + expSeries n (k + 1) x (fxMul t x / ((k : Int) + 1))

/-- e^x for 0 ≤ x ≤ 1 in fixed point. -/
def fxExp (x : Int) : Int := expSeries 90 0 x fxOne

/-- Σ z^(2k+1)/(2k+1) in fixed point. -/
def atanhSeries : Nat → Nat → Int → Int → Int
  | 0, _, _, _ => 0
  | n + 1, k, z2, t => t / (2 * (k : Int) + 1) + atanhSeries n (k + 1) z2 (fxMul t z2)

/-- atanh z for 0 ≤ z ≤ 1/3 in fixed point. -/
def fxAtanh (z : Int) : Int := atanhSeries 110 0 (fxMul z z) z

/-- ln 2 in fixed point. -/
def fxLn2 : Int := 2 * fxAtanh (fxOne / 3)

/-- A finite value in fixed point, truncated. -/
def toFx (s : Bool) (m : Nat) (e : Int) : Int :=
  let sh := e + fxBits
  let v : Int := if 0 ≤ sh then (m * 2 ^ sh.toNat : Nat) else (m / 2 ^ (-sh).toNat : Nat)
  if s then -v else v

/-- 2^(y / 2^fxBits) as an exact-enough dyadic: (significand, exponent). -/
def fxExp2 (y : Int) : Nat × Int :=
  let k := y / fxOne
  let f := y - k * fxOne
  let r := if f = 0 then fxOne else fxExp (fxMul f fxLn2)
  (r.toNat, k - fxBits)

/-- A quotient as a value whose lowest bit is sticky, for one later rounding. -/
def quotient (s : Bool) (n d : Nat) (e : Int) : FV :=
  let up := n * 2 ^ 200
  .num s (2 * (up / d) + (if up % d = 0 then 0 else 1)) (e - 201)

/-- The integer square root by bits, from bit `k` down. -/
def isqrtFrom : Nat → Nat → Nat → Nat
  | 0, _, r => r
  | k + 1, n, r => let c := r + 2 ^ k; isqrtFrom k n (if c * c ≤ n then c else r)

/-- √(m × 2^e) with a sticky lowest bit. -/
def fvSqrt (m : Nat) (e : Int) : FV :=
  let m' := if e % 2 = 0 then m else 2 * m
  let e' := if e % 2 = 0 then e else e - 1
  let n := m' * 2 ^ 160
  let r := isqrtFrom (Nat.log2 n / 2 + 1) n 0
  .num false (2 * r + (if r * r = n then 0 else 1)) (e' / 2 - 81)

/-- e^x or 2^x of a finite x: large magnitudes go straight to the limit. -/
def fvExpOf (base2 : Bool) (s : Bool) (m : Nat) (e : Int) : FV :=
  if m = 0 then .num false 1 0
  else if 9 < (Nat.log2 m : Int) + e then
    if s then .num false 1 (-400) else .num false 1 400
  else
    let x := toFx s m e
    let y := if base2 then x else x * fxOne / fxLn2
    let (r, k) := fxExp2 y
    -- the result is irrational but where y is an integer: the sticky bit keeps the rounding exact
    if base2 ∧ y % fxOne = 0 then .num false r k
    else .num false (2 * r + 1) (k - 1)

/-- VTRN (R122) on one lane. -/
def vtrnLane (func x : Nat) : Nat :=
  let a := decodeF32 x
  match func, a with
  | _, .nan => nanF32
  -- EXP2, EXP
  | 0, .inf s => if s then 0 else 0x7F800000
  | 0, .num s m e => roundF32 (fvExpOf true s m e)
  | 5, .inf s => if s then 0 else 0x7F800000
  | 5, .num s m e => roundF32 (fvExpOf false s m e)
  -- LOG2
  | 1, .inf s => if s then nanF32 else 0x7F800000
  | 1, .num s m e =>
    if m = 0 then 0xFF800000
    else if s then nanF32
    else
      let k := Nat.log2 m
      -- m × 2^e = (1 + r) × 2^(k + e); log₂(1 + r) = 2 atanh(r / (2 + r)) / ln 2
      let z := ((m - 2 ^ k : Nat) : Int) * fxOne / ((m + 2 ^ k : Nat) : Int)
      let l := if z = 0 then 0 else 2 * fxAtanh z * fxOne / fxLn2
      let v := l + ((k : Int) + e) * fxOne
      roundF32 (.num (v < 0) v.natAbs (-fxBits))
  -- RCP, RSQRT, SQRT
  | 2, .inf s => if s then 0x80000000 else 0
  | 2, .num s m e =>
    if m = 0 then (if s then 0xFF800000 else 0x7F800000) else roundF32 (quotient s 1 m (-e))
  | 3, .inf s => if s then nanF32 else 0
  | 3, .num s m e =>
    if m = 0 then (if s then 0xFF800000 else 0x7F800000)
    else if s then nanF32
    else
      -- 1/√v = √(1/v): v = m × 2^e, so 1/v = (2^400 / m) × 2^(−e − 400), with a sticky bit
      let q := 2 ^ 400 / m
      let st := if 2 ^ 400 % m = 0 then 0 else 1
      roundF32 (fvSqrt (4 * q + st) (-e - 402))
  | 4, .inf s => if s then nanF32 else 0x7F800000
  | 4, .num s m e => if m = 0 then x else if s then nanF32 else roundF32 (fvSqrt m e)
  -- TANH
  | 6, .inf s => if s then 0xBF800000 else 0x3F800000
  | 6, .num s m e =>
    if m = 0 then x
    else if 5 < (Nat.log2 m : Int) + e then (if s then 0xBF800000 else 0x3F800000)
    else
      let y := 2 * toFx false m e * fxOne / fxLn2
      let (r, k) := fxExp2 y
      -- e^(2|x|) = r × 2^k; tanh |x| = (E − 1) / (E + 1)
      let w : Int := (r : Int) * (2 ^ (k + fxBits).toNat : Nat)
      roundF32 (.num s ((w - fxOne) * fxOne / (w + fxOne)).toNat (-fxBits))
  -- SIGMOID
  | _, .inf s => if s then 0 else 0x3F800000
  | _, .num s m e =>
    if m = 0 then 0x3F000000
    else if 7 < (Nat.log2 m : Int) + e then (if s then 0 else 0x3F800000)
    else
      let y := toFx false m e * fxOne / fxLn2
      let (r, k) := fxExp2 y
      let w : Int := (r : Int) * (2 ^ (k + fxBits).toNat : Nat)
      -- 1/(1 + e^−|x|) = E/(E + 1), and 1/(1 + e^|x|) = 1/(1 + E)
      let n : Int := if s then fxOne else w
      roundF32 (.num false (2 * (n * fxOne / (w + fxOne)).toNat + 1) (-fxBits - 1))

/-! ## Scalar unit (R136) -/

/-- SALU on 64-bit operands. -/
def saluOp (func a b : Nat) : Nat :=
  let w := 2 ^ 64
  let sa := signedN 64 a
  let sb := signedN 64 b
  match func with
  | 0 => (a + b) % w
  | 1 => (a + w - b) % w
  | 2 => a * b % w
  | 3 => a &&& b
  | 4 => a ||| b
  | 5 => a ^^^ b
  | 6 => a * 2 ^ (b % 64) % w
  | 7 => a / 2 ^ (b % 64)
  | 8 => unsignedN 64 (sa / (2 ^ (b % 64) : Nat))
  | 9 => if sa ≤ sb then a else b
  | 10 => if sa ≤ sb then b else a
  | 11 => b2n (sa < sb)
  | _ => b2n (a < b)

/-! ## Glaze arithmetic and atomics (R135, R156, R197, R198, R387) -/

/-- The value of an element (R192). -/
def glzVal (fmt code : Nat) : FV := if fmt = 1 then decodeBF16 code else decodeF32 code

/-- A value rounded to a format. -/
def glzRound (fmt : Nat) (v : FV) : Nat := if fmt = 1 then roundBF16 v else roundF32 v

def fma (a b c : Nat) : Nat := roundF32 (fvAdd (fvMul (decodeF32 a) (decodeF32 b)) (decodeF32 c))
def f32Mul (a b : Nat) : Nat := roundF32 (fvMul (decodeF32 a) (decodeF32 b))
def f32Add (a b : Nat) : Nat := roundF32 (fvAdd (decodeF32 a) (decodeF32 b))
def f32One : Nat := 0x3F800000
def f32Sub (a b : Nat) : Nat := roundF32 (fvAdd (decodeF32 a) (fvNeg (decodeF32 b)))

/-- A correctly rounded square root. -/
def f32Sqrt (a : Nat) : Nat :=
  match decodeF32 a with
  | .nan => nanF32
  | .inf sg => if sg then nanF32 else roundF32 (.inf false)
  | .num sg m e => if m = 0 then roundF32 (.num sg 0 0) else if sg then nanF32 else roundF32 (fvSqrt m e)

/-- A correctly rounded quotient. -/
def f32Div (a b : Nat) : Nat :=
  match decodeF32 a, decodeF32 b with
  | .nan, _ => nanF32
  | _, .nan => nanF32
  | .inf _, .inf _ => nanF32
  | .inf x, .num y _ _ => roundF32 (.inf (x != y))
  | .num x _ _, .inf y => roundF32 (.num (x != y) 0 0)
  | .num x m e, .num y n f =>
    if n = 0 then (if m = 0 then nanF32 else roundF32 (.inf (x != y)))
    else if m = 0 then roundF32 (.num (x != y) 0 0)
    else roundF32 (quotient (x != y) m n (e - f))

/-- ACCUM and SCALE_ADD on one element (R156, R197). -/
def addElem (fmt old src : Nat) (alpha : Option Nat) : Nat :=
  if fmt = 2 then (old + src) % 2 ^ 32
  else
    let x := glzVal fmt src
    glzRound fmt (mxuAdd (glzVal fmt old) (match alpha with | some a => fvMul (decodeF32 a) x | none => x))

/-- OPT_STEP on one element, with the scalars P0 to P6: the new weight, first and second moment (R198). -/
def optElem (wfmt gfmt : Nat) (p : List Nat) (w m v g : Nat) : Nat × Nat × Nat :=
  let lr := p.getD 0 0
  let b1 := p.getD 1 0
  let b2 := p.getD 2 0
  let w32 := if wfmt = 1 then roundF32 (decodeBF16 w) else w
  let g32 := if gfmt = 1 then roundF32 (decodeBF16 g) else g
  let m1 := fma (f32Sub f32One b1) g32 (f32Mul b1 m)
  let v1 := fma (f32Sub f32One b2) (f32Mul g32 g32) (f32Mul b2 v)
  let mh := f32Mul m1 (p.getD 5 0)
  let vh := f32Mul v1 (p.getD 6 0)
  let den := f32Add (f32Sqrt vh) (p.getD 3 0)
  let u := fma (p.getD 4 0) w32 (f32Div mh den)
  (glzRound wfmt (fvAdd (decodeF32 w32) (fvNeg (fvMul (decodeF32 lr) (decodeF32 u)))), m1, v1)

/-- The result of an atomic operation (R135, R387, R156). -/
def atomResult (code old operand compare : Nat) : Nat :=
  let w := if code = 0x00 || code = 0x02 || code = 0x03 || (0x06 ≤ code && code % 2 = 0) then 32 else 64
  let x := operand % 2 ^ w
  match code with
  | 0x00 | 0x01 => (old + x) % 2 ^ w
  | 0x02 => addElem 0 old x none
  | 0x03 | 0x04 => x
  | 0x05 => if old = compare % 2 ^ 64 then x else old
  | 0x06 | 0x07 => old &&& x
  | 0x08 | 0x09 => old ||| x
  | 0x0A | 0x0B => old ^^^ x
  | 0x0C | 0x0D => if signedN w x < signedN w old then x else old
  | 0x0E | 0x0F => if signedN w old < signedN w x then x else old
  | 0x10 | 0x11 => min old x
  | _ => max old x

/-- Bytes of an atomic's operand by its code (R387). -/
def atomSize (code : Nat) : Nat := if code = 0x00 || code = 0x02 || code = 0x03 || (0x06 ≤ code && code % 2 = 0) then 4 else 8

end Sys2Proof
end

