-- ==== Sys2Proof/Config.lean ====
section
/-!
DEFINITION. What an implementation or its fuses fix, and the free values: constants without a body, so that nothing can
be proved about their value.
-/
namespace Sys2Proof

/-- A value that the spec leaves undefined or does not state, by the number of the occurrence (log entry 3). -/
opaque Config.freeValue : Nat → Word

/-- The package serial number fused at test (R25). -/
opaque Config.serial : BitVec 48

/-- The REVLEVEL that each of the dies C0–C3, Q0, Q1 is fused with (R26). -/
opaque Config.revlevel : Nat → BitVec 8

/-- The errata mask of each die (R258, R267). -/
opaque Config.errata : Nat → Word

/-- The router of a C-die at which its RLC stands: the spec does not state it (R242, log entry 56). -/
opaque Config.rlcRouter : Nat → Nat

/-- The sub-channel of a message from one Q-die to the other: R247 gives none (log entry 56). -/
opaque Config.qSub : Nat → Nat → Nat

/-- VMIN of each point of each die, in mV (R494). -/
opaque Config.vmin : Nat → Nat → BitVec 16

/-- The stepping of the Q-dies: the letter in bits 15 to 8 as ASCII, the digit in bits 7 to 0 (R327, R612). -/
opaque Config.qStepping : BitVec 16

/-- The LOC_ID contacts (R24, R605). -/
opaque Config.locId : BitVec 12

/-- Whether a translation that an IOMMU keeps serves an access rather than a new walk of the tables (R234): the number of translations that
this IOMMU has made, the Q-die, the device ID and the page. The spec says only that each IOMMU caches its tables. -/
opaque Config.iotlbServes : Nat → Nat → Nat → Nat → Bool

/-- The serial number of the package with an ID, which the rights of R380 go by: the spec does not say how a package learns it. -/
opaque Config.serialOf : Nat → BitVec 48

/-- Where the region of HQ_PARTNER_RX begins on a partner package, as its origin knows it (R474): the spec does not say how
the origin learns it. -/
opaque Config.partnerBase : Nat → Nat

/-- Whether a companion's descriptor passes measurement (R451, R452): its SM2 signature over it and the nonce verifies under
the key that KEY_ID names in the companion key table, and MEAS equals the digest held for that key. -/
opaque Config.siteMeasured : Word → List (BitVec 8) → Bool

/-- The SM3 digest of a byte string (R552 to R566); the standard is left to others (00_scope). -/
opaque Config.sm3 : List (BitVec 8) → List (BitVec 8)

/-- Whether a signature over a digest verifies under an SM2 public key: key, digest, signature (R554, R563). -/
opaque Config.sm2Verify : List (BitVec 8) → List (BitVec 8) → List (BitVec 8) → Bool

/-- The SM2 signature by the identity key over a digest (R566); the number is that of the occurrence, since SM2 draws a random
value for each signature. -/
opaque Config.sm2Sign : Nat → List (BitVec 8) → List (BitVec 8)

/-- ROOT_HASH, 32 bytes (R552). -/
opaque Config.rootHash : List (BitVec 8)

/-- The identity public key and certificate, 64 bytes each (R552, R568). -/
opaque Config.identityKey : List (BitVec 8)
opaque Config.identityCert : List (BitVec 8)

/-- The VOLT in mV that a calibration stage holds for a die and point, and the coefficient that it holds for an activity (R522,
R553): the spec does not lay the stage out. -/
opaque Config.calVolt : List (BitVec 8) → Nat → Nat → Nat
opaque Config.calCoef : List (BitVec 8) → Nat → BitVec 32

end Sys2Proof
end

