-- ==== Sys2Proof/Machine/RegMap.lean ====
section
/-!
DEFINITION. The register map: for every register of the spec its rule, the dies and blocks that hold it (R221, R222),
its offset, and each of its fields with its bits, access type (R11) and reset value. A "Boot" field resets to 0 (R13);
"Fused" fields, the pins and the core indices of SEQ_FOLD_MAP get their values in Sys2Proof/Machine/Ops.lean.
-/
namespace Sys2Proof

/-- Field access types (R11). -/
inductive Acc where
  | ro | rw | rc | w1c | w1s | wo | lh
  deriving DecidableEq, Repr

/-- One field of a register. -/
structure FieldDesc where
  name : String
  hi : Nat
  lo : Nat
  acc : Acc
  reset : Nat
  deriving DecidableEq, Repr

/-- The dies that hold a register: C-dies, Q-dies, Q0 alone, or the Q-die that holds the event arbiter (R15, R537). -/
inductive Site where
  | c | q | q0 | arb
  deriving DecidableEq, Repr

/-- A register or an array of registers. `shared`: one value for both Q-dies (R23), kept at Q0's address. -/
structure RegDesc where
  name : String
  rule : Nat
  site : Site
  blk : Nat
  nblk : Nat
  off : Nat
  cnt : Nat
  stride : Nat
  cnt2 : Nat
  stride2 : Nat
  shared : Bool
  fields : List FieldDesc
  deriving DecidableEq, Repr

/-- A field by the first block that holds its register, the offset and the bits. -/
structure FieldRef where
  blk : Nat
  off : Nat
  hi : Nat
  lo : Nat
  deriving DecidableEq, Repr

/-- The same field `n` blocks further on (core, vault, hart or port `n`). -/
def FieldRef.unit (f : FieldRef) (n : Nat) : FieldRef := { f with blk := f.blk + n }

/-- The same field in another block. -/
def FieldRef.inBlk (f : FieldRef) (b : Nat) : FieldRef := { f with blk := b }

/-- The same field `n` bytes further on in its block. -/
def FieldRef.plus (f : FieldRef) (n : Nat) : FieldRef := { f with off := f.off + n }


/-- Registers by block (R221, R222). -/
def tabSEQ : List RegDesc := [
  ⟨"SEQ_STATUS", 92, .c, 0x0, 1, 0x0, 1, 0x0, 1, 0x0, false,
    [⟨"STEP", 63, 48, .ro, 0⟩, ⟨"HALF_RATE", 8, 8, .ro, 0⟩, ⟨"RING", 7, 7, .ro, 0⟩, ⟨"FROZEN", 6, 6, .ro, 0⟩, ⟨"STATE", 3, 0, .ro, 0⟩]⟩,
  ⟨"SEQ_CTRL", 93, .c, 0x0, 1, 0x8, 1, 0x0, 1, 0x0, false,
    [⟨"ABORT", 2, 2, .w1s, 0⟩, ⟨"START", 1, 1, .w1s, 0⟩, ⟨"LOAD", 0, 0, .w1s, 0⟩]⟩,
  ⟨"SEQ_IMAGE_BASE", 95, .c, 0x0, 1, 0x10, 1, 0x0, 1, 0x0, false,
    [⟨"BASE", 43, 12, .rw, 0⟩]⟩,
  ⟨"SEQ_LOAD_RESULT", 96, .c, 0x0, 1, 0x18, 1, 0x0, 1, 0x0, false,
    [⟨"REQ_LEVEL", 15, 8, .ro, 0⟩, ⟨"CODE", 3, 0, .ro, 0⟩]⟩,
  ⟨"SEQ_FAULT", 97, .c, 0x0, 1, 0x20, 1, 0x0, 1, 0x0, false,
    [⟨"FIRST_STEP", 63, 48, .ro, 0⟩, ⟨"FIRST_KIND", 39, 32, .ro, 0⟩, ⟨"CORE_SCHED", 10, 10, .w1c, 0⟩, ⟨"FENCED", 9, 9, .w1c, 0⟩, ⟨"AWAIT_TIMEOUT", 8, 8, .w1c, 0⟩, ⟨"FETCH", 7, 7, .w1c, 0⟩, ⟨"LOOP", 6, 6, .w1c, 0⟩, ⟨"BRANCH_SHADOW", 5, 5, .w1c, 0⟩, ⟨"UNIT_BUSY", 4, 4, .w1c, 0⟩, ⟨"FORMAT", 3, 3, .w1c, 0⟩, ⟨"WINDOW", 2, 2, .w1c, 0⟩, ⟨"REPLAY_LIMIT", 1, 1, .w1c, 0⟩, ⟨"ARITH", 0, 0, .w1c, 0⟩]⟩,
  ⟨"SEQ_REPLAY", 98, .c, 0x0, 1, 0x28, 1, 0x0, 1, 0x0, false,
    [⟨"REPLAY_CNT", 63, 48, .rc, 0⟩, ⟨"LIMIT", 3, 0, .rw, 3⟩]⟩,
  ⟨"SEQ_REFRESH", 99, .c, 0x0, 1, 0x30, 1, 0x0, 1, 0x0, false,
    [⟨"INSERTED_CNT", 63, 32, .rc, 0⟩, ⟨"PEAK_DEBT", 15, 8, .rc, 0⟩, ⟨"DEBT_LIMIT", 3, 0, .rw, 8⟩]⟩,
  ⟨"SEQ_AWAIT_TIMEOUT", 100, .c, 0x0, 1, 0x38, 1, 0x0, 1, 0x0, false,
    [⟨"TIMEOUT_US", 31, 0, .rw, 100000⟩]⟩,
  ⟨"SEQ_TICKBASE", 100, .c, 0x0, 1, 0x40, 1, 0x0, 1, 0x0, false,
    [⟨"TICKBASE", 63, 0, .rw, 0⟩]⟩,
  ⟨"SEQ_TOKEN_ADD", 101, .c, 0x0, 1, 0x48, 1, 0x0, 1, 0x0, false,
    [⟨"INC", 31, 16, .wo, 0⟩, ⟨"INDEX", 3, 0, .wo, 0⟩]⟩,
  ⟨"SEQ_TOKEN", 102, .c, 0x0, 1, 0x50, 4, 0x8, 1, 0x0, false,
    [⟨"CNT3", 63, 48, .ro, 0⟩, ⟨"CNT2", 47, 32, .ro, 0⟩, ⟨"CNT1", 31, 16, .ro, 0⟩, ⟨"CNT0", 15, 0, .ro, 0⟩]⟩,
  ⟨"SEQ_TOKEN_OVF", 102, .c, 0x0, 1, 0x70, 1, 0x0, 1, 0x0, false,
    [⟨"OVF", 15, 0, .w1c, 0⟩]⟩,
  ⟨"SEQ_BALLAST", 434, .c, 0x0, 1, 0x78, 1, 0x0, 1, 0x0, false,
    [⟨"SHORT_CNT", 63, 48, .rc, 0⟩, ⟨"LEVEL", 22, 16, .ro, 0⟩, ⟨"RAMP_US", 9, 0, .rw, 50⟩]⟩,
  ⟨"SEQ_PARAM", 103, .c, 0x0, 1, 0x80, 8, 0x8, 1, 0x0, false,
    [⟨"PARAM", 63, 0, .rw, 0⟩]⟩,
  ⟨"SEQ_FOLD_MAP", 104, .c, 0x0, 1, 0x100, 8, 0x8, 1, 0x0, false,
    [⟨"FOLDED7", 63, 63, .ro, 0⟩, ⟨"HOST7", 61, 56, .ro, 0⟩, ⟨"FOLDED6", 55, 55, .ro, 0⟩, ⟨"HOST6", 53, 48, .ro, 0⟩, ⟨"FOLDED5", 47, 47, .ro, 0⟩, ⟨"HOST5", 45, 40, .ro, 0⟩, ⟨"FOLDED4", 39, 39, .ro, 0⟩, ⟨"HOST4", 37, 32, .ro, 0⟩, ⟨"FOLDED3", 31, 31, .ro, 0⟩, ⟨"HOST3", 29, 24, .ro, 0⟩, ⟨"FOLDED2", 23, 23, .ro, 0⟩, ⟨"HOST2", 21, 16, .ro, 0⟩, ⟨"FOLDED1", 15, 15, .ro, 0⟩, ⟨"HOST1", 13, 8, .ro, 0⟩, ⟨"FOLDED0", 7, 7, .ro, 0⟩, ⟨"HOST0", 5, 0, .ro, 0⟩]⟩,
  ⟨"SEQ_WIN_BASE", 105, .c, 0x0, 1, 0x1000, 64, 0x20, 1, 0x0, false,
    [⟨"BASE", 43, 0, .rw, 0⟩]⟩,
  ⟨"SEQ_WIN_LIMIT", 105, .c, 0x0, 1, 0x1008, 64, 0x20, 1, 0x0, false,
    [⟨"LIMIT", 44, 0, .rw, 0⟩]⟩,
  ⟨"SEQ_WIN_PHYS", 105, .c, 0x0, 1, 0x1010, 64, 0x20, 1, 0x0, false,
    [⟨"PHYS", 55, 0, .rw, 0⟩]⟩,
  ⟨"SEQ_WIN_ATTR", 105, .c, 0x0, 1, 0x1018, 64, 0x20, 1, 0x0, false,
    [⟨"VALID", 63, 63, .rw, 0⟩, ⟨"G", 2, 2, .rw, 0⟩, ⟨"W", 1, 1, .rw, 0⟩, ⟨"R", 0, 0, .rw, 0⟩]⟩]

/-- Registers by block (R221, R222). -/
def tabTC : List RegDesc := [
  ⟨"TC_STATUS", 55, .c, 0x100, 64, 0x0, 1, 0x0, 1, 0x0, false,
    [⟨"FOLDED_FROM", 15, 10, .ro, 0⟩, ⟨"HOSTING", 9, 9, .ro, 0⟩, ⟨"STATE", 1, 0, .ro, 0⟩]⟩,
  ⟨"TC_FAULT", 56, .c, 0x100, 64, 0x8, 1, 0x0, 1, 0x0, false,
    [⟨"FIRST_STEP", 63, 48, .ro, 0⟩, ⟨"FIRST_KIND", 39, 32, .ro, 0⟩, ⟨"REGWRITE", 6, 6, .w1c, 0⟩, ⟨"WBUF", 5, 5, .w1c, 0⟩, ⟨"SLAB_PORT", 4, 4, .w1c, 0⟩, ⟨"POISON", 3, 3, .w1c, 0⟩, ⟨"VAULT_UNCORR", 2, 2, .w1c, 0⟩, ⟨"SLAB_PARITY", 1, 1, .w1c, 0⟩, ⟨"RESIDUE", 0, 0, .w1c, 0⟩]⟩,
  ⟨"TC_ERRCNT", 58, .c, 0x100, 64, 0x10, 1, 0x0, 1, 0x0, false,
    [⟨"RESIDUE_CNT", 63, 48, .rc, 0⟩, ⟨"SLAB_PAR_CNT", 47, 32, .rc, 0⟩, ⟨"REPLAY_CNT", 31, 16, .rc, 0⟩]⟩,
  ⟨"TC_SLAB_ERR", 59, .c, 0x100, 64, 0x18, 1, 0x0, 1, 0x0, false,
    [⟨"VALID", 63, 63, .w1c, 0⟩, ⟨"DYNAMIC", 62, 62, .ro, 0⟩, ⟨"BANK", 19, 14, .ro, 0⟩, ⟨"ROW", 13, 3, .ro, 0⟩, ⟨"WORD", 2, 0, .ro, 0⟩]⟩,
  ⟨"TC_RESIDUE_ERR", 60, .c, 0x100, 64, 0x20, 1, 0x0, 1, 0x0, false,
    [⟨"VALID", 63, 63, .w1c, 0⟩, ⟨"COLUMN", 54, 48, .ro, 0⟩, ⟨"STEP", 47, 32, .ro, 0⟩, ⟨"ROW", 11, 0, .ro, 0⟩]⟩,
  ⟨"TC_INJECT", 61, .c, 0x100, 64, 0x28, 1, 0x0, 1, 0x0, false,
    [⟨"SLAB_PARITY", 1, 1, .w1s, 0⟩, ⟨"RESIDUE", 0, 0, .w1s, 0⟩]⟩]

/-- Registers by block (R221, R222). -/
def tabMFS : List RegDesc := [
  ⟨"MFS_STATUS", 180, .c, 0x200, 64, 0x0, 1, 0x0, 1, 0x0, false,
    [⟨"DEBT", 35, 32, .ro, 0⟩, ⟨"UNCORR_TOTAL", 31, 28, .ro, 0⟩, ⟨"FENCE_REQ", 7, 7, .ro, 0⟩, ⟨"STATE", 1, 0, .ro, 0⟩]⟩,
  ⟨"MFS_CTRL", 181, .c, 0x200, 64, 0x8, 1, 0x0, 1, 0x0, false,
    [⟨"UNCORR_LIMIT", 23, 20, .rw, 4⟩, ⟨"ERASE_LIMIT", 19, 16, .rw, 4⟩, ⟨"SCRUB_EN", 9, 9, .rw, 0⟩, ⟨"INIT", 1, 1, .w1s, 0⟩, ⟨"FENCE", 0, 0, .w1s, 0⟩]⟩,
  ⟨"MFS_ECC_CNT", 182, .c, 0x200, 64, 0x10, 1, 0x0, 1, 0x0, false,
    [⟨"CORR_CNT", 63, 32, .rc, 0⟩, ⟨"UNCORR_CNT", 31, 16, .rc, 0⟩, ⟨"POISON_CNT", 15, 0, .rc, 0⟩]⟩,
  ⟨"MFS_ECC_ERR", 183, .c, 0x200, 64, 0x18, 1, 0x0, 1, 0x0, false,
    [⟨"VALID", 63, 63, .w1c, 0⟩, ⟨"POISONED", 62, 62, .ro, 0⟩, ⟨"CRUMB", 61, 61, .ro, 0⟩, ⟨"QUARTER", 60, 59, .ro, 0⟩, ⟨"SOURCE", 58, 56, .ro, 0⟩, ⟨"BLOCK", 55, 32, .ro, 0⟩]⟩,
  ⟨"MFS_ERASE", 184, .c, 0x200, 64, 0x20, 1, 0x0, 1, 0x0, false,
    [⟨"CNT", 63, 32, .ro, 0⟩, ⟨"LAST_VALID", 31, 31, .w1c, 0⟩, ⟨"LAST_CHANNEL", 10, 8, .ro, 0⟩, ⟨"LAST_WIRE", 7, 0, .ro, 0⟩]⟩,
  ⟨"MFS_INJECT", 185, .c, 0x200, 64, 0x28, 1, 0x0, 1, 0x0, false,
    [⟨"ARM", 16, 16, .w1s, 0⟩, ⟨"CHANNEL", 10, 8, .rw, 0⟩, ⟨"WIRE", 7, 0, .rw, 0⟩]⟩,
  ⟨"MFS_DIR_CNT", 306, .c, 0x200, 64, 0x30, 1, 0x0, 1, 0x0, false,
    [⟨"LOOKUP_MISS", 63, 32, .rc, 0⟩, ⟨"EVICT_CNT", 31, 16, .rc, 0⟩, ⟨"GEN_OK", 0, 0, .ro, 0⟩]⟩]

/-- Registers by block (R221, R222). -/
def tabMFSD : List RegDesc := [
  ⟨"MFS_SPLIT", 186, .c, 0x200, 1, 0x100, 1, 0x0, 1, 0x0, false,
    [⟨"LOCK", 63, 63, .w1s, 0⟩, ⟨"TIMING", 8, 8, .rw, 0⟩, ⟨"SPLIT", 2, 0, .rw, 0⟩]⟩,
  ⟨"MFS_CRUMB", 187, .c, 0x200, 1, 0x108, 1, 0x0, 1, 0x0, false,
    [⟨"LIMIT", 25, 16, .rw, 0⟩, ⟨"BASE", 9, 0, .rw, 0⟩]⟩,
  ⟨"MFS_THERM", 188, .c, 0x200, 1, 0x110, 1, 0x0, 1, 0x0, false,
    [⟨"L7", 63, 56, .ro, 0⟩, ⟨"L6", 55, 48, .ro, 0⟩, ⟨"L5", 47, 40, .ro, 0⟩, ⟨"L4", 39, 32, .ro, 0⟩, ⟨"L3", 31, 24, .ro, 0⟩, ⟨"L2", 23, 16, .ro, 0⟩, ⟨"L1", 15, 8, .ro, 0⟩, ⟨"L0", 7, 0, .ro, 0⟩]⟩,
  ⟨"MFS_DIESTAT", 189, .c, 0x200, 1, 0x118, 1, 0x0, 1, 0x0, false,
    [⟨"MAX_TEMP", 15, 8, .ro, 0⟩, ⟨"HOT_LAYER", 7, 5, .ro, 0⟩, ⟨"TRIP", 4, 4, .w1c, 0⟩, ⟨"REF2X", 3, 3, .ro, 0⟩]⟩]

/-- Registers by block (R221, R222). -/
def tabGLZ : List RegDesc := [
  ⟨"GLZ_STATUS", 212, .c, 0x240, 64, 0x0, 1, 0x0, 1, 0x0, false,
    [⟨"HELD", 63, 56, .ro, 0⟩, ⟨"KEYS", 55, 48, .ro, 0⟩, ⟨"STAGE_USED", 47, 24, .ro, 0⟩, ⟨"RESUMING", 2, 2, .ro, 0⟩, ⟨"STATE", 1, 0, .ro, 0⟩]⟩,
  ⟨"GLZ_AREA", 213, .c, 0x240, 64, 0x8, 1, 0x0, 1, 0x0, false,
    [⟨"VALID", 63, 63, .rw, 0⟩, ⟨"MODE", 62, 62, .rw, 0⟩, ⟨"SIZE", 31, 16, .rw, 0⟩, ⟨"BASE", 10, 0, .rw, 0⟩]⟩,
  ⟨"GLZ_CNT", 214, .c, 0x240, 64, 0x10, 1, 0x0, 1, 0x0, false,
    [⟨"CMD_CNT", 63, 32, .rc, 0⟩, ⟨"FAIL_CNT", 31, 16, .rc, 0⟩, ⟨"RESUME_CNT", 15, 0, .rc, 0⟩]⟩,
  ⟨"GLZ_ERR", 215, .c, 0x240, 64, 0x18, 1, 0x0, 1, 0x0, false,
    [⟨"VALID", 63, 63, .w1c, 0⟩, ⟨"CODE", 55, 52, .ro, 0⟩, ⟨"GOP", 51, 48, .ro, 0⟩, ⟨"SOURCE", 47, 46, .ro, 0⟩, ⟨"ORIGIN", 43, 32, .ro, 0⟩, ⟨"STROKE", 14, 0, .ro, 0⟩]⟩]

/-- Registers by block (R221, R222). -/
def tabGLZD : List RegDesc := [
  ⟨"GLZ_JOURNAL", 216, .c, 0x240, 1, 0x100, 1, 0x0, 1, 0x0, false,
    [⟨"ACTIVE", 63, 63, .rw, 0⟩, ⟨"JID", 15, 0, .rw, 0⟩]⟩,
  ⟨"GLZ_APPLY", 217, .c, 0x240, 1, 0x108, 1, 0x0, 1, 0x0, false,
    [⟨"BUSY", 63, 63, .ro, 0⟩, ⟨"RESULT", 59, 58, .ro, 0⟩, ⟨"OP", 49, 48, .rw, 0⟩, ⟨"PKG", 43, 32, .rw, 0⟩, ⟨"JID", 15, 0, .rw, 0⟩]⟩]

/-- Registers by block (R221, R222). -/
def tabSWL : List RegDesc := [
  ⟨"SWL_CNT", 260, .c, 0x280, 1, 0x8, 1, 0x0, 1, 0x0, false,
    [⟨"REPLAY_CNT", 63, 32, .rc, 0⟩, ⟨"STATIC_PAR_CNT", 31, 16, .rc, 0⟩, ⟨"REROUTE_CNT", 15, 0, .rc, 0⟩]⟩,
  ⟨"SWL_ERR", 261, .c, 0x280, 1, 0x10, 1, 0x0, 1, 0x0, false,
    [⟨"VALID", 63, 63, .w1c, 0⟩, ⟨"DOWN", 62, 62, .ro, 0⟩, ⟨"ROUTER", 61, 56, .ro, 0⟩, ⟨"PORT", 55, 54, .ro, 0⟩, ⟨"WORD", 53, 51, .ro, 0⟩, ⟨"CLASS", 50, 48, .ro, 0⟩]⟩,
  ⟨"SWL_DOWN", 262, .c, 0x280, 1, 0x20, 4, 0x8, 1, 0x0, false,
    [⟨"DOWN", 63, 0, .ro, 0⟩]⟩]

/-- Registers by block (R221, R222). -/
def tabJTY : List RegDesc := [
  ⟨"JTY_STATUS", 263, .c, 0x290, 3, 0x0, 1, 0x0, 1, 0x0, false,
    [⟨"PEER_LEVEL", 63, 56, .ro, 0⟩, ⟨"PEER_DIE", 55, 53, .ro, 0⟩, ⟨"RATE", 4, 4, .ro, 0⟩, ⟨"STATE", 1, 0, .ro, 0⟩]⟩,
  ⟨"JTY_CTRL", 264, .c, 0x290, 3, 0x8, 1, 0x0, 1, 0x0, false,
    [⟨"REJOIN", 8, 8, .w1s, 0⟩, ⟨"RATE", 0, 0, .rw, 0⟩]⟩,
  ⟨"JTY_CNT", 265, .c, 0x290, 3, 0x10, 1, 0x0, 1, 0x0, false,
    [⟨"REPLAY_CNT", 63, 32, .rc, 0⟩, ⟨"CLKLOSS_CNT", 31, 16, .rc, 0⟩, ⟨"DISCARD_CNT", 15, 0, .rc, 0⟩]⟩,
  ⟨"JTY_ERR", 266, .c, 0x290, 3, 0x18, 1, 0x0, 1, 0x0, false,
    [⟨"VALID", 63, 63, .w1c, 0⟩, ⟨"FAILED", 62, 62, .ro, 0⟩, ⟨"INBOUND", 61, 61, .ro, 0⟩, ⟨"SUBCH", 60, 58, .ro, 0⟩, ⟨"WORD", 57, 56, .ro, 0⟩]⟩]

/-- Registers by block (R221, R222). -/
def tabRLC : List RegDesc := [
  ⟨"RLC_CTRL", 296, .c, 0x2A0, 1, 0x0, 1, 0x0, 1, 0x0, false,
    [⟨"DIRTY_AT_DISABLE", 1, 1, .w1c, 0⟩, ⟨"ENABLE", 0, 0, .rw, 0⟩]⟩,
  ⟨"RLC_STATUS", 297, .c, 0x2A0, 1, 0x8, 1, 0x0, 1, 0x0, false,
    [⟨"DIRTY_CNT", 39, 16, .ro, 0⟩, ⟨"MERGE_USED", 15, 10, .ro, 0⟩, ⟨"SIDE_USED", 9, 0, .ro, 0⟩]⟩,
  ⟨"RLC_RNG_BASE", 298, .c, 0x2A0, 1, 0x10, 1, 0x0, 1, 0x0, false,
    [⟨"BASE", 43, 6, .rw, 0⟩]⟩,
  ⟨"RLC_RNG_LEN", 298, .c, 0x2A0, 1, 0x18, 1, 0x0, 1, 0x0, false,
    [⟨"LEN", 44, 6, .rw, 0⟩]⟩,
  ⟨"RLC_RNG_OP", 299, .c, 0x2A0, 1, 0x20, 1, 0x0, 1, 0x0, false,
    [⟨"BUSY", 63, 63, .ro, 0⟩, ⟨"REJECT", 62, 62, .w1c, 0⟩, ⟨"SKIP_LOCKED", 3, 3, .rw, 0⟩, ⟨"OP", 1, 0, .rw, 0⟩]⟩,
  ⟨"RLC_RNG_STATUS", 300, .c, 0x2A0, 1, 0x28, 1, 0x0, 1, 0x0, false,
    [⟨"LOCKED_CNT", 63, 40, .ro, 0⟩, ⟨"WB_CNT", 39, 16, .ro, 0⟩]⟩,
  ⟨"RLC_CLASS_MAP", 301, .c, 0x2A0, 1, 0x40, 8, 0x8, 1, 0x0, false,
    [⟨"CLASS", 63, 0, .rw, 0⟩]⟩,
  ⟨"RLC_WAYMASK", 302, .c, 0x2A0, 1, 0x80, 16, 0x8, 1, 0x0, false,
    [⟨"LOCKED", 31, 16, .rw, 0⟩, ⟨"ALLOC", 15, 0, .rw, 65535⟩]⟩,
  ⟨"RLC_PF_CTRL", 303, .c, 0x2A0, 1, 0x100, 1, 0x0, 1, 0x0, false,
    [⟨"DIST", 13, 8, .rw, 8⟩, ⟨"ZICBOP_EN", 1, 1, .rw, 1⟩, ⟨"STRIDE_EN", 0, 0, .rw, 1⟩]⟩,
  ⟨"RLC_MERGE_CTRL", 304, .c, 0x2A0, 1, 0x108, 1, 0x0, 1, 0x0, false,
    [⟨"TIMEOUT", 15, 0, .rw, 4096⟩]⟩]

/-- Registers by block (R221, R222). -/
def tabPWR : List RegDesc := [
  ⟨"PWR_POINT", 515, .c, 0x2B0, 1, 0x0, 1, 0x0, 1, 0x0, false,
    [⟨"BUSY", 63, 63, .ro, 0⟩, ⟨"DEFERRED", 62, 62, .ro, 0⟩, ⟨"CAP", 27, 27, .ro, 0⟩, ⟨"THERM", 26, 26, .ro, 0⟩, ⟨"NEIGHBOUR", 25, 25, .ro, 0⟩, ⟨"TIMING", 24, 24, .ro, 0⟩, ⟨"CEIL", 19, 16, .ro, 15⟩, ⟨"CUR", 11, 8, .ro, 0⟩, ⟨"REQ", 3, 0, .rw, 0⟩]⟩,
  ⟨"PWR_ENERGY", 516, .c, 0x2B0, 1, 0x8, 1, 0x0, 1, 0x0, false,
    [⟨"ENERGY_UJ", 63, 0, .ro, 0⟩]⟩,
  ⟨"PWR_THERM", 517, .c, 0x2B0, 1, 0x10, 1, 0x0, 1, 0x0, false,
    [⟨"STACK_THROT", 63, 56, .rw, 91⟩, ⟨"TJ_THROT", 55, 48, .rw, 100⟩, ⟨"TJ_MAX", 23, 16, .ro, 0⟩]⟩,
  ⟨"PWR_DROOP", 518, .c, 0x2B0, 1, 0x18, 1, 0x0, 1, 0x0, false,
    [⟨"ACTIVE", 63, 63, .ro, 0⟩, ⟨"DROOP_CNT", 31, 0, .rc, 0⟩]⟩,
  ⟨"PWR_VF", 519, .c, 0x2B0, 1, 0x100, 16, 0x8, 1, 0x0, false,
    [⟨"FREQ", 47, 32, .ro, 0⟩, ⟨"VOLT", 31, 16, .lh, 0⟩, ⟨"VMIN", 15, 0, .ro, 0⟩]⟩]

/-- Registers by block (R221, R222). -/
def tabERRC : List RegDesc := [
  ⟨"ERR_STATUS", 543, .c, 0x2C0, 1, 0x0, 1, 0x0, 1, 0x0, false,
    [⟨"USED", 63, 56, .ro, 0⟩, ⟨"OVERFLOW", 55, 55, .w1c, 0⟩, ⟨"PEER_LOST", 0, 0, .ro, 0⟩]⟩,
  ⟨"ERR_CTRL", 544, .c, 0x2C0, 1, 0x8, 1, 0x0, 1, 0x0, false,
    [⟨"IRQ_EN", 63, 63, .rw, 0⟩, ⟨"IRQ_SEV", 1, 0, .rw, 2⟩]⟩,
  ⟨"ERR_REC0", 545, .c, 0x2C0, 1, 0x10, 1, 0x0, 1, 0x0, false,
    [⟨"VALID", 63, 63, .rc, 0⟩, ⟨"SEV", 62, 61, .ro, 0⟩, ⟨"UNIT", 55, 48, .ro, 0⟩, ⟨"KIND", 47, 40, .ro, 0⟩, ⟨"INDEX", 31, 16, .ro, 0⟩, ⟨"COUNT", 15, 0, .ro, 0⟩]⟩,
  ⟨"ERR_REC1", 545, .c, 0x2C0, 1, 0x18, 1, 0x0, 1, 0x0, false,
    [⟨"DETAIL", 63, 0, .ro, 0⟩]⟩,
  ⟨"ERR_REC2", 545, .c, 0x2C0, 1, 0x20, 1, 0x0, 1, 0x0, false,
    [⟨"TIME", 63, 0, .ro, 0⟩]⟩,
  ⟨"ERR_CNT", 546, .c, 0x2C0, 1, 0x28, 1, 0x0, 1, 0x0, false,
    [⟨"SEV0_CNT", 63, 48, .rc, 0⟩, ⟨"SEV1_CNT", 47, 32, .rc, 0⟩, ⟨"SEV2_CNT", 31, 16, .rc, 0⟩, ⟨"SEV3_CNT", 15, 8, .rc, 0⟩, ⟨"DROP_CNT", 7, 0, .rc, 0⟩]⟩,
  ⟨"ERR_POLICY", 547, .c, 0x2C0, 1, 0x30, 1, 0x0, 1, 0x0, false,
    [⟨"DECAY_MIN", 31, 16, .rw, 15⟩, ⟨"LIMIT", 7, 0, .rw, 4⟩]⟩,
  ⟨"ERR_FENCE", 548, .c, 0x2C0, 1, 0x38, 1, 0x0, 1, 0x0, false,
    [⟨"GO", 63, 63, .w1s, 0⟩, ⟨"CORE", 5, 0, .rw, 0⟩]⟩,
  ⟨"ERR_SCORE", 549, .c, 0x2C0, 1, 0x40, 8, 0x8, 1, 0x0, false,
    [⟨"SCORE", 63, 0, .ro, 0⟩]⟩,
  ⟨"ERR_SWEEP", 550, .c, 0x2C0, 1, 0x80, 1, 0x0, 1, 0x0, false,
    [⟨"POISONED_CNT", 63, 32, .rc, 0⟩, ⟨"REMOVED_CNT", 31, 0, .rc, 0⟩]⟩]

/-- Registers by block (R221, R222). -/
def tabPMUC : List RegDesc := [
  ⟨"PMU_CTRL", 598, .c, 0x2D0, 1, 0x0, 1, 0x0, 1, 0x0, false,
    [⟨"FREEZE_ON_OVF", 1, 1, .rw, 0⟩, ⟨"EN", 0, 0, .rw, 0⟩]⟩,
  ⟨"PMU_OVF", 598, .c, 0x2D0, 1, 0x8, 1, 0x0, 1, 0x0, false,
    [⟨"COVF", 23, 16, .w1c, 0⟩, ⟨"DOVF", 15, 0, .w1c, 0⟩]⟩,
  ⟨"PMU_LATCH", 599, .c, 0x2D0, 1, 0x10, 1, 0x0, 1, 0x0, false,
    [⟨"PARTNER", 47, 0, .ro, 0⟩]⟩,
  ⟨"PMU_NOTIFY", 600, .c, 0x2D0, 1, 0x18, 1, 0x0, 1, 0x0, false,
    [⟨"EN", 63, 63, .rw, 0⟩, ⟨"HART", 23, 18, .rw, 0⟩, ⟨"FILE", 16, 16, .rw, 0⟩, ⟨"EIID", 7, 0, .rw, 0⟩]⟩,
  ⟨"PMU_SAMPLE", 601, .c, 0x2D0, 1, 0x20, 1, 0x0, 1, 0x0, false,
    [⟨"EN", 63, 63, .rw, 0⟩, ⟨"HART", 52, 48, .rw, 0⟩, ⟨"JITTER", 47, 32, .rw, 0⟩, ⟨"PERIOD", 31, 0, .rw, 65536⟩]⟩,
  ⟨"PMU_SEED", 601, .c, 0x2D0, 1, 0x28, 1, 0x0, 1, 0x0, false,
    [⟨"SEED", 31, 0, .rw, 1⟩]⟩,
  ⟨"PMU_SB_CTRL", 602, .c, 0x2D0, 1, 0x30, 1, 0x0, 1, 0x0, false,
    [⟨"STOP_WHEN_FULL", 63, 63, .rw, 0⟩, ⟨"STOPPED", 62, 62, .ro, 0⟩, ⟨"CLEAR", 61, 61, .w1s, 0⟩, ⟨"LOST_CNT", 31, 16, .rc, 0⟩, ⟨"HEAD", 8, 0, .ro, 0⟩]⟩,
  ⟨"PMU_COREOVF", 598, .c, 0x2D0, 1, 0x38, 1, 0x0, 1, 0x0, false,
    [⟨"COVF", 63, 0, .w1c, 0⟩]⟩,
  ⟨"PMU_DSEL", 603, .c, 0x2D0, 1, 0x100, 16, 0x8, 1, 0x0, false,
    [⟨"EN", 63, 63, .rw, 0⟩, ⟨"CHAIN", 62, 62, .rw, 0⟩, ⟨"OVF_IRQ", 61, 61, .rw, 0⟩, ⟨"THRESH_EN", 60, 60, .rw, 0⟩, ⟨"THRESH", 55, 40, .rw, 0⟩, ⟨"EVENT", 11, 0, .rw, 0⟩]⟩,
  ⟨"PMU_DCNT", 603, .c, 0x2D0, 1, 0x180, 16, 0x8, 1, 0x0, false,
    [⟨"COUNT", 47, 0, .rw, 0⟩]⟩,
  ⟨"PMU_CSEL", 603, .c, 0x2D0, 1, 0x200, 8, 0x8, 1, 0x0, false,
    [⟨"EN", 63, 63, .rw, 0⟩, ⟨"CHAIN", 62, 62, .rw, 0⟩, ⟨"OVF_IRQ", 61, 61, .rw, 0⟩, ⟨"THRESH_EN", 60, 60, .rw, 0⟩, ⟨"THRESH", 55, 40, .rw, 0⟩, ⟨"EVENT", 11, 0, .rw, 0⟩]⟩,
  ⟨"PMU_CCNT", 603, .c, 0x2D0, 1, 0x1000, 64, 0x40, 8, 0x8, false,
    [⟨"COUNT", 47, 0, .rw, 0⟩]⟩,
  ⟨"PMU_SB", 597, .c, 0x2D0, 1, 0x4000, 2048, 0x8, 1, 0x0, false,
    [⟨"WORD", 63, 0, .ro, 0⟩]⟩]

/-- Registers by block (R221, R222). -/
def tabHL : List RegDesc := [
  ⟨"HL_CTRL", 340, .q, 0x0, 32, 0x0, 1, 0x0, 1, 0x0, false,
    [⟨"MSI_DROP", 63, 48, .rc, 0⟩, ⟨"OFFLINE", 8, 8, .w1s, 0⟩, ⟨"CAUSE", 7, 4, .ro, 0⟩, ⟨"STATE", 1, 0, .ro, 0⟩]⟩,
  ⟨"HL_NOTIFY", 341, .q, 0x0, 32, 0x8, 1, 0x0, 1, 0x0, false,
    [⟨"EN", 63, 63, .rw, 0⟩, ⟨"HART", 23, 18, .rw, 0⟩, ⟨"FILE", 16, 16, .rw, 0⟩, ⟨"EIID", 7, 0, .rw, 0⟩]⟩,
  ⟨"HL_MTIMECMP", 342, .q, 0x0, 32, 0x10, 1, 0x0, 1, 0x0, false,
    [⟨"MTIMECMP", 63, 0, .rw, 18446744073709551615⟩]⟩,
  ⟨"HL_REMOTE_ERR", 326, .q, 0x0, 32, 0x40, 1, 0x0, 1, 0x0, false,
    [⟨"VALID", 63, 63, .w1c, 0⟩, ⟨"KIND", 62, 60, .ro, 0⟩, ⟨"PKG", 59, 48, .ro, 0⟩, ⟨"LINE", 43, 6, .ro, 0⟩]⟩]

/-- Registers by block (R221, R222). -/
def tabSLC : List RegDesc := [
  ⟨"SLC_CTRL", 296, .q, 0x40, 1, 0x0, 1, 0x0, 1, 0x0, false,
    [⟨"DIRTY_AT_DISABLE", 1, 1, .w1c, 0⟩, ⟨"ENABLE", 0, 0, .rw, 0⟩]⟩,
  ⟨"SLC_STATUS", 297, .q, 0x40, 1, 0x8, 1, 0x0, 1, 0x0, false,
    [⟨"DIRTY_CNT", 39, 16, .ro, 0⟩, ⟨"MERGE_USED", 15, 10, .ro, 0⟩, ⟨"SIDE_USED", 9, 0, .ro, 0⟩]⟩,
  ⟨"SLC_RNG_BASE", 298, .q, 0x40, 1, 0x10, 1, 0x0, 1, 0x0, false,
    [⟨"BASE", 43, 6, .rw, 0⟩]⟩,
  ⟨"SLC_RNG_LEN", 298, .q, 0x40, 1, 0x18, 1, 0x0, 1, 0x0, false,
    [⟨"LEN", 44, 6, .rw, 0⟩]⟩,
  ⟨"SLC_RNG_OP", 299, .q, 0x40, 1, 0x20, 1, 0x0, 1, 0x0, false,
    [⟨"BUSY", 63, 63, .ro, 0⟩, ⟨"REJECT", 62, 62, .w1c, 0⟩, ⟨"SKIP_LOCKED", 3, 3, .rw, 0⟩, ⟨"OP", 1, 0, .rw, 0⟩]⟩,
  ⟨"SLC_RNG_STATUS", 300, .q, 0x40, 1, 0x28, 1, 0x0, 1, 0x0, false,
    [⟨"LOCKED_CNT", 63, 40, .ro, 0⟩, ⟨"WB_CNT", 39, 16, .ro, 0⟩]⟩,
  ⟨"SLC_CLASS_MAP", 301, .q, 0x40, 1, 0x40, 8, 0x8, 1, 0x0, false,
    [⟨"CLASS", 63, 0, .rw, 0⟩]⟩,
  ⟨"SLC_WAYMASK", 302, .q, 0x40, 1, 0x80, 16, 0x8, 1, 0x0, false,
    [⟨"LOCKED", 31, 16, .rw, 0⟩, ⟨"ALLOC", 15, 0, .rw, 65535⟩]⟩,
  ⟨"SLC_PF_CTRL", 303, .q, 0x40, 1, 0x100, 1, 0x0, 1, 0x0, false,
    [⟨"DIST", 13, 8, .rw, 8⟩, ⟨"ZICBOP_EN", 1, 1, .rw, 1⟩, ⟨"STRIDE_EN", 0, 0, .rw, 1⟩]⟩,
  ⟨"SLC_MERGE_CTRL", 304, .q, 0x40, 1, 0x108, 1, 0x0, 1, 0x0, false,
    [⟨"TIMEOUT", 15, 0, .rw, 4096⟩]⟩]

/-- Registers by block (R221, R222). -/
def tabSHF : List RegDesc := [
  ⟨"SHF_CH_CNT", 358, .q, 0x50, 16, 0x0, 2, 0x40, 1, 0x0, false,
    [⟨"CORR_CNT", 63, 32, .rc, 0⟩, ⟨"UNCORR_CNT", 31, 16, .rc, 0⟩, ⟨"POISON_CNT", 15, 0, .rc, 0⟩]⟩,
  ⟨"SHF_CH_STATUS", 359, .q, 0x50, 16, 0x8, 2, 0x40, 1, 0x0, false,
    [⟨"ERASED", 63, 63, .ro, 0⟩, ⟨"PIN", 11, 8, .ro, 0⟩, ⟨"STATE", 1, 0, .ro, 0⟩]⟩,
  ⟨"SHF_CH_ERR", 360, .q, 0x50, 16, 0x10, 2, 0x40, 1, 0x0, false,
    [⟨"VALID", 63, 63, .w1c, 0⟩, ⟨"POISONED", 62, 62, .ro, 0⟩, ⟨"LINE", 33, 6, .ro, 0⟩]⟩]

/-- Registers by block (R221, R222). -/
def tabSHFD : List RegDesc := [
  ⟨"SHF_SPLIT", 361, .q, 0x50, 1, 0x100, 1, 0x0, 1, 0x0, true,
    [⟨"LOCK", 63, 63, .w1s, 0⟩, ⟨"INIT", 62, 62, .w1s, 0⟩, ⟨"DIRECT", 4, 0, .rw, 0⟩]⟩,
  ⟨"SHF_DIR_CNT", 362, .q, 0x50, 1, 0x140, 4, 0x8, 1, 0x0, false,
    [⟨"LOOKUP_CNT", 63, 32, .rc, 0⟩, ⟨"EVICT_CNT", 31, 16, .rc, 0⟩]⟩]

/-- Registers by block (R221, R222). -/
def tabTDL : List RegDesc := [
  ⟨"TDL_CFG", 363, .q, 0x60, 1, 0x0, 1, 0x0, 1, 0x0, true,
    [⟨"LOCK", 63, 63, .w1s, 0⟩, ⟨"CFG_ERR", 62, 62, .w1c, 0⟩, ⟨"RESERVE", 6, 0, .rw, 0⟩]⟩,
  ⟨"TDL_CMD", 364, .q, 0x60, 1, 0x8, 1, 0x0, 1, 0x0, true,
    [⟨"BUSY", 63, 63, .ro, 0⟩, ⟨"RESULT", 62, 60, .ro, 0⟩, ⟨"ACCOUNT", 57, 52, .rw, 0⟩, ⟨"PAGE", 39, 20, .rw, 0⟩, ⟨"OP", 2, 0, .rw, 0⟩]⟩,
  ⟨"TDL_QUERY", 365, .q, 0x60, 1, 0x10, 1, 0x0, 1, 0x0, true,
    [⟨"ALLOCATED", 63, 63, .ro, 0⟩, ⟨"IN_STACK", 62, 62, .ro, 0⟩, ⟨"MIGRATING", 61, 61, .ro, 0⟩, ⟨"AGE", 55, 48, .ro, 0⟩, ⟨"ACCOUNT", 45, 40, .ro, 0⟩, ⟨"SLOT", 18, 0, .ro, 0⟩]⟩,
  ⟨"TDL_STATUS", 366, .q, 0x60, 1, 0x18, 1, 0x0, 1, 0x0, true,
    [⟨"ALLOCATED", 63, 44, .ro, 0⟩, ⟨"RESERVE_USED", 43, 26, .ro, 0⟩, ⟨"EPOCH", 25, 18, .ro, 0⟩]⟩,
  ⟨"TDL_CNT", 366, .q, 0x60, 1, 0x20, 1, 0x0, 1, 0x0, true,
    [⟨"FLOOD_CNT", 63, 40, .rc, 0⟩, ⟨"EBB_CNT", 39, 16, .rc, 0⟩, ⟨"FAIL_CNT", 15, 0, .rc, 0⟩]⟩,
  ⟨"TDL_ACCT", 367, .q, 0x60, 1, 0x100, 64, 0x8, 1, 0x0, true,
    [⟨"USED", 63, 44, .ro, 0⟩, ⟨"LIMIT", 19, 0, .rw, 0⟩]⟩]

/-- Registers by block (R221, R222). -/
def tabBWF : List RegDesc := [
  ⟨"BWF_STATUS", 394, .q, 0x100, 16, 0x0, 1, 0x0, 1, 0x0, false,
    [⟨"FAILED", 63, 56, .ro, 0⟩, ⟨"LOCKED", 55, 48, .ro, 0⟩, ⟨"WIDTH", 9, 8, .ro, 0⟩, ⟨"STATE", 2, 0, .ro, 0⟩]⟩,
  ⟨"BWF_CTRL", 395, .q, 0x100, 16, 0x8, 1, 0x0, 1, 0x0, false,
    [⟨"LANE_OFF", 15, 8, .rw, 0⟩, ⟨"RETRAIN", 1, 1, .w1s, 0⟩, ⟨"EN", 0, 0, .rw, 0⟩]⟩,
  ⟨"BWF_NBR", 396, .q, 0x100, 16, 0x10, 1, 0x0, 1, 0x0, false,
    [⟨"VALID", 63, 63, .ro, 0⟩, ⟨"PEER_IDV", 62, 62, .ro, 0⟩, ⟨"PEER_PORT", 52, 48, .ro, 0⟩, ⟨"PEER_SERIAL", 47, 0, .ro, 0⟩]⟩,
  ⟨"BWF_NBR2", 396, .q, 0x100, 16, 0x18, 1, 0x0, 1, 0x0, false,
    [⟨"PEER_LEVEL", 39, 32, .ro, 0⟩, ⟨"PEER_LOC", 27, 16, .ro, 0⟩, ⟨"PEER_ID", 11, 0, .ro, 0⟩]⟩,
  ⟨"BWF_CNT", 397, .q, 0x100, 16, 0x20, 1, 0x0, 1, 0x0, false,
    [⟨"REPLAY_CNT", 63, 40, .rc, 0⟩, ⟨"VIOL_CNT", 39, 24, .rc, 0⟩, ⟨"LINKRESET_CNT", 23, 16, .rc, 0⟩, ⟨"LANEFAIL_CNT", 15, 8, .rc, 0⟩, ⟨"DOWN_CNT", 7, 0, .rc, 0⟩]⟩,
  ⟨"BWF_ERR", 398, .q, 0x100, 16, 0x30, 1, 0x0, 1, 0x0, false,
    [⟨"VALID", 63, 63, .w1c, 0⟩, ⟨"CODE", 59, 56, .ro, 0⟩, ⟨"TYPE", 55, 50, .ro, 0⟩, ⟨"CHANNEL", 49, 45, .ro, 0⟩]⟩]

/-- Registers by block (R221, R222). -/
def tabBWFG : List RegDesc := [
  ⟨"BWF_MGR", 399, .q, 0x100, 1, 0x100, 1, 0x0, 1, 0x0, true,
    [⟨"OPEN", 63, 63, .rw, 0⟩, ⟨"MGR_SERIAL", 47, 0, .rw, 0⟩]⟩,
  ⟨"BWF_ASSIGN", 400, .q, 0x100, 1, 0x108, 1, 0x0, 1, 0x0, true,
    [⟨"VALID", 63, 63, .rw, 0⟩, ⟨"ID", 11, 0, .rw, 0⟩]⟩,
  ⟨"BWF_REPORT", 401, .q, 0x100, 1, 0x110, 1, 0x0, 1, 0x0, true,
    [⟨"EN", 63, 63, .rw, 0⟩, ⟨"ROOT", 62, 62, .rw, 0⟩, ⟨"DEPTH", 11, 8, .rw, 0⟩, ⟨"PARENT_PORT", 4, 0, .rw, 0⟩]⟩,
  ⟨"BWF_DR_PATH", 403, .q, 0x100, 1, 0x128, 1, 0x0, 1, 0x0, false,
    [⟨"PLEN", 63, 60, .rw, 0⟩, ⟨"PATH", 39, 0, .rw, 0⟩]⟩,
  ⟨"BWF_DR_ADDR", 403, .q, 0x100, 1, 0x130, 1, 0x0, 1, 0x0, false,
    [⟨"ADDR", 43, 0, .rw, 0⟩]⟩,
  ⟨"BWF_DR_DATA", 403, .q, 0x100, 1, 0x138, 1, 0x0, 1, 0x0, false,
    [⟨"DATA", 63, 0, .rw, 0⟩]⟩,
  ⟨"BWF_DR_CTRL", 403, .q, 0x100, 1, 0x140, 1, 0x0, 1, 0x0, false,
    [⟨"BUSY", 63, 63, .ro, 0⟩, ⟨"RESULT", 62, 60, .ro, 0⟩, ⟨"WRITE", 1, 1, .rw, 0⟩, ⟨"GO", 0, 0, .w1s, 0⟩]⟩,
  ⟨"BWF_REQ_CNT", 404, .q, 0x100, 1, 0x148, 1, 0x0, 1, 0x0, false,
    [⟨"TIMEOUT_CNT", 63, 40, .rc, 0⟩, ⟨"NAK_CNT", 39, 24, .rc, 0⟩, ⟨"LATE_CNT", 23, 16, .rc, 0⟩, ⟨"DROP_CNT", 15, 8, .rc, 0⟩, ⟨"EVT_DROP", 7, 0, .rc, 0⟩]⟩]

/-- Registers by block (R221, R222). -/
def tabBWFRT : List RegDesc := [
  ⟨"BWF_RT", 382, .q, 0x120, 1, 0x0, 4096, 0x8, 1, 0x0, true,
    [⟨"VALID", 63, 63, .rw, 0⟩, ⟨"DIST", 35, 32, .rw, 0⟩, ⟨"COUNT", 31, 30, .rw, 0⟩, ⟨"PORT3", 24, 20, .rw, 0⟩, ⟨"PORT2", 19, 15, .rw, 0⟩, ⟨"PORT1", 14, 10, .rw, 0⟩, ⟨"PORT0", 9, 5, .rw, 0⟩]⟩]

/-- Registers by block (R221, R222). -/
def tabCOL : List RegDesc := [
  ⟨"COL_CTRL", 430, .q, 0x130, 1, 0x0, 1, 0x0, 1, 0x0, true,
    [⟨"SCHED", 63, 63, .rw, 0⟩, ⟨"SHARE", 59, 56, .rw, 0⟩, ⟨"LEAD", 55, 40, .rw, 64⟩, ⟨"FLOOR_MS", 39, 24, .rw, 100⟩, ⟨"TIMEOUT_MS", 23, 0, .rw, 1000⟩]⟩,
  ⟨"COL_CNT", 431, .q, 0x130, 1, 0x8, 1, 0x0, 1, 0x0, false,
    [⟨"DONE_CNT", 63, 32, .rc, 0⟩, ⟨"FAIL_CNT", 31, 24, .rc, 0⟩, ⟨"LATE_CNT", 23, 16, .rc, 0⟩, ⟨"FLOOR_CNT", 15, 0, .rc, 0⟩]⟩,
  ⟨"COL_ERR", 432, .q, 0x130, 1, 0x10, 1, 0x0, 1, 0x0, false,
    [⟨"VALID", 63, 63, .w1c, 0⟩, ⟨"CODE", 62, 60, .ro, 0⟩, ⟨"GROUP", 59, 54, .ro, 0⟩, ⟨"SEQ", 31, 0, .ro, 0⟩]⟩,
  ⟨"COL_GRP_TABLE", 433, .q, 0x130, 1, 0x100, 64, 0x10, 1, 0x0, false,
    [⟨"ADDR", 43, 1, .rw, 0⟩]⟩,
  ⟨"COL_GRP_CFG", 433, .q, 0x130, 1, 0x108, 64, 0x10, 1, 0x0, false,
    [⟨"VALID", 63, 63, .rw, 0⟩, ⟨"CRC", 47, 16, .ro, 0⟩, ⟨"RANKS", 15, 0, .rw, 0⟩]⟩]

/-- Registers by block (R221, R222). -/
def tabTMK : List RegDesc := [
  ⟨"TMK_TIME", 426, .q, 0x140, 1, 0x0, 1, 0x0, 1, 0x0, false,
    [⟨"TIME", 63, 0, .ro, 0⟩]⟩,
  ⟨"TMK_CTRL", 427, .q, 0x140, 1, 0x8, 1, 0x0, 1, 0x0, true,
    [⟨"MASTER", 63, 63, .rw, 0⟩, ⟨"PARENT_VALID", 15, 15, .rw, 0⟩, ⟨"PARENT_PORT", 12, 8, .rw, 0⟩, ⟨"TICK_SHIFT", 4, 0, .rw, 10⟩]⟩,
  ⟨"TMK_STATUS", 428, .q, 0x140, 1, 0x10, 1, 0x0, 1, 0x0, false,
    [⟨"OFFSET", 63, 32, .ro, 0⟩, ⟨"DELAY", 31, 16, .ro, 0⟩, ⟨"SOURCE", 4, 4, .ro, 0⟩, ⟨"HOLDOVER", 3, 3, .ro, 0⟩, ⟨"AHEAD", 2, 2, .ro, 0⟩, ⟨"LOCKED", 1, 1, .ro, 0⟩, ⟨"ACQUIRED", 0, 0, .ro, 0⟩]⟩,
  ⟨"TMK_SET", 429, .q, 0x140, 1, 0x18, 1, 0x0, 1, 0x0, false,
    [⟨"TIME", 63, 0, .wo, 0⟩]⟩]

/-- Registers by block (R221, R222). -/
def tabHPU : List RegDesc := [
  ⟨"HPU_STATUS", 454, .q, 0x150, 1, 0x0, 1, 0x0, 1, 0x0, false,
    [⟨"WIDTH", 21, 20, .ro, 0⟩, ⟨"SPEED", 19, 18, .ro, 0⟩, ⟨"IN_SERVICE", 8, 8, .ro, 0⟩, ⟨"RESETTING", 7, 7, .ro, 0⟩, ⟨"BME", 6, 6, .ro, 0⟩, ⟨"MEM_EN", 5, 5, .ro, 0⟩, ⟨"CACHE_EN", 4, 4, .ro, 0⟩, ⟨"LINK", 1, 0, .ro, 0⟩]⟩,
  ⟨"HPU_LOSS", 455, .q, 0x150, 1, 0x8, 1, 0x0, 1, 0x0, false,
    [⟨"LOSS_CNT", 63, 48, .rc, 0⟩, ⟨"RETRAIN_CNT", 47, 32, .rc, 0⟩, ⟨"UNCERTAIN", 31, 16, .ro, 0⟩, ⟨"DISCARD", 1, 1, .w1s, 0⟩, ⟨"PENDING", 0, 0, .ro, 0⟩]⟩,
  ⟨"HPU_CNT", 456, .q, 0x150, 1, 0x10, 1, 0x0, 1, 0x0, false,
    [⟨"VIOL_CNT", 63, 40, .rc, 0⟩, ⟨"LINKRESET_CNT", 39, 32, .rc, 0⟩, ⟨"HOST_DIRTY_LOST", 31, 16, .rc, 0⟩, ⟨"BI_DROP_CNT", 15, 0, .rc, 0⟩]⟩,
  ⟨"HPU_ERR", 457, .q, 0x150, 1, 0x18, 1, 0x0, 1, 0x0, false,
    [⟨"VALID", 63, 63, .w1c, 0⟩, ⟨"CODE", 59, 56, .ro, 0⟩, ⟨"ADDR", 43, 0, .ro, 0⟩]⟩,
  ⟨"HPU_DIR_CNT", 458, .q, 0x150, 1, 0x20, 1, 0x0, 1, 0x0, false,
    [⟨"LOOKUP_CNT", 63, 32, .rc, 0⟩, ⟨"EVICT_CNT", 31, 16, .rc, 0⟩]⟩,
  ⟨"HPU_DPORT_ADDR", 459, .q, 0x150, 1, 0x100, 4, 0x10, 1, 0x0, false,
    [⟨"ADDR", 43, 2, .rw, 0⟩]⟩,
  ⟨"HPU_DPORT_STATUS", 459, .q, 0x150, 1, 0x108, 4, 0x10, 1, 0x0, false,
    [⟨"ERR", 63, 63, .w1c, 0⟩, ⟨"BYTES", 47, 0, .ro, 0⟩]⟩,
  ⟨"HPU_P2P_BASE", 460, .q, 0x150, 1, 0x200, 8, 0x10, 1, 0x0, false,
    [⟨"VALID", 63, 63, .rw, 0⟩, ⟨"BASE", 43, 12, .rw, 0⟩]⟩,
  ⟨"HPU_P2P_LIMIT", 460, .q, 0x150, 1, 0x208, 8, 0x10, 1, 0x0, false,
    [⟨"LIMIT", 43, 12, .rw, 0⟩]⟩]

/-- Registers by block (R221, R222). -/
def tabUCI : List RegDesc := [
  ⟨"UCI_STATUS", 461, .q, 0x160, 1, 0x0, 1, 0x0, 1, 0x0, false,
    [⟨"LEVEL", 55, 48, .ro, 0⟩, ⟨"MODULES", 39, 36, .ro, 0⟩, ⟨"RATE", 35, 34, .ro, 0⟩, ⟨"PROTO", 33, 33, .ro, 0⟩, ⟨"TEMP", 31, 24, .ro, 0⟩, ⟨"RESULT", 11, 8, .ro, 0⟩, ⟨"STATE", 2, 0, .ro, 0⟩]⟩,
  ⟨"UCI_CTRL", 462, .q, 0x160, 1, 0x8, 1, 0x0, 1, 0x0, false,
    [⟨"MEASURE", 1, 1, .lh, 0⟩, ⟨"ADMIT", 0, 0, .lh, 0⟩]⟩,
  ⟨"UCI_CNT", 463, .q, 0x160, 1, 0x10, 1, 0x0, 1, 0x0, false,
    [⟨"VIOL_CNT", 63, 40, .rc, 0⟩, ⟨"LINKRESET_CNT", 39, 32, .rc, 0⟩, ⟨"THERM_CNT", 31, 16, .rc, 0⟩]⟩,
  ⟨"UCI_ERR", 457, .q, 0x160, 1, 0x18, 1, 0x0, 1, 0x0, false,
    [⟨"VALID", 63, 63, .w1c, 0⟩, ⟨"CODE", 59, 56, .ro, 0⟩, ⟨"ADDR", 43, 0, .ro, 0⟩]⟩,
  ⟨"UCI_DESC", 464, .q, 0x160, 1, 0x100, 32, 0x8, 1, 0x0, false,
    [⟨"DESC", 63, 0, .ro, 0⟩]⟩]

/-- Registers by block (R221, R222). -/
def tabHQ : List RegDesc := [
  ⟨"HQ_DB", 483, .q, 0x170, 1, 0x0, 2048, 0x8, 1, 0x0, false,
    [⟨"TAIL", 63, 0, .wo, 0⟩]⟩,
  ⟨"HQ_CTRL", 484, .q, 0x170, 1, 0x4000, 1, 0x0, 1, 0x0, false,
    [⟨"ENABLE", 63, 63, .rw, 0⟩, ⟨"RERUN_LIMIT", 3, 0, .rw, 3⟩]⟩,
  ⟨"HQ_CTX", 485, .q, 0x170, 1, 0x4008, 1, 0x0, 1, 0x0, false,
    [⟨"BASE", 43, 17, .rw, 0⟩]⟩,
  ⟨"HQ_JRNL", 486, .q, 0x170, 1, 0x4010, 1, 0x0, 1, 0x0, false,
    [⟨"VALID", 63, 63, .rw, 0⟩, ⟨"BASE", 43, 21, .rw, 0⟩, ⟨"RECORDS", 15, 0, .rw, 0⟩]⟩,
  ⟨"HQ_JMIR", 486, .q, 0x170, 1, 0x4018, 1, 0x0, 1, 0x0, false,
    [⟨"VALID", 63, 63, .rw, 0⟩, ⟨"BASE", 43, 21, .rw, 0⟩, ⟨"RECORDS", 15, 0, .rw, 0⟩]⟩,
  ⟨"HQ_PARTNER", 487, .q, 0x170, 1, 0x4020, 1, 0x0, 1, 0x0, false,
    [⟨"EN", 63, 63, .rw, 0⟩, ⟨"PKG", 11, 0, .rw, 0⟩]⟩,
  ⟨"HQ_PARTNER_RX", 487, .q, 0x170, 1, 0x4028, 1, 0x0, 1, 0x0, false,
    [⟨"VALID", 63, 63, .rw, 0⟩, ⟨"ORIGIN", 59, 48, .rw, 0⟩, ⟨"BASE", 43, 25, .rw, 0⟩]⟩,
  ⟨"HQ_QCMD", 488, .q, 0x170, 1, 0x4040, 1, 0x0, 1, 0x0, false,
    [⟨"BUSY", 63, 63, .ro, 0⟩, ⟨"RESULT", 62, 60, .ro, 0⟩, ⟨"OP", 12, 11, .rw, 0⟩, ⟨"QUEUE", 10, 0, .rw, 0⟩]⟩,
  ⟨"HQ_QSTAT", 489, .q, 0x170, 1, 0x4048, 1, 0x0, 1, 0x0, false,
    [⟨"STATE", 63, 62, .ro, 0⟩, ⟨"STOP", 61, 58, .ro, 0⟩, ⟨"ACCEPTED", 47, 0, .ro, 0⟩]⟩,
  ⟨"HQ_STATUS", 490, .q, 0x170, 1, 0x4050, 1, 0x0, 1, 0x0, false,
    [⟨"DEGRADED", 63, 63, .ro, 0⟩, ⟨"PARTNER_DOWN", 62, 62, .ro, 0⟩, ⟨"TAKEOVER", 61, 61, .ro, 0⟩, ⟨"FREE", 15, 0, .ro, 0⟩]⟩,
  ⟨"HQ_CNT", 491, .q, 0x170, 1, 0x4058, 1, 0x0, 1, 0x0, false,
    [⟨"ACCEPT_CNT", 63, 32, .rc, 0⟩, ⟨"RERUN_CNT", 31, 16, .rc, 0⟩, ⟨"FAIL_CNT", 15, 8, .rc, 0⟩, ⟨"JRNL_FULL_CNT", 7, 0, .rc, 0⟩]⟩,
  ⟨"HQ_ERR", 492, .q, 0x170, 1, 0x4060, 1, 0x0, 1, 0x0, false,
    [⟨"VALID", 63, 63, .w1c, 0⟩, ⟨"CODE", 62, 60, .ro, 0⟩, ⟨"QUEUE", 11, 0, .ro, 0⟩]⟩,
  ⟨"HQ_PEER_CFG", 537, .q, 0x170, 1, 0x4080, 5, 0x8, 1, 0x0, false,
    [⟨"WORD", 63, 0, .ro, 0⟩]⟩,
  ⟨"HQ_DB_PEER", 483, .q, 0x170, 1, 0x8000, 2048, 0x8, 1, 0x0, false,
    [⟨"TAIL", 63, 0, .wo, 0⟩]⟩]

/-- Registers by block (R221, R222). -/
def tabPKG : List RegDesc := [
  ⟨"PKG_ID", 24, .q, 0x180, 1, 0x0, 1, 0x0, 1, 0x0, true,
    [⟨"ID_VALID", 31, 31, .rw, 0⟩, ⟨"LOC_ID", 27, 16, .ro, 0⟩, ⟨"ID", 11, 0, .rw, 0⟩]⟩,
  ⟨"PKG_CFGCODE", 3, .q, 0x180, 1, 0x8, 1, 0x0, 1, 0x0, true,
    [⟨"CS1_STATE", 15, 12, .lh, 0⟩, ⟨"CS0_STATE", 11, 8, .lh, 0⟩, ⟨"FUSED", 7, 7, .lh, 0⟩]⟩,
  ⟨"PKG_REVLEVEL", 26, .q, 0x180, 1, 0x10, 1, 0x0, 1, 0x0, true,
    [⟨"CS1", 63, 56, .lh, 0⟩, ⟨"CS0", 55, 48, .lh, 0⟩, ⟨"Q1", 47, 40, .ro, 0⟩, ⟨"Q0", 39, 32, .ro, 0⟩, ⟨"C3", 31, 24, .ro, 0⟩, ⟨"C2", 23, 16, .ro, 0⟩, ⟨"C1", 15, 8, .ro, 0⟩, ⟨"C0", 7, 0, .ro, 0⟩]⟩,
  ⟨"PKG_SERIAL", 25, .q, 0x180, 1, 0x18, 1, 0x0, 1, 0x0, true,
    [⟨"SERIAL", 47, 0, .ro, 0⟩]⟩,
  ⟨"PKG_FEATLEVEL", 27, .q, 0x180, 1, 0x20, 1, 0x0, 1, 0x0, true,
    [⟨"MISMATCH", 8, 8, .ro, 0⟩, ⟨"EFFECTIVE", 7, 0, .ro, 0⟩]⟩,
  ⟨"PKG_ERRATA", 267, .q, 0x180, 1, 0x28, 1, 0x0, 1, 0x0, true,
    [⟨"APPLIED", 63, 0, .ro, 0⟩]⟩,
  ⟨"PKG_DIE_RESET", 268, .q, 0x180, 1, 0x30, 1, 0x0, 1, 0x0, true,
    [⟨"STOPPED", 11, 8, .ro, 0⟩, ⟨"RESET", 3, 0, .w1s, 0⟩]⟩,
  ⟨"PKG_DIRGEN", 305, .q, 0x180, 1, 0x38, 1, 0x0, 1, 0x0, true,
    [⟨"GEN", 63, 0, .rw, 0⟩]⟩,
  ⟨"PKG_FAB_TIMEOUT", 325, .q, 0x180, 1, 0x40, 1, 0x0, 1, 0x0, true,
    [⟨"TIMEOUT_US", 16, 0, .rw, 1000⟩]⟩,
  ⟨"PKG_CAP", 520, .q, 0x180, 1, 0x80, 1, 0x0, 1, 0x0, true,
    [⟨"TRAY_POINT", 51, 48, .rw, 0⟩, ⟨"TRAY_CAP_W", 47, 32, .rw, 600⟩, ⟨"FAST_W", 31, 16, .rw, 1760⟩, ⟨"CAP_W", 15, 0, .rw, 1600⟩]⟩,
  ⟨"PKG_CAPSTAT", 521, .q, 0x180, 1, 0x88, 1, 0x0, 1, 0x0, true,
    [⟨"OVER_CAP", 63, 63, .ro, 0⟩, ⟨"TRAY_LIMIT", 62, 62, .ro, 0⟩, ⟨"FLOOR", 61, 61, .ro, 0⟩, ⟨"LEVEL", 53, 48, .ro, 0⟩, ⟨"SLOW_AVG", 47, 32, .ro, 0⟩, ⟨"FAST_AVG", 31, 16, .ro, 0⟩, ⟨"PERIOD_W", 15, 0, .ro, 0⟩]⟩,
  ⟨"PKG_ENERGY", 522, .q, 0x180, 1, 0x90, 1, 0x0, 1, 0x0, true,
    [⟨"ENERGY_UJ", 63, 0, .ro, 0⟩]⟩,
  ⟨"PKG_TMETER", 522, .q, 0x180, 1, 0xC0, 8, 0x8, 1, 0x0, true,
    [⟨"ENERGY_UJ", 63, 0, .lh, 0⟩]⟩,
  ⟨"PKG_TCOEF", 522, .q, 0x180, 1, 0x100, 8, 0x8, 1, 0x0, true,
    [⟨"COEFF", 31, 0, .lh, 0⟩]⟩,
  ⟨"PKG_RAT_CTRL", 230, .q, 0x180, 1, 0x3F0, 1, 0x0, 1, 0x0, true,
    [⟨"BUSY", 63, 63, .ro, 0⟩, ⟨"COMMIT", 0, 0, .w1s, 0⟩]⟩,
  ⟨"PKG_RAT_BASE", 231, .q, 0x180, 1, 0x400, 32, 0x10, 1, 0x0, true,
    [⟨"VALID", 63, 63, .rw, 0⟩, ⟨"BASE", 43, 21, .rw, 0⟩]⟩,
  ⟨"PKG_RAT_LIMIT", 231, .q, 0x180, 1, 0x408, 32, 0x10, 1, 0x0, true,
    [⟨"LIMIT", 43, 21, .rw, 0⟩, ⟨"COHERENT", 2, 2, .rw, 0⟩, ⟨"POLICY", 1, 0, .rw, 0⟩]⟩]

/-- Registers by block (R221, R222). -/
def tabEVT : List RegDesc := [
  ⟨"EVT_QPOINT", 515, .q, 0x190, 1, 0x100, 1, 0x0, 1, 0x0, false,
    [⟨"BUSY", 63, 63, .ro, 0⟩, ⟨"DEFERRED", 62, 62, .ro, 0⟩, ⟨"CAP", 27, 27, .ro, 0⟩, ⟨"THERM", 26, 26, .ro, 0⟩, ⟨"NEIGHBOUR", 25, 25, .ro, 0⟩, ⟨"TIMING", 24, 24, .ro, 0⟩, ⟨"CEIL", 19, 16, .ro, 15⟩, ⟨"CUR", 11, 8, .ro, 0⟩, ⟨"REQ", 3, 0, .rw, 0⟩]⟩,
  ⟨"EVT_QENERGY", 516, .q, 0x190, 1, 0x108, 1, 0x0, 1, 0x0, false,
    [⟨"ENERGY_UJ", 63, 0, .ro, 0⟩]⟩,
  ⟨"EVT_QTHERM", 517, .q, 0x190, 1, 0x110, 1, 0x0, 1, 0x0, false,
    [⟨"TJ_THROT", 55, 48, .rw, 100⟩, ⟨"TJ_MAX", 23, 16, .ro, 0⟩]⟩,
  ⟨"EVT_QDROOP", 518, .q, 0x190, 1, 0x118, 1, 0x0, 1, 0x0, false,
    [⟨"ACTIVE", 63, 63, .ro, 0⟩, ⟨"DROOP_CNT", 31, 0, .rc, 0⟩]⟩,
  ⟨"EVT_QVF", 519, .q, 0x190, 1, 0x180, 16, 0x8, 1, 0x0, false,
    [⟨"FREQ", 47, 32, .ro, 0⟩, ⟨"VOLT", 31, 16, .lh, 0⟩, ⟨"VMIN", 15, 0, .ro, 0⟩]⟩]

/-- Registers by block (R221, R222). -/
def tabLHT : List RegDesc := [
  ⟨"LHT_CMD", 569, .q, 0x1B0, 1, 0x0, 1, 0x0, 1, 0x0, false,
    [⟨"BUSY", 63, 63, .ro, 0⟩, ⟨"RESULT", 55, 48, .ro, 0⟩, ⟨"ARG", 39, 8, .rw, 0⟩, ⟨"OP", 7, 0, .rw, 0⟩]⟩,
  ⟨"LHT_PROGRESS", 570, .q, 0x1B0, 1, 0x8, 1, 0x0, 1, 0x0, false,
    [⟨"EVENT", 9, 8, .rw, 0⟩, ⟨"SLOT", 7, 0, .rw, 0⟩]⟩,
  ⟨"LHT_BOOT", 571, .q, 0x1B0, 1, 0x10, 1, 0x0, 1, 0x0, false,
    [⟨"LAST_SLOT", 63, 56, .ro, 0⟩, ⟨"READY", 7, 7, .ro, 0⟩, ⟨"HALTED", 6, 6, .ro, 0⟩, ⟨"DONE", 5, 5, .ro, 0⟩, ⟨"STACK_CONSERVATIVE", 3, 3, .ro, 0⟩, ⟨"JETTY_REDUCED", 2, 2, .ro, 0⟩, ⟨"IMAGE_ALT", 1, 1, .ro, 0⟩, ⟨"IMAGE", 0, 0, .ro, 0⟩]⟩,
  ⟨"LHT_STARTCNT", 572, .q, 0x1B0, 1, 0x18, 1, 0x0, 1, 0x0, false,
    [⟨"COUNT", 63, 0, .ro, 0⟩]⟩,
  ⟨"LHT_BUF", 572, .q, 0x1B0, 1, 0x800, 64, 0x8, 1, 0x0, false,
    [⟨"DATA", 63, 0, .rw, 0⟩]⟩]

/-- Registers by block (R221, R222). -/
def tabERRQ : List RegDesc := [
  ⟨"ERR_STATUS", 543, .q, 0x1C0, 1, 0x0, 1, 0x0, 1, 0x0, false,
    [⟨"USED", 63, 56, .ro, 0⟩, ⟨"OVERFLOW", 55, 55, .w1c, 0⟩, ⟨"PEER_LOST", 0, 0, .ro, 0⟩]⟩,
  ⟨"ERR_CTRL", 544, .q, 0x1C0, 1, 0x8, 1, 0x0, 1, 0x0, false,
    [⟨"IRQ_EN", 63, 63, .rw, 0⟩, ⟨"IRQ_SEV", 1, 0, .rw, 2⟩]⟩,
  ⟨"ERR_REC0", 545, .q, 0x1C0, 1, 0x10, 1, 0x0, 1, 0x0, false,
    [⟨"VALID", 63, 63, .rc, 0⟩, ⟨"SEV", 62, 61, .ro, 0⟩, ⟨"UNIT", 55, 48, .ro, 0⟩, ⟨"KIND", 47, 40, .ro, 0⟩, ⟨"INDEX", 31, 16, .ro, 0⟩, ⟨"COUNT", 15, 0, .ro, 0⟩]⟩,
  ⟨"ERR_REC1", 545, .q, 0x1C0, 1, 0x18, 1, 0x0, 1, 0x0, false,
    [⟨"DETAIL", 63, 0, .ro, 0⟩]⟩,
  ⟨"ERR_REC2", 545, .q, 0x1C0, 1, 0x20, 1, 0x0, 1, 0x0, false,
    [⟨"TIME", 63, 0, .ro, 0⟩]⟩,
  ⟨"ERR_CNT", 546, .q, 0x1C0, 1, 0x28, 1, 0x0, 1, 0x0, false,
    [⟨"SEV0_CNT", 63, 48, .rc, 0⟩, ⟨"SEV1_CNT", 47, 32, .rc, 0⟩, ⟨"SEV2_CNT", 31, 16, .rc, 0⟩, ⟨"SEV3_CNT", 15, 8, .rc, 0⟩, ⟨"DROP_CNT", 7, 0, .rc, 0⟩]⟩,
  ⟨"ERR_POLICY", 547, .q, 0x1C0, 1, 0x30, 1, 0x0, 1, 0x0, false,
    [⟨"DECAY_MIN", 31, 16, .rw, 15⟩, ⟨"LIMIT", 7, 0, .rw, 4⟩]⟩,
  ⟨"ERR_SCORE", 549, .q, 0x1C0, 1, 0x40, 4, 0x8, 1, 0x0, false,
    [⟨"SCORE", 63, 0, .ro, 0⟩]⟩,
  ⟨"ERR_SWEEP", 550, .q, 0x1C0, 1, 0x80, 1, 0x0, 1, 0x0, false,
    [⟨"POISONED_CNT", 63, 32, .rc, 0⟩, ⟨"REMOVED_CNT", 31, 0, .rc, 0⟩]⟩]

/-- Registers by block (R221, R222). -/
def tabIOM : List RegDesc := [
  ⟨"IOM_CAPABILITIES", 236, .q, 0x1D0, 1, 0x0, 1, 0x0, 1, 0x0, false,
    [⟨"CAP", 63, 0, .ro, 0xF861460610⟩]⟩,
  ⟨"IOM_FCTL", 236, .q, 0x1D0, 1, 0x8, 1, 0x0, 1, 0x0, false,
    [⟨"WSI", 1, 1, .rw, 0⟩]⟩,
  ⟨"IOM_DDTP", 236, .q, 0x1D0, 1, 0x10, 1, 0x0, 1, 0x0, false,
    [⟨"PPN", 53, 10, .rw, 0⟩, ⟨"BUSY", 4, 4, .ro, 0⟩, ⟨"MODE", 3, 0, .rw, 0⟩]⟩,
  ⟨"IOM_CQB", 236, .q, 0x1D0, 1, 0x18, 1, 0x0, 1, 0x0, false,
    [⟨"PPN", 53, 10, .rw, 0⟩, ⟨"LOG2SZ", 4, 0, .rw, 0⟩]⟩,
  ⟨"IOM_CQHT", 236, .q, 0x1D0, 1, 0x20, 1, 0x0, 1, 0x0, false,
    [⟨"TAIL", 63, 32, .rw, 0⟩, ⟨"HEAD", 31, 0, .ro, 0⟩]⟩,
  ⟨"IOM_FQB", 236, .q, 0x1D0, 1, 0x28, 1, 0x0, 1, 0x0, false,
    [⟨"PPN", 53, 10, .rw, 0⟩, ⟨"LOG2SZ", 4, 0, .rw, 0⟩]⟩,
  ⟨"IOM_FQHT", 236, .q, 0x1D0, 1, 0x30, 1, 0x0, 1, 0x0, false,
    [⟨"TAIL", 63, 32, .ro, 0⟩, ⟨"HEAD", 31, 0, .rw, 0⟩]⟩,
  ⟨"IOM_QCSR0", 236, .q, 0x1D0, 1, 0x48, 1, 0x0, 1, 0x0, false,
    [⟨"FQON", 48, 48, .ro, 0⟩, ⟨"FQOF", 41, 41, .w1c, 0⟩, ⟨"FQMF", 40, 40, .w1c, 0⟩, ⟨"FIE", 33, 33, .rw, 0⟩, ⟨"FQEN", 32, 32, .rw, 0⟩,
     ⟨"CQON", 16, 16, .ro, 0⟩, ⟨"FENCE_W_IP", 11, 11, .w1c, 0⟩, ⟨"CMD_ILL", 10, 10, .w1c, 0⟩, ⟨"CMD_TO", 9, 9, .w1c, 0⟩, ⟨"CQMF", 8, 8, .w1c, 0⟩,
     ⟨"CIE", 1, 1, .rw, 0⟩, ⟨"CQEN", 0, 0, .rw, 0⟩]⟩,
  ⟨"IOM_IPSR", 236, .q, 0x1D0, 1, 0x50, 1, 0x0, 1, 0x0, false,
    [⟨"IPSR", 35, 32, .w1c, 0⟩]⟩,
  ⟨"IOM_OVFINH", 236, .q, 0x1D0, 1, 0x58, 1, 0x0, 1, 0x0, false,
    [⟨"IOCOUNTINH", 63, 32, .rw, 0⟩, ⟨"IOCOUNTOVF", 31, 0, .ro, 0⟩]⟩,
  ⟨"IOM_HPMCYCLES", 236, .q, 0x1D0, 1, 0x60, 1, 0x0, 1, 0x0, false,
    [⟨"CYCLES", 63, 0, .rw, 0⟩]⟩,
  ⟨"IOM_HPMCTR", 236, .q, 0x1D0, 1, 0x68, 31, 0x8, 1, 0x0, false,
    [⟨"CTR", 63, 0, .rw, 0⟩]⟩,
  ⟨"IOM_HPMEVT", 236, .q, 0x1D0, 1, 0x160, 31, 0x8, 1, 0x0, false,
    [⟨"EVT", 63, 0, .rw, 0⟩]⟩,
  ⟨"IOM_ICVEC", 236, .q, 0x1D0, 1, 0x2F8, 1, 0x0, 1, 0x0, false,
    [⟨"VEC", 15, 0, .rw, 0⟩]⟩,
  ⟨"IOM_MSI_CFG", 236, .q, 0x1D0, 1, 0x300, 32, 0x8, 1, 0x0, false,
    [⟨"WORD", 63, 0, .rw, 0⟩]⟩]

/-- Registers by block (R221, R222). -/
def tabPMUQ : List RegDesc := [
  ⟨"PMU_CTRL", 598, .q, 0x1E0, 1, 0x0, 1, 0x0, 1, 0x0, false,
    [⟨"FREEZE_ON_OVF", 1, 1, .rw, 0⟩, ⟨"EN", 0, 0, .rw, 0⟩]⟩,
  ⟨"PMU_OVF", 598, .q, 0x1E0, 1, 0x8, 1, 0x0, 1, 0x0, false,
    [⟨"COVF", 23, 16, .w1c, 0⟩, ⟨"DOVF", 15, 0, .w1c, 0⟩]⟩,
  ⟨"PMU_LATCH", 599, .q, 0x1E0, 1, 0x10, 1, 0x0, 1, 0x0, false,
    [⟨"PARTNER", 47, 0, .ro, 0⟩]⟩,
  ⟨"PMU_NOTIFY", 600, .q, 0x1E0, 1, 0x18, 1, 0x0, 1, 0x0, false,
    [⟨"EN", 63, 63, .rw, 0⟩, ⟨"HART", 23, 18, .rw, 0⟩, ⟨"FILE", 16, 16, .rw, 0⟩, ⟨"EIID", 7, 0, .rw, 0⟩]⟩,
  ⟨"PMU_SAMPLE", 601, .q, 0x1E0, 1, 0x20, 1, 0x0, 1, 0x0, false,
    [⟨"EN", 63, 63, .rw, 0⟩, ⟨"HART", 52, 48, .rw, 0⟩, ⟨"JITTER", 47, 32, .rw, 0⟩, ⟨"PERIOD", 31, 0, .rw, 65536⟩]⟩,
  ⟨"PMU_SEED", 601, .q, 0x1E0, 1, 0x28, 1, 0x0, 1, 0x0, false,
    [⟨"SEED", 31, 0, .rw, 1⟩]⟩,
  ⟨"PMU_SB_CTRL", 602, .q, 0x1E0, 1, 0x30, 1, 0x0, 1, 0x0, false,
    [⟨"STOP_WHEN_FULL", 63, 63, .rw, 0⟩, ⟨"STOPPED", 62, 62, .ro, 0⟩, ⟨"CLEAR", 61, 61, .w1s, 0⟩, ⟨"LOST_CNT", 31, 16, .rc, 0⟩, ⟨"HEAD", 8, 0, .ro, 0⟩]⟩,
  ⟨"PMU_DSEL", 603, .q, 0x1E0, 1, 0x100, 16, 0x8, 1, 0x0, false,
    [⟨"EN", 63, 63, .rw, 0⟩, ⟨"CHAIN", 62, 62, .rw, 0⟩, ⟨"OVF_IRQ", 61, 61, .rw, 0⟩, ⟨"THRESH_EN", 60, 60, .rw, 0⟩, ⟨"THRESH", 55, 40, .rw, 0⟩, ⟨"EVENT", 11, 0, .rw, 0⟩]⟩,
  ⟨"PMU_DCNT", 603, .q, 0x1E0, 1, 0x180, 16, 0x8, 1, 0x0, false,
    [⟨"COUNT", 47, 0, .rw, 0⟩]⟩,
  ⟨"PMU_SB", 597, .q, 0x1E0, 1, 0x4000, 2048, 0x8, 1, 0x0, false,
    [⟨"WORD", 63, 0, .ro, 0⟩]⟩]

/-- Registers by block (R221, R222). -/
def tabSTL : List RegDesc := [
  ⟨"STL_STATUS", 583, .q0, 0x1A0, 1, 0x0, 1, 0x0, 1, 0x0, false,
    [⟨"COPY_BUSY", 63, 63, .ro, 0⟩, ⟨"COPY_PENDING", 62, 62, .ro, 0⟩, ⟨"LAST_SLOT", 61, 59, .ro, 0⟩, ⟨"SUPPRESSED_CNT", 47, 32, .rc, 0⟩, ⟨"LAST_SEQ", 31, 0, .ro, 0⟩]⟩,
  ⟨"STL_RING", 583, .q0, 0x1A0, 1, 0x8, 1, 0x0, 1, 0x0, false,
    [⟨"OLDEST_SEQ", 63, 32, .ro, 0⟩, ⟨"HEAD", 20, 3, .ro, 0⟩]⟩,
  ⟨"STL_CURSOR", 584, .q0, 0x1A0, 1, 0x10, 1, 0x0, 1, 0x0, false,
    [⟨"READY", 63, 63, .ro, 1⟩, ⟨"SOURCE", 58, 56, .rw, 0⟩, ⟨"PAGE", 23, 12, .rw, 0⟩]⟩,
  ⟨"STL_WINDOW", 584, .q0, 0x1A0, 1, 0x1000, 512, 0x8, 1, 0x0, false,
    [⟨"WORD", 63, 0, .ro, 0⟩]⟩,
  ⟨"STL_TRIG_CFG", 585, .q0, 0x1A0, 1, 0x2000, 64, 0x10, 1, 0x0, false,
    [⟨"EN", 63, 63, .rw, 0⟩, ⟨"MARK", 62, 62, .rw, 0⟩, ⟨"SRC", 55, 52, .rw, 0⟩, ⟨"SET", 51, 48, .rw, 0⟩, ⟨"SNAP", 47, 47, .rw, 0⟩, ⟨"HOLDOFF_MS", 31, 16, .rw, 0⟩, ⟨"MIN_SEV", 1, 0, .rw, 0⟩]⟩,
  ⟨"STL_TRIG_MATCH", 585, .q0, 0x1A0, 1, 0x2008, 64, 0x10, 1, 0x0, false,
    [⟨"MATCH_MASK", 63, 32, .rw, 0⟩, ⟨"MATCH_VALUE", 31, 0, .rw, 0⟩]⟩,
  ⟨"STL_SET_ENT", 586, .q0, 0x1A0, 1, 0x3000, 16, 0x100, 32, 0x8, false,
    [⟨"EN", 63, 63, .rw, 0⟩, ⟨"ADDR", 43, 3, .rw, 0⟩]⟩]

/-- Registers by block (R221, R222). -/
def tabBWFE : List RegDesc := [
  ⟨"BWF_EVT_LO", 402, .arb, 0x100, 1, 0x118, 1, 0x0, 1, 0x0, false,
    [⟨"EARLIEST", 63, 0, .ro, 0⟩]⟩,
  ⟨"BWF_EVT_HI", 402, .arb, 0x100, 1, 0x120, 1, 0x0, 1, 0x0, false,
    [⟨"VALID", 63, 63, .rc, 0⟩, ⟨"LATE", 62, 62, .ro, 0⟩, ⟨"CLASS", 59, 56, .ro, 0⟩, ⟨"TARGET", 55, 44, .ro, 0⟩, ⟨"COUNT", 43, 28, .ro, 0⟩, ⟨"PERIOD", 27, 0, .ro, 0⟩]⟩]

/-- Registers by block (R221, R222). -/
def tabEVT0 : List RegDesc := [
  ⟨"EVT_STATUS", 523, .arb, 0x190, 1, 0x0, 1, 0x0, 1, 0x0, false,
    [⟨"STOPPED", 63, 63, .ro, 0⟩, ⟨"STOP_SRC", 55, 48, .ro, 0⟩, ⟨"STOP_TICK", 47, 0, .ro, 0⟩]⟩,
  ⟨"EVT_TICK", 524, .arb, 0x190, 1, 0x8, 1, 0x0, 1, 0x0, false,
    [⟨"TICK", 63, 0, .ro, 0⟩]⟩,
  ⟨"EVT_SW", 524, .arb, 0x190, 1, 0x10, 1, 0x0, 1, 0x0, false,
    [⟨"CODE", 15, 0, .wo, 0⟩]⟩,
  ⟨"EVT_CNT", 525, .arb, 0x190, 1, 0x18, 1, 0x0, 1, 0x0, false,
    [⟨"DISCARD_CNT", 63, 48, .rc, 0⟩, ⟨"DEFER_CNT", 47, 32, .rc, 0⟩, ⟨"CAPCHG_CNT", 31, 16, .rc, 0⟩, ⟨"SW_CNT", 15, 0, .rc, 0⟩]⟩,
  ⟨"EVT_NOTIFY", 526, .arb, 0x190, 1, 0x20, 1, 0x0, 1, 0x0, false,
    [⟨"EN", 63, 63, .rw, 0⟩, ⟨"ON_CAP", 62, 62, .rw, 0⟩, ⟨"ON_THERM", 61, 61, .rw, 0⟩, ⟨"ON_SW", 60, 60, .rw, 0⟩, ⟨"HART", 23, 18, .rw, 0⟩, ⟨"FILE", 16, 16, .rw, 0⟩, ⟨"EIID", 7, 0, .rw, 0⟩]⟩]

/-- Every register of the spec. -/
def regTable : List RegDesc :=
  tabSEQ ++ tabTC ++ tabMFS ++ tabMFSD ++ tabGLZ ++ tabGLZD ++ tabSWL ++ tabJTY ++ tabRLC ++ tabPWR ++
  tabERRC ++ tabPMUC ++ tabHL ++ tabSLC ++ tabSHF ++ tabSHFD ++ tabTDL ++ tabBWF ++ tabBWFG ++ tabBWFRT ++
  tabCOL ++ tabTMK ++ tabHPU ++ tabUCI ++ tabHQ ++ tabPKG ++ tabEVT ++ tabLHT ++ tabERRQ ++ tabIOM ++
  tabPMUQ ++ tabSTL ++ tabBWFE ++ tabEVT0

/-- R92. -/ def SEQ_STATUS.STEP : FieldRef := ⟨0x0, 0x0, 63, 48⟩
/-- R92. -/ def SEQ_STATUS.HALF_RATE : FieldRef := ⟨0x0, 0x0, 8, 8⟩
/-- R92. -/ def SEQ_STATUS.RING : FieldRef := ⟨0x0, 0x0, 7, 7⟩
/-- R92. -/ def SEQ_STATUS.FROZEN : FieldRef := ⟨0x0, 0x0, 6, 6⟩
/-- R92. -/ def SEQ_STATUS.STATE : FieldRef := ⟨0x0, 0x0, 3, 0⟩
/-- R93. -/ def SEQ_CTRL.ABORT : FieldRef := ⟨0x0, 0x8, 2, 2⟩
/-- R93. -/ def SEQ_CTRL.START : FieldRef := ⟨0x0, 0x8, 1, 1⟩
/-- R93. -/ def SEQ_CTRL.LOAD : FieldRef := ⟨0x0, 0x8, 0, 0⟩
/-- R95. -/ def SEQ_IMAGE_BASE.BASE : FieldRef := ⟨0x0, 0x10, 43, 12⟩
/-- R96. -/ def SEQ_LOAD_RESULT.REQ_LEVEL : FieldRef := ⟨0x0, 0x18, 15, 8⟩
/-- R96. -/ def SEQ_LOAD_RESULT.CODE : FieldRef := ⟨0x0, 0x18, 3, 0⟩
/-- R97. -/ def SEQ_FAULT.FIRST_STEP : FieldRef := ⟨0x0, 0x20, 63, 48⟩
/-- R97. -/ def SEQ_FAULT.FIRST_KIND : FieldRef := ⟨0x0, 0x20, 39, 32⟩
/-- R97. -/ def SEQ_FAULT.CORE_SCHED : FieldRef := ⟨0x0, 0x20, 10, 10⟩
/-- R97. -/ def SEQ_FAULT.FENCED : FieldRef := ⟨0x0, 0x20, 9, 9⟩
/-- R97. -/ def SEQ_FAULT.AWAIT_TIMEOUT : FieldRef := ⟨0x0, 0x20, 8, 8⟩
/-- R97. -/ def SEQ_FAULT.FETCH : FieldRef := ⟨0x0, 0x20, 7, 7⟩
/-- R97. -/ def SEQ_FAULT.LOOP : FieldRef := ⟨0x0, 0x20, 6, 6⟩
/-- R97. -/ def SEQ_FAULT.BRANCH_SHADOW : FieldRef := ⟨0x0, 0x20, 5, 5⟩
/-- R97. -/ def SEQ_FAULT.UNIT_BUSY : FieldRef := ⟨0x0, 0x20, 4, 4⟩
/-- R97. -/ def SEQ_FAULT.FORMAT : FieldRef := ⟨0x0, 0x20, 3, 3⟩
/-- R97. -/ def SEQ_FAULT.WINDOW : FieldRef := ⟨0x0, 0x20, 2, 2⟩
/-- R97. -/ def SEQ_FAULT.REPLAY_LIMIT : FieldRef := ⟨0x0, 0x20, 1, 1⟩
/-- R97. -/ def SEQ_FAULT.ARITH : FieldRef := ⟨0x0, 0x20, 0, 0⟩
/-- R98. -/ def SEQ_REPLAY.REPLAY_CNT : FieldRef := ⟨0x0, 0x28, 63, 48⟩
/-- R98. -/ def SEQ_REPLAY.LIMIT : FieldRef := ⟨0x0, 0x28, 3, 0⟩
/-- R99. -/ def SEQ_REFRESH.INSERTED_CNT : FieldRef := ⟨0x0, 0x30, 63, 32⟩
/-- R99. -/ def SEQ_REFRESH.PEAK_DEBT : FieldRef := ⟨0x0, 0x30, 15, 8⟩
/-- R99. -/ def SEQ_REFRESH.DEBT_LIMIT : FieldRef := ⟨0x0, 0x30, 3, 0⟩
/-- R100. -/ def SEQ_AWAIT_TIMEOUT.TIMEOUT_US : FieldRef := ⟨0x0, 0x38, 31, 0⟩
/-- R100. -/ def SEQ_TICKBASE.TICKBASE : FieldRef := ⟨0x0, 0x40, 63, 0⟩
/-- R101. -/ def SEQ_TOKEN_ADD.INC : FieldRef := ⟨0x0, 0x48, 31, 16⟩
/-- R101. -/ def SEQ_TOKEN_ADD.INDEX : FieldRef := ⟨0x0, 0x48, 3, 0⟩
/-- R102. -/ def SEQ_TOKEN.CNT3 : FieldRef := ⟨0x0, 0x50, 63, 48⟩
/-- R102. -/ def SEQ_TOKEN.CNT2 : FieldRef := ⟨0x0, 0x50, 47, 32⟩
/-- R102. -/ def SEQ_TOKEN.CNT1 : FieldRef := ⟨0x0, 0x50, 31, 16⟩
/-- R102. -/ def SEQ_TOKEN.CNT0 : FieldRef := ⟨0x0, 0x50, 15, 0⟩
/-- R102. -/ def SEQ_TOKEN_OVF.OVF : FieldRef := ⟨0x0, 0x70, 15, 0⟩
/-- R434. -/ def SEQ_BALLAST.SHORT_CNT : FieldRef := ⟨0x0, 0x78, 63, 48⟩
/-- R434. -/ def SEQ_BALLAST.LEVEL : FieldRef := ⟨0x0, 0x78, 22, 16⟩
/-- R434. -/ def SEQ_BALLAST.RAMP_US : FieldRef := ⟨0x0, 0x78, 9, 0⟩
/-- R103. -/ def SEQ_PARAM.PARAM : FieldRef := ⟨0x0, 0x80, 63, 0⟩
/-- R104. -/ def SEQ_FOLD_MAP.FOLDED7 : FieldRef := ⟨0x0, 0x100, 63, 63⟩
/-- R104. -/ def SEQ_FOLD_MAP.HOST7 : FieldRef := ⟨0x0, 0x100, 61, 56⟩
/-- R104. -/ def SEQ_FOLD_MAP.FOLDED6 : FieldRef := ⟨0x0, 0x100, 55, 55⟩
/-- R104. -/ def SEQ_FOLD_MAP.HOST6 : FieldRef := ⟨0x0, 0x100, 53, 48⟩
/-- R104. -/ def SEQ_FOLD_MAP.FOLDED5 : FieldRef := ⟨0x0, 0x100, 47, 47⟩
/-- R104. -/ def SEQ_FOLD_MAP.HOST5 : FieldRef := ⟨0x0, 0x100, 45, 40⟩
/-- R104. -/ def SEQ_FOLD_MAP.FOLDED4 : FieldRef := ⟨0x0, 0x100, 39, 39⟩
/-- R104. -/ def SEQ_FOLD_MAP.HOST4 : FieldRef := ⟨0x0, 0x100, 37, 32⟩
/-- R104. -/ def SEQ_FOLD_MAP.FOLDED3 : FieldRef := ⟨0x0, 0x100, 31, 31⟩
/-- R104. -/ def SEQ_FOLD_MAP.HOST3 : FieldRef := ⟨0x0, 0x100, 29, 24⟩
/-- R104. -/ def SEQ_FOLD_MAP.FOLDED2 : FieldRef := ⟨0x0, 0x100, 23, 23⟩
/-- R104. -/ def SEQ_FOLD_MAP.HOST2 : FieldRef := ⟨0x0, 0x100, 21, 16⟩
/-- R104. -/ def SEQ_FOLD_MAP.FOLDED1 : FieldRef := ⟨0x0, 0x100, 15, 15⟩
/-- R104. -/ def SEQ_FOLD_MAP.HOST1 : FieldRef := ⟨0x0, 0x100, 13, 8⟩
/-- R104. -/ def SEQ_FOLD_MAP.FOLDED0 : FieldRef := ⟨0x0, 0x100, 7, 7⟩
/-- R104. -/ def SEQ_FOLD_MAP.HOST0 : FieldRef := ⟨0x0, 0x100, 5, 0⟩
/-- R105. -/ def SEQ_WIN_BASE.BASE : FieldRef := ⟨0x0, 0x1000, 43, 0⟩
/-- R105. -/ def SEQ_WIN_LIMIT.LIMIT : FieldRef := ⟨0x0, 0x1008, 44, 0⟩
/-- R105. -/ def SEQ_WIN_PHYS.PHYS : FieldRef := ⟨0x0, 0x1010, 55, 0⟩
/-- R105. -/ def SEQ_WIN_ATTR.VALID : FieldRef := ⟨0x0, 0x1018, 63, 63⟩
/-- R105. -/ def SEQ_WIN_ATTR.G : FieldRef := ⟨0x0, 0x1018, 2, 2⟩
/-- R105. -/ def SEQ_WIN_ATTR.W : FieldRef := ⟨0x0, 0x1018, 1, 1⟩
/-- R105. -/ def SEQ_WIN_ATTR.R : FieldRef := ⟨0x0, 0x1018, 0, 0⟩
/-- R55. -/ def TC_STATUS.FOLDED_FROM : FieldRef := ⟨0x100, 0x0, 15, 10⟩
/-- R55. -/ def TC_STATUS.HOSTING : FieldRef := ⟨0x100, 0x0, 9, 9⟩
/-- R55. -/ def TC_STATUS.STATE : FieldRef := ⟨0x100, 0x0, 1, 0⟩
/-- R56. -/ def TC_FAULT.FIRST_STEP : FieldRef := ⟨0x100, 0x8, 63, 48⟩
/-- R56. -/ def TC_FAULT.FIRST_KIND : FieldRef := ⟨0x100, 0x8, 39, 32⟩
/-- R56. -/ def TC_FAULT.REGWRITE : FieldRef := ⟨0x100, 0x8, 6, 6⟩
/-- R56. -/ def TC_FAULT.WBUF : FieldRef := ⟨0x100, 0x8, 5, 5⟩
/-- R56. -/ def TC_FAULT.SLAB_PORT : FieldRef := ⟨0x100, 0x8, 4, 4⟩
/-- R56. -/ def TC_FAULT.POISON : FieldRef := ⟨0x100, 0x8, 3, 3⟩
/-- R56. -/ def TC_FAULT.VAULT_UNCORR : FieldRef := ⟨0x100, 0x8, 2, 2⟩
/-- R56. -/ def TC_FAULT.SLAB_PARITY : FieldRef := ⟨0x100, 0x8, 1, 1⟩
/-- R56. -/ def TC_FAULT.RESIDUE : FieldRef := ⟨0x100, 0x8, 0, 0⟩
/-- R58. -/ def TC_ERRCNT.RESIDUE_CNT : FieldRef := ⟨0x100, 0x10, 63, 48⟩
/-- R58. -/ def TC_ERRCNT.SLAB_PAR_CNT : FieldRef := ⟨0x100, 0x10, 47, 32⟩
/-- R58. -/ def TC_ERRCNT.REPLAY_CNT : FieldRef := ⟨0x100, 0x10, 31, 16⟩
/-- R59. -/ def TC_SLAB_ERR.VALID : FieldRef := ⟨0x100, 0x18, 63, 63⟩
/-- R59. -/ def TC_SLAB_ERR.DYNAMIC : FieldRef := ⟨0x100, 0x18, 62, 62⟩
/-- R59. -/ def TC_SLAB_ERR.BANK : FieldRef := ⟨0x100, 0x18, 19, 14⟩
/-- R59. -/ def TC_SLAB_ERR.ROW : FieldRef := ⟨0x100, 0x18, 13, 3⟩
/-- R59. -/ def TC_SLAB_ERR.WORD : FieldRef := ⟨0x100, 0x18, 2, 0⟩
/-- R60. -/ def TC_RESIDUE_ERR.VALID : FieldRef := ⟨0x100, 0x20, 63, 63⟩
/-- R60. -/ def TC_RESIDUE_ERR.COLUMN : FieldRef := ⟨0x100, 0x20, 54, 48⟩
/-- R60. -/ def TC_RESIDUE_ERR.STEP : FieldRef := ⟨0x100, 0x20, 47, 32⟩
/-- R60. -/ def TC_RESIDUE_ERR.ROW : FieldRef := ⟨0x100, 0x20, 11, 0⟩
/-- R61. -/ def TC_INJECT.SLAB_PARITY : FieldRef := ⟨0x100, 0x28, 1, 1⟩
/-- R61. -/ def TC_INJECT.RESIDUE : FieldRef := ⟨0x100, 0x28, 0, 0⟩
/-- R180. -/ def MFS_STATUS.DEBT : FieldRef := ⟨0x200, 0x0, 35, 32⟩
/-- R180. -/ def MFS_STATUS.UNCORR_TOTAL : FieldRef := ⟨0x200, 0x0, 31, 28⟩
/-- R180. -/ def MFS_STATUS.FENCE_REQ : FieldRef := ⟨0x200, 0x0, 7, 7⟩
/-- R180. -/ def MFS_STATUS.STATE : FieldRef := ⟨0x200, 0x0, 1, 0⟩
/-- R181. -/ def MFS_CTRL.UNCORR_LIMIT : FieldRef := ⟨0x200, 0x8, 23, 20⟩
/-- R181. -/ def MFS_CTRL.ERASE_LIMIT : FieldRef := ⟨0x200, 0x8, 19, 16⟩
/-- R181. -/ def MFS_CTRL.SCRUB_EN : FieldRef := ⟨0x200, 0x8, 9, 9⟩
/-- R181. -/ def MFS_CTRL.INIT : FieldRef := ⟨0x200, 0x8, 1, 1⟩
/-- R181. -/ def MFS_CTRL.FENCE : FieldRef := ⟨0x200, 0x8, 0, 0⟩
/-- R182. -/ def MFS_ECC_CNT.CORR_CNT : FieldRef := ⟨0x200, 0x10, 63, 32⟩
/-- R182. -/ def MFS_ECC_CNT.UNCORR_CNT : FieldRef := ⟨0x200, 0x10, 31, 16⟩
/-- R182. -/ def MFS_ECC_CNT.POISON_CNT : FieldRef := ⟨0x200, 0x10, 15, 0⟩
/-- R183. -/ def MFS_ECC_ERR.VALID : FieldRef := ⟨0x200, 0x18, 63, 63⟩
/-- R183. -/ def MFS_ECC_ERR.POISONED : FieldRef := ⟨0x200, 0x18, 62, 62⟩
/-- R183. -/ def MFS_ECC_ERR.CRUMB : FieldRef := ⟨0x200, 0x18, 61, 61⟩
/-- R183. -/ def MFS_ECC_ERR.QUARTER : FieldRef := ⟨0x200, 0x18, 60, 59⟩
/-- R183. -/ def MFS_ECC_ERR.SOURCE : FieldRef := ⟨0x200, 0x18, 58, 56⟩
/-- R183. -/ def MFS_ECC_ERR.BLOCK : FieldRef := ⟨0x200, 0x18, 55, 32⟩
/-- R184. -/ def MFS_ERASE.CNT : FieldRef := ⟨0x200, 0x20, 63, 32⟩
/-- R184. -/ def MFS_ERASE.LAST_VALID : FieldRef := ⟨0x200, 0x20, 31, 31⟩
/-- R184. -/ def MFS_ERASE.LAST_CHANNEL : FieldRef := ⟨0x200, 0x20, 10, 8⟩
/-- R184. -/ def MFS_ERASE.LAST_WIRE : FieldRef := ⟨0x200, 0x20, 7, 0⟩
/-- R185. -/ def MFS_INJECT.ARM : FieldRef := ⟨0x200, 0x28, 16, 16⟩
/-- R185. -/ def MFS_INJECT.CHANNEL : FieldRef := ⟨0x200, 0x28, 10, 8⟩
/-- R185. -/ def MFS_INJECT.WIRE : FieldRef := ⟨0x200, 0x28, 7, 0⟩
/-- R306. -/ def MFS_DIR_CNT.LOOKUP_MISS : FieldRef := ⟨0x200, 0x30, 63, 32⟩
/-- R306. -/ def MFS_DIR_CNT.EVICT_CNT : FieldRef := ⟨0x200, 0x30, 31, 16⟩
/-- R306. -/ def MFS_DIR_CNT.GEN_OK : FieldRef := ⟨0x200, 0x30, 0, 0⟩
/-- R186. -/ def MFS_SPLIT.LOCK : FieldRef := ⟨0x200, 0x100, 63, 63⟩
/-- R186. -/ def MFS_SPLIT.TIMING : FieldRef := ⟨0x200, 0x100, 8, 8⟩
/-- R186. -/ def MFS_SPLIT.SPLIT : FieldRef := ⟨0x200, 0x100, 2, 0⟩
/-- R187. -/ def MFS_CRUMB.LIMIT : FieldRef := ⟨0x200, 0x108, 25, 16⟩
/-- R187. -/ def MFS_CRUMB.BASE : FieldRef := ⟨0x200, 0x108, 9, 0⟩
/-- R188. -/ def MFS_THERM.L7 : FieldRef := ⟨0x200, 0x110, 63, 56⟩
/-- R188. -/ def MFS_THERM.L6 : FieldRef := ⟨0x200, 0x110, 55, 48⟩
/-- R188. -/ def MFS_THERM.L5 : FieldRef := ⟨0x200, 0x110, 47, 40⟩
/-- R188. -/ def MFS_THERM.L4 : FieldRef := ⟨0x200, 0x110, 39, 32⟩
/-- R188. -/ def MFS_THERM.L3 : FieldRef := ⟨0x200, 0x110, 31, 24⟩
/-- R188. -/ def MFS_THERM.L2 : FieldRef := ⟨0x200, 0x110, 23, 16⟩
/-- R188. -/ def MFS_THERM.L1 : FieldRef := ⟨0x200, 0x110, 15, 8⟩
/-- R188. -/ def MFS_THERM.L0 : FieldRef := ⟨0x200, 0x110, 7, 0⟩
/-- R189. -/ def MFS_DIESTAT.MAX_TEMP : FieldRef := ⟨0x200, 0x118, 15, 8⟩
/-- R189. -/ def MFS_DIESTAT.HOT_LAYER : FieldRef := ⟨0x200, 0x118, 7, 5⟩
/-- R189. -/ def MFS_DIESTAT.TRIP : FieldRef := ⟨0x200, 0x118, 4, 4⟩
/-- R189. -/ def MFS_DIESTAT.REF2X : FieldRef := ⟨0x200, 0x118, 3, 3⟩
/-- R212. -/ def GLZ_STATUS.HELD : FieldRef := ⟨0x240, 0x0, 63, 56⟩
/-- R212. -/ def GLZ_STATUS.KEYS : FieldRef := ⟨0x240, 0x0, 55, 48⟩
/-- R212. -/ def GLZ_STATUS.STAGE_USED : FieldRef := ⟨0x240, 0x0, 47, 24⟩
/-- R212. -/ def GLZ_STATUS.RESUMING : FieldRef := ⟨0x240, 0x0, 2, 2⟩
/-- R212. -/ def GLZ_STATUS.STATE : FieldRef := ⟨0x240, 0x0, 1, 0⟩
/-- R213. -/ def GLZ_AREA.VALID : FieldRef := ⟨0x240, 0x8, 63, 63⟩
/-- R213. -/ def GLZ_AREA.MODE : FieldRef := ⟨0x240, 0x8, 62, 62⟩
/-- R213. -/ def GLZ_AREA.SIZE : FieldRef := ⟨0x240, 0x8, 31, 16⟩
/-- R213. -/ def GLZ_AREA.BASE : FieldRef := ⟨0x240, 0x8, 10, 0⟩
/-- R214. -/ def GLZ_CNT.CMD_CNT : FieldRef := ⟨0x240, 0x10, 63, 32⟩
/-- R214. -/ def GLZ_CNT.FAIL_CNT : FieldRef := ⟨0x240, 0x10, 31, 16⟩
/-- R214. -/ def GLZ_CNT.RESUME_CNT : FieldRef := ⟨0x240, 0x10, 15, 0⟩
/-- R215. -/ def GLZ_ERR.VALID : FieldRef := ⟨0x240, 0x18, 63, 63⟩
/-- R215. -/ def GLZ_ERR.CODE : FieldRef := ⟨0x240, 0x18, 55, 52⟩
/-- R215. -/ def GLZ_ERR.GOP : FieldRef := ⟨0x240, 0x18, 51, 48⟩
/-- R215. -/ def GLZ_ERR.SOURCE : FieldRef := ⟨0x240, 0x18, 47, 46⟩
/-- R215. -/ def GLZ_ERR.ORIGIN : FieldRef := ⟨0x240, 0x18, 43, 32⟩
/-- R215. -/ def GLZ_ERR.STROKE : FieldRef := ⟨0x240, 0x18, 14, 0⟩
/-- R216. -/ def GLZ_JOURNAL.ACTIVE : FieldRef := ⟨0x240, 0x100, 63, 63⟩
/-- R216. -/ def GLZ_JOURNAL.JID : FieldRef := ⟨0x240, 0x100, 15, 0⟩
/-- R217. -/ def GLZ_APPLY.BUSY : FieldRef := ⟨0x240, 0x108, 63, 63⟩
/-- R217. -/ def GLZ_APPLY.RESULT : FieldRef := ⟨0x240, 0x108, 59, 58⟩
/-- R217. -/ def GLZ_APPLY.OP : FieldRef := ⟨0x240, 0x108, 49, 48⟩
/-- R217. -/ def GLZ_APPLY.PKG : FieldRef := ⟨0x240, 0x108, 43, 32⟩
/-- R217. -/ def GLZ_APPLY.JID : FieldRef := ⟨0x240, 0x108, 15, 0⟩
/-- R260. -/ def SWL_CNT.REPLAY_CNT : FieldRef := ⟨0x280, 0x8, 63, 32⟩
/-- R260. -/ def SWL_CNT.STATIC_PAR_CNT : FieldRef := ⟨0x280, 0x8, 31, 16⟩
/-- R260. -/ def SWL_CNT.REROUTE_CNT : FieldRef := ⟨0x280, 0x8, 15, 0⟩
/-- R261. -/ def SWL_ERR.VALID : FieldRef := ⟨0x280, 0x10, 63, 63⟩
/-- R261. -/ def SWL_ERR.DOWN : FieldRef := ⟨0x280, 0x10, 62, 62⟩
/-- R261. -/ def SWL_ERR.ROUTER : FieldRef := ⟨0x280, 0x10, 61, 56⟩
/-- R261. -/ def SWL_ERR.PORT : FieldRef := ⟨0x280, 0x10, 55, 54⟩
/-- R261. -/ def SWL_ERR.WORD : FieldRef := ⟨0x280, 0x10, 53, 51⟩
/-- R261. -/ def SWL_ERR.CLASS : FieldRef := ⟨0x280, 0x10, 50, 48⟩
/-- R262. -/ def SWL_DOWN.DOWN : FieldRef := ⟨0x280, 0x20, 63, 0⟩
/-- R263. -/ def JTY_STATUS.PEER_LEVEL : FieldRef := ⟨0x290, 0x0, 63, 56⟩
/-- R263. -/ def JTY_STATUS.PEER_DIE : FieldRef := ⟨0x290, 0x0, 55, 53⟩
/-- R263. -/ def JTY_STATUS.RATE : FieldRef := ⟨0x290, 0x0, 4, 4⟩
/-- R263. -/ def JTY_STATUS.STATE : FieldRef := ⟨0x290, 0x0, 1, 0⟩
/-- R264. -/ def JTY_CTRL.REJOIN : FieldRef := ⟨0x290, 0x8, 8, 8⟩
/-- R264. -/ def JTY_CTRL.RATE : FieldRef := ⟨0x290, 0x8, 0, 0⟩
/-- R265. -/ def JTY_CNT.REPLAY_CNT : FieldRef := ⟨0x290, 0x10, 63, 32⟩
/-- R265. -/ def JTY_CNT.CLKLOSS_CNT : FieldRef := ⟨0x290, 0x10, 31, 16⟩
/-- R265. -/ def JTY_CNT.DISCARD_CNT : FieldRef := ⟨0x290, 0x10, 15, 0⟩
/-- R266. -/ def JTY_ERR.VALID : FieldRef := ⟨0x290, 0x18, 63, 63⟩
/-- R266. -/ def JTY_ERR.FAILED : FieldRef := ⟨0x290, 0x18, 62, 62⟩
/-- R266. -/ def JTY_ERR.INBOUND : FieldRef := ⟨0x290, 0x18, 61, 61⟩
/-- R266. -/ def JTY_ERR.SUBCH : FieldRef := ⟨0x290, 0x18, 60, 58⟩
/-- R266. -/ def JTY_ERR.WORD : FieldRef := ⟨0x290, 0x18, 57, 56⟩
/-- R515. -/ def PWR_POINT.BUSY : FieldRef := ⟨0x2B0, 0x0, 63, 63⟩
/-- R515. -/ def PWR_POINT.DEFERRED : FieldRef := ⟨0x2B0, 0x0, 62, 62⟩
/-- R515. -/ def PWR_POINT.CAP : FieldRef := ⟨0x2B0, 0x0, 27, 27⟩
/-- R515. -/ def PWR_POINT.THERM : FieldRef := ⟨0x2B0, 0x0, 26, 26⟩
/-- R515. -/ def PWR_POINT.NEIGHBOUR : FieldRef := ⟨0x2B0, 0x0, 25, 25⟩
/-- R515. -/ def PWR_POINT.TIMING : FieldRef := ⟨0x2B0, 0x0, 24, 24⟩
/-- R515. -/ def PWR_POINT.CEIL : FieldRef := ⟨0x2B0, 0x0, 19, 16⟩
/-- R515. -/ def PWR_POINT.CUR : FieldRef := ⟨0x2B0, 0x0, 11, 8⟩
/-- R515. -/ def PWR_POINT.REQ : FieldRef := ⟨0x2B0, 0x0, 3, 0⟩
/-- R516. -/ def PWR_ENERGY.ENERGY_UJ : FieldRef := ⟨0x2B0, 0x8, 63, 0⟩
/-- R517. -/ def PWR_THERM.STACK_THROT : FieldRef := ⟨0x2B0, 0x10, 63, 56⟩
/-- R517. -/ def PWR_THERM.TJ_THROT : FieldRef := ⟨0x2B0, 0x10, 55, 48⟩
/-- R517. -/ def PWR_THERM.TJ_MAX : FieldRef := ⟨0x2B0, 0x10, 23, 16⟩
/-- R518. -/ def PWR_DROOP.ACTIVE : FieldRef := ⟨0x2B0, 0x18, 63, 63⟩
/-- R518. -/ def PWR_DROOP.DROOP_CNT : FieldRef := ⟨0x2B0, 0x18, 31, 0⟩
/-- R519. -/ def PWR_VF.FREQ : FieldRef := ⟨0x2B0, 0x100, 47, 32⟩
/-- R519. -/ def PWR_VF.VOLT : FieldRef := ⟨0x2B0, 0x100, 31, 16⟩
/-- R519. -/ def PWR_VF.VMIN : FieldRef := ⟨0x2B0, 0x100, 15, 0⟩
/-- R543. -/ def ERR_STATUS.USED : FieldRef := ⟨0x2C0, 0x0, 63, 56⟩
/-- R543. -/ def ERR_STATUS.OVERFLOW : FieldRef := ⟨0x2C0, 0x0, 55, 55⟩
/-- R543. -/ def ERR_STATUS.PEER_LOST : FieldRef := ⟨0x2C0, 0x0, 0, 0⟩
/-- R544. -/ def ERR_CTRL.IRQ_EN : FieldRef := ⟨0x2C0, 0x8, 63, 63⟩
/-- R544. -/ def ERR_CTRL.IRQ_SEV : FieldRef := ⟨0x2C0, 0x8, 1, 0⟩
/-- R545. -/ def ERR_REC0.VALID : FieldRef := ⟨0x2C0, 0x10, 63, 63⟩
/-- R545. -/ def ERR_REC0.SEV : FieldRef := ⟨0x2C0, 0x10, 62, 61⟩
/-- R545. -/ def ERR_REC0.UNIT : FieldRef := ⟨0x2C0, 0x10, 55, 48⟩
/-- R545. -/ def ERR_REC0.KIND : FieldRef := ⟨0x2C0, 0x10, 47, 40⟩
/-- R545. -/ def ERR_REC0.INDEX : FieldRef := ⟨0x2C0, 0x10, 31, 16⟩
/-- R545. -/ def ERR_REC0.COUNT : FieldRef := ⟨0x2C0, 0x10, 15, 0⟩
/-- R545. -/ def ERR_REC1.DETAIL : FieldRef := ⟨0x2C0, 0x18, 63, 0⟩
/-- R545. -/ def ERR_REC2.TIME : FieldRef := ⟨0x2C0, 0x20, 63, 0⟩
/-- R546. -/ def ERR_CNT.SEV0_CNT : FieldRef := ⟨0x2C0, 0x28, 63, 48⟩
/-- R546. -/ def ERR_CNT.SEV1_CNT : FieldRef := ⟨0x2C0, 0x28, 47, 32⟩
/-- R546. -/ def ERR_CNT.SEV2_CNT : FieldRef := ⟨0x2C0, 0x28, 31, 16⟩
/-- R546. -/ def ERR_CNT.SEV3_CNT : FieldRef := ⟨0x2C0, 0x28, 15, 8⟩
/-- R546. -/ def ERR_CNT.DROP_CNT : FieldRef := ⟨0x2C0, 0x28, 7, 0⟩
/-- R547. -/ def ERR_POLICY.DECAY_MIN : FieldRef := ⟨0x2C0, 0x30, 31, 16⟩
/-- R547. -/ def ERR_POLICY.LIMIT : FieldRef := ⟨0x2C0, 0x30, 7, 0⟩
/-- R548. -/ def ERR_FENCE.GO : FieldRef := ⟨0x2C0, 0x38, 63, 63⟩
/-- R548. -/ def ERR_FENCE.CORE : FieldRef := ⟨0x2C0, 0x38, 5, 0⟩
/-- R549. -/ def ERR_SCORE.SCORE : FieldRef := ⟨0x2C0, 0x40, 63, 0⟩
/-- R550. -/ def ERR_SWEEP.POISONED_CNT : FieldRef := ⟨0x2C0, 0x80, 63, 32⟩
/-- R550. -/ def ERR_SWEEP.REMOVED_CNT : FieldRef := ⟨0x2C0, 0x80, 31, 0⟩
/-- R598. -/ def PMU_CTRL.FREEZE_ON_OVF : FieldRef := ⟨0x2D0, 0x0, 1, 1⟩
/-- R598. -/ def PMU_CTRL.EN : FieldRef := ⟨0x2D0, 0x0, 0, 0⟩
/-- R598. -/ def PMU_OVF.COVF : FieldRef := ⟨0x2D0, 0x8, 23, 16⟩
/-- R598. -/ def PMU_OVF.DOVF : FieldRef := ⟨0x2D0, 0x8, 15, 0⟩
/-- R599. -/ def PMU_LATCH.PARTNER : FieldRef := ⟨0x2D0, 0x10, 47, 0⟩
/-- R600. -/ def PMU_NOTIFY.EN : FieldRef := ⟨0x2D0, 0x18, 63, 63⟩
/-- R600. -/ def PMU_NOTIFY.HART : FieldRef := ⟨0x2D0, 0x18, 23, 18⟩
/-- R600. -/ def PMU_NOTIFY.FILE : FieldRef := ⟨0x2D0, 0x18, 16, 16⟩
/-- R600. -/ def PMU_NOTIFY.EIID : FieldRef := ⟨0x2D0, 0x18, 7, 0⟩
/-- R601. -/ def PMU_SAMPLE.EN : FieldRef := ⟨0x2D0, 0x20, 63, 63⟩
/-- R601. -/ def PMU_SAMPLE.HART : FieldRef := ⟨0x2D0, 0x20, 52, 48⟩
/-- R601. -/ def PMU_SAMPLE.JITTER : FieldRef := ⟨0x2D0, 0x20, 47, 32⟩
/-- R601. -/ def PMU_SAMPLE.PERIOD : FieldRef := ⟨0x2D0, 0x20, 31, 0⟩
/-- R601. -/ def PMU_SEED.SEED : FieldRef := ⟨0x2D0, 0x28, 31, 0⟩
/-- R602. -/ def PMU_SB_CTRL.STOP_WHEN_FULL : FieldRef := ⟨0x2D0, 0x30, 63, 63⟩
/-- R602. -/ def PMU_SB_CTRL.STOPPED : FieldRef := ⟨0x2D0, 0x30, 62, 62⟩
/-- R602. -/ def PMU_SB_CTRL.CLEAR : FieldRef := ⟨0x2D0, 0x30, 61, 61⟩
/-- R602. -/ def PMU_SB_CTRL.LOST_CNT : FieldRef := ⟨0x2D0, 0x30, 31, 16⟩
/-- R602. -/ def PMU_SB_CTRL.HEAD : FieldRef := ⟨0x2D0, 0x30, 8, 0⟩
/-- R598. -/ def PMU_COREOVF.COVF : FieldRef := ⟨0x2D0, 0x38, 63, 0⟩
/-- R603. -/ def PMU_DSEL.EN : FieldRef := ⟨0x2D0, 0x100, 63, 63⟩
/-- R603. -/ def PMU_DSEL.CHAIN : FieldRef := ⟨0x2D0, 0x100, 62, 62⟩
/-- R603. -/ def PMU_DSEL.OVF_IRQ : FieldRef := ⟨0x2D0, 0x100, 61, 61⟩
/-- R603. -/ def PMU_DSEL.THRESH_EN : FieldRef := ⟨0x2D0, 0x100, 60, 60⟩
/-- R603. -/ def PMU_DSEL.THRESH : FieldRef := ⟨0x2D0, 0x100, 55, 40⟩
/-- R603. -/ def PMU_DSEL.EVENT : FieldRef := ⟨0x2D0, 0x100, 11, 0⟩
/-- R603. -/ def PMU_DCNT.COUNT : FieldRef := ⟨0x2D0, 0x180, 47, 0⟩
/-- R603. -/ def PMU_CSEL.EN : FieldRef := ⟨0x2D0, 0x200, 63, 63⟩
/-- R603. -/ def PMU_CSEL.CHAIN : FieldRef := ⟨0x2D0, 0x200, 62, 62⟩
/-- R603. -/ def PMU_CSEL.OVF_IRQ : FieldRef := ⟨0x2D0, 0x200, 61, 61⟩
/-- R603. -/ def PMU_CSEL.THRESH_EN : FieldRef := ⟨0x2D0, 0x200, 60, 60⟩
/-- R603. -/ def PMU_CSEL.THRESH : FieldRef := ⟨0x2D0, 0x200, 55, 40⟩
/-- R603. -/ def PMU_CSEL.EVENT : FieldRef := ⟨0x2D0, 0x200, 11, 0⟩
/-- R603. -/ def PMU_CCNT.COUNT : FieldRef := ⟨0x2D0, 0x1000, 47, 0⟩
/-- R597. -/ def PMU_SB.WORD : FieldRef := ⟨0x2D0, 0x4000, 63, 0⟩
/-- R340. -/ def HL_CTRL.MSI_DROP : FieldRef := ⟨0x0, 0x0, 63, 48⟩
/-- R340. -/ def HL_CTRL.OFFLINE : FieldRef := ⟨0x0, 0x0, 8, 8⟩
/-- R340. -/ def HL_CTRL.CAUSE : FieldRef := ⟨0x0, 0x0, 7, 4⟩
/-- R340. -/ def HL_CTRL.STATE : FieldRef := ⟨0x0, 0x0, 1, 0⟩
/-- R341. -/ def HL_NOTIFY.EN : FieldRef := ⟨0x0, 0x8, 63, 63⟩
/-- R341. -/ def HL_NOTIFY.HART : FieldRef := ⟨0x0, 0x8, 23, 18⟩
/-- R341. -/ def HL_NOTIFY.FILE : FieldRef := ⟨0x0, 0x8, 16, 16⟩
/-- R341. -/ def HL_NOTIFY.EIID : FieldRef := ⟨0x0, 0x8, 7, 0⟩
/-- R342. -/ def HL_MTIMECMP.MTIMECMP : FieldRef := ⟨0x0, 0x10, 63, 0⟩
/-- R326. -/ def HL_REMOTE_ERR.VALID : FieldRef := ⟨0x0, 0x40, 63, 63⟩
/-- R326. -/ def HL_REMOTE_ERR.KIND : FieldRef := ⟨0x0, 0x40, 62, 60⟩
/-- R326. -/ def HL_REMOTE_ERR.PKG : FieldRef := ⟨0x0, 0x40, 59, 48⟩
/-- R326. -/ def HL_REMOTE_ERR.LINE : FieldRef := ⟨0x0, 0x40, 43, 6⟩
/-- R296. -/ def CACHE_CTRL.DIRTY_AT_DISABLE : FieldRef := ⟨0x40, 0x0, 1, 1⟩
/-- R296. -/ def CACHE_CTRL.ENABLE : FieldRef := ⟨0x40, 0x0, 0, 0⟩
/-- R297. -/ def CACHE_STATUS.DIRTY_CNT : FieldRef := ⟨0x40, 0x8, 39, 16⟩
/-- R297. -/ def CACHE_STATUS.MERGE_USED : FieldRef := ⟨0x40, 0x8, 15, 10⟩
/-- R297. -/ def CACHE_STATUS.SIDE_USED : FieldRef := ⟨0x40, 0x8, 9, 0⟩
/-- R298. -/ def CACHE_RNG_BASE.BASE : FieldRef := ⟨0x40, 0x10, 43, 6⟩
/-- R298. -/ def CACHE_RNG_LEN.LEN : FieldRef := ⟨0x40, 0x18, 44, 6⟩
/-- R299. -/ def CACHE_RNG_OP.BUSY : FieldRef := ⟨0x40, 0x20, 63, 63⟩
/-- R299. -/ def CACHE_RNG_OP.REJECT : FieldRef := ⟨0x40, 0x20, 62, 62⟩
/-- R299. -/ def CACHE_RNG_OP.SKIP_LOCKED : FieldRef := ⟨0x40, 0x20, 3, 3⟩
/-- R299. -/ def CACHE_RNG_OP.OP : FieldRef := ⟨0x40, 0x20, 1, 0⟩
/-- R300. -/ def CACHE_RNG_STATUS.LOCKED_CNT : FieldRef := ⟨0x40, 0x28, 63, 40⟩
/-- R300. -/ def CACHE_RNG_STATUS.WB_CNT : FieldRef := ⟨0x40, 0x28, 39, 16⟩
/-- R301. -/ def CACHE_CLASS_MAP.CLASS : FieldRef := ⟨0x40, 0x40, 63, 0⟩
/-- R302. -/ def CACHE_WAYMASK.LOCKED : FieldRef := ⟨0x40, 0x80, 31, 16⟩
/-- R302. -/ def CACHE_WAYMASK.ALLOC : FieldRef := ⟨0x40, 0x80, 15, 0⟩
/-- R303. -/ def CACHE_PF_CTRL.DIST : FieldRef := ⟨0x40, 0x100, 13, 8⟩
/-- R303. -/ def CACHE_PF_CTRL.ZICBOP_EN : FieldRef := ⟨0x40, 0x100, 1, 1⟩
/-- R303. -/ def CACHE_PF_CTRL.STRIDE_EN : FieldRef := ⟨0x40, 0x100, 0, 0⟩
/-- R304. -/ def CACHE_MERGE_CTRL.TIMEOUT : FieldRef := ⟨0x40, 0x108, 15, 0⟩
/-- R358. -/ def SHF_CH_CNT.CORR_CNT : FieldRef := ⟨0x50, 0x0, 63, 32⟩
/-- R358. -/ def SHF_CH_CNT.UNCORR_CNT : FieldRef := ⟨0x50, 0x0, 31, 16⟩
/-- R358. -/ def SHF_CH_CNT.POISON_CNT : FieldRef := ⟨0x50, 0x0, 15, 0⟩
/-- R359. -/ def SHF_CH_STATUS.ERASED : FieldRef := ⟨0x50, 0x8, 63, 63⟩
/-- R359. -/ def SHF_CH_STATUS.PIN : FieldRef := ⟨0x50, 0x8, 11, 8⟩
/-- R359. -/ def SHF_CH_STATUS.STATE : FieldRef := ⟨0x50, 0x8, 1, 0⟩
/-- R360. -/ def SHF_CH_ERR.VALID : FieldRef := ⟨0x50, 0x10, 63, 63⟩
/-- R360. -/ def SHF_CH_ERR.POISONED : FieldRef := ⟨0x50, 0x10, 62, 62⟩
/-- R360. -/ def SHF_CH_ERR.LINE : FieldRef := ⟨0x50, 0x10, 33, 6⟩
/-- R361. -/ def SHF_SPLIT.LOCK : FieldRef := ⟨0x50, 0x100, 63, 63⟩
/-- R361. -/ def SHF_SPLIT.INIT : FieldRef := ⟨0x50, 0x100, 62, 62⟩
/-- R361. -/ def SHF_SPLIT.DIRECT : FieldRef := ⟨0x50, 0x100, 4, 0⟩
/-- R362. -/ def SHF_DIR_CNT.LOOKUP_CNT : FieldRef := ⟨0x50, 0x140, 63, 32⟩
/-- R362. -/ def SHF_DIR_CNT.EVICT_CNT : FieldRef := ⟨0x50, 0x140, 31, 16⟩
/-- R363. -/ def TDL_CFG.LOCK : FieldRef := ⟨0x60, 0x0, 63, 63⟩
/-- R363. -/ def TDL_CFG.CFG_ERR : FieldRef := ⟨0x60, 0x0, 62, 62⟩
/-- R363. -/ def TDL_CFG.RESERVE : FieldRef := ⟨0x60, 0x0, 6, 0⟩
/-- R364. -/ def TDL_CMD.BUSY : FieldRef := ⟨0x60, 0x8, 63, 63⟩
/-- R364. -/ def TDL_CMD.RESULT : FieldRef := ⟨0x60, 0x8, 62, 60⟩
/-- R364. -/ def TDL_CMD.ACCOUNT : FieldRef := ⟨0x60, 0x8, 57, 52⟩
/-- R364. -/ def TDL_CMD.PAGE : FieldRef := ⟨0x60, 0x8, 39, 20⟩
/-- R364. -/ def TDL_CMD.OP : FieldRef := ⟨0x60, 0x8, 2, 0⟩
/-- R365. -/ def TDL_QUERY.ALLOCATED : FieldRef := ⟨0x60, 0x10, 63, 63⟩
/-- R365. -/ def TDL_QUERY.IN_STACK : FieldRef := ⟨0x60, 0x10, 62, 62⟩
/-- R365. -/ def TDL_QUERY.MIGRATING : FieldRef := ⟨0x60, 0x10, 61, 61⟩
/-- R365. -/ def TDL_QUERY.AGE : FieldRef := ⟨0x60, 0x10, 55, 48⟩
/-- R365. -/ def TDL_QUERY.ACCOUNT : FieldRef := ⟨0x60, 0x10, 45, 40⟩
/-- R365. -/ def TDL_QUERY.SLOT : FieldRef := ⟨0x60, 0x10, 18, 0⟩
/-- R366. -/ def TDL_STATUS.ALLOCATED : FieldRef := ⟨0x60, 0x18, 63, 44⟩
/-- R366. -/ def TDL_STATUS.RESERVE_USED : FieldRef := ⟨0x60, 0x18, 43, 26⟩
/-- R366. -/ def TDL_STATUS.EPOCH : FieldRef := ⟨0x60, 0x18, 25, 18⟩
/-- R366. -/ def TDL_CNT.FLOOD_CNT : FieldRef := ⟨0x60, 0x20, 63, 40⟩
/-- R366. -/ def TDL_CNT.EBB_CNT : FieldRef := ⟨0x60, 0x20, 39, 16⟩
/-- R366. -/ def TDL_CNT.FAIL_CNT : FieldRef := ⟨0x60, 0x20, 15, 0⟩
/-- R367. -/ def TDL_ACCT.USED : FieldRef := ⟨0x60, 0x100, 63, 44⟩
/-- R367. -/ def TDL_ACCT.LIMIT : FieldRef := ⟨0x60, 0x100, 19, 0⟩
/-- R394. -/ def BWF_STATUS.FAILED : FieldRef := ⟨0x100, 0x0, 63, 56⟩
/-- R394. -/ def BWF_STATUS.LOCKED : FieldRef := ⟨0x100, 0x0, 55, 48⟩
/-- R394. -/ def BWF_STATUS.WIDTH : FieldRef := ⟨0x100, 0x0, 9, 8⟩
/-- R394. -/ def BWF_STATUS.STATE : FieldRef := ⟨0x100, 0x0, 2, 0⟩
/-- R395. -/ def BWF_CTRL.LANE_OFF : FieldRef := ⟨0x100, 0x8, 15, 8⟩
/-- R395. -/ def BWF_CTRL.RETRAIN : FieldRef := ⟨0x100, 0x8, 1, 1⟩
/-- R395. -/ def BWF_CTRL.EN : FieldRef := ⟨0x100, 0x8, 0, 0⟩
/-- R396. -/ def BWF_NBR.VALID : FieldRef := ⟨0x100, 0x10, 63, 63⟩
/-- R396. -/ def BWF_NBR.PEER_IDV : FieldRef := ⟨0x100, 0x10, 62, 62⟩
/-- R396. -/ def BWF_NBR.PEER_PORT : FieldRef := ⟨0x100, 0x10, 52, 48⟩
/-- R396. -/ def BWF_NBR.PEER_SERIAL : FieldRef := ⟨0x100, 0x10, 47, 0⟩
/-- R396. -/ def BWF_NBR2.PEER_LEVEL : FieldRef := ⟨0x100, 0x18, 39, 32⟩
/-- R396. -/ def BWF_NBR2.PEER_LOC : FieldRef := ⟨0x100, 0x18, 27, 16⟩
/-- R396. -/ def BWF_NBR2.PEER_ID : FieldRef := ⟨0x100, 0x18, 11, 0⟩
/-- R397. -/ def BWF_CNT.REPLAY_CNT : FieldRef := ⟨0x100, 0x20, 63, 40⟩
/-- R397. -/ def BWF_CNT.VIOL_CNT : FieldRef := ⟨0x100, 0x20, 39, 24⟩
/-- R397. -/ def BWF_CNT.LINKRESET_CNT : FieldRef := ⟨0x100, 0x20, 23, 16⟩
/-- R397. -/ def BWF_CNT.LANEFAIL_CNT : FieldRef := ⟨0x100, 0x20, 15, 8⟩
/-- R397. -/ def BWF_CNT.DOWN_CNT : FieldRef := ⟨0x100, 0x20, 7, 0⟩
/-- R398. -/ def BWF_ERR.VALID : FieldRef := ⟨0x100, 0x30, 63, 63⟩
/-- R398. -/ def BWF_ERR.CODE : FieldRef := ⟨0x100, 0x30, 59, 56⟩
/-- R398. -/ def BWF_ERR.TYPE : FieldRef := ⟨0x100, 0x30, 55, 50⟩
/-- R398. -/ def BWF_ERR.CHANNEL : FieldRef := ⟨0x100, 0x30, 49, 45⟩
/-- R399. -/ def BWF_MGR.OPEN : FieldRef := ⟨0x100, 0x100, 63, 63⟩
/-- R399. -/ def BWF_MGR.MGR_SERIAL : FieldRef := ⟨0x100, 0x100, 47, 0⟩
/-- R400. -/ def BWF_ASSIGN.VALID : FieldRef := ⟨0x100, 0x108, 63, 63⟩
/-- R400. -/ def BWF_ASSIGN.ID : FieldRef := ⟨0x100, 0x108, 11, 0⟩
/-- R401. -/ def BWF_REPORT.EN : FieldRef := ⟨0x100, 0x110, 63, 63⟩
/-- R401. -/ def BWF_REPORT.ROOT : FieldRef := ⟨0x100, 0x110, 62, 62⟩
/-- R401. -/ def BWF_REPORT.DEPTH : FieldRef := ⟨0x100, 0x110, 11, 8⟩
/-- R401. -/ def BWF_REPORT.PARENT_PORT : FieldRef := ⟨0x100, 0x110, 4, 0⟩
/-- R403. -/ def BWF_DR_PATH.PLEN : FieldRef := ⟨0x100, 0x128, 63, 60⟩
/-- R403. -/ def BWF_DR_PATH.PATH : FieldRef := ⟨0x100, 0x128, 39, 0⟩
/-- R403. -/ def BWF_DR_ADDR.ADDR : FieldRef := ⟨0x100, 0x130, 43, 0⟩
/-- R403. -/ def BWF_DR_DATA.DATA : FieldRef := ⟨0x100, 0x138, 63, 0⟩
/-- R403. -/ def BWF_DR_CTRL.BUSY : FieldRef := ⟨0x100, 0x140, 63, 63⟩
/-- R403. -/ def BWF_DR_CTRL.RESULT : FieldRef := ⟨0x100, 0x140, 62, 60⟩
/-- R403. -/ def BWF_DR_CTRL.WRITE : FieldRef := ⟨0x100, 0x140, 1, 1⟩
/-- R403. -/ def BWF_DR_CTRL.GO : FieldRef := ⟨0x100, 0x140, 0, 0⟩
/-- R404. -/ def BWF_REQ_CNT.TIMEOUT_CNT : FieldRef := ⟨0x100, 0x148, 63, 40⟩
/-- R404. -/ def BWF_REQ_CNT.NAK_CNT : FieldRef := ⟨0x100, 0x148, 39, 24⟩
/-- R404. -/ def BWF_REQ_CNT.LATE_CNT : FieldRef := ⟨0x100, 0x148, 23, 16⟩
/-- R404. -/ def BWF_REQ_CNT.DROP_CNT : FieldRef := ⟨0x100, 0x148, 15, 8⟩
/-- R404. -/ def BWF_REQ_CNT.EVT_DROP : FieldRef := ⟨0x100, 0x148, 7, 0⟩
/-- R382. -/ def BWF_RT.VALID : FieldRef := ⟨0x120, 0x0, 63, 63⟩
/-- R382. -/ def BWF_RT.DIST : FieldRef := ⟨0x120, 0x0, 35, 32⟩
/-- R382. -/ def BWF_RT.COUNT : FieldRef := ⟨0x120, 0x0, 31, 30⟩
/-- R382. -/ def BWF_RT.PORT3 : FieldRef := ⟨0x120, 0x0, 24, 20⟩
/-- R382. -/ def BWF_RT.PORT2 : FieldRef := ⟨0x120, 0x0, 19, 15⟩
/-- R382. -/ def BWF_RT.PORT1 : FieldRef := ⟨0x120, 0x0, 14, 10⟩
/-- R382. -/ def BWF_RT.PORT0 : FieldRef := ⟨0x120, 0x0, 9, 5⟩
/-- R430. -/ def COL_CTRL.SCHED : FieldRef := ⟨0x130, 0x0, 63, 63⟩
/-- R430. -/ def COL_CTRL.SHARE : FieldRef := ⟨0x130, 0x0, 59, 56⟩
/-- R430. -/ def COL_CTRL.LEAD : FieldRef := ⟨0x130, 0x0, 55, 40⟩
/-- R430. -/ def COL_CTRL.FLOOR_MS : FieldRef := ⟨0x130, 0x0, 39, 24⟩
/-- R430. -/ def COL_CTRL.TIMEOUT_MS : FieldRef := ⟨0x130, 0x0, 23, 0⟩
/-- R431. -/ def COL_CNT.DONE_CNT : FieldRef := ⟨0x130, 0x8, 63, 32⟩
/-- R431. -/ def COL_CNT.FAIL_CNT : FieldRef := ⟨0x130, 0x8, 31, 24⟩
/-- R431. -/ def COL_CNT.LATE_CNT : FieldRef := ⟨0x130, 0x8, 23, 16⟩
/-- R431. -/ def COL_CNT.FLOOR_CNT : FieldRef := ⟨0x130, 0x8, 15, 0⟩
/-- R432. -/ def COL_ERR.VALID : FieldRef := ⟨0x130, 0x10, 63, 63⟩
/-- R432. -/ def COL_ERR.CODE : FieldRef := ⟨0x130, 0x10, 62, 60⟩
/-- R432. -/ def COL_ERR.GROUP : FieldRef := ⟨0x130, 0x10, 59, 54⟩
/-- R432. -/ def COL_ERR.SEQ : FieldRef := ⟨0x130, 0x10, 31, 0⟩
/-- R433. -/ def COL_GRP_TABLE.ADDR : FieldRef := ⟨0x130, 0x100, 43, 1⟩
/-- R433. -/ def COL_GRP_CFG.VALID : FieldRef := ⟨0x130, 0x108, 63, 63⟩
/-- R433. -/ def COL_GRP_CFG.CRC : FieldRef := ⟨0x130, 0x108, 47, 16⟩
/-- R433. -/ def COL_GRP_CFG.RANKS : FieldRef := ⟨0x130, 0x108, 15, 0⟩
/-- R426. -/ def TMK_TIME.TIME : FieldRef := ⟨0x140, 0x0, 63, 0⟩
/-- R427. -/ def TMK_CTRL.MASTER : FieldRef := ⟨0x140, 0x8, 63, 63⟩
/-- R427. -/ def TMK_CTRL.PARENT_VALID : FieldRef := ⟨0x140, 0x8, 15, 15⟩
/-- R427. -/ def TMK_CTRL.PARENT_PORT : FieldRef := ⟨0x140, 0x8, 12, 8⟩
/-- R427. -/ def TMK_CTRL.TICK_SHIFT : FieldRef := ⟨0x140, 0x8, 4, 0⟩
/-- R428. -/ def TMK_STATUS.OFFSET : FieldRef := ⟨0x140, 0x10, 63, 32⟩
/-- R428. -/ def TMK_STATUS.DELAY : FieldRef := ⟨0x140, 0x10, 31, 16⟩
/-- R428. -/ def TMK_STATUS.SOURCE : FieldRef := ⟨0x140, 0x10, 4, 4⟩
/-- R428. -/ def TMK_STATUS.HOLDOVER : FieldRef := ⟨0x140, 0x10, 3, 3⟩
/-- R428. -/ def TMK_STATUS.AHEAD : FieldRef := ⟨0x140, 0x10, 2, 2⟩
/-- R428. -/ def TMK_STATUS.LOCKED : FieldRef := ⟨0x140, 0x10, 1, 1⟩
/-- R428. -/ def TMK_STATUS.ACQUIRED : FieldRef := ⟨0x140, 0x10, 0, 0⟩
/-- R429. -/ def TMK_SET.TIME : FieldRef := ⟨0x140, 0x18, 63, 0⟩
/-- R454. -/ def HPU_STATUS.WIDTH : FieldRef := ⟨0x150, 0x0, 21, 20⟩
/-- R454. -/ def HPU_STATUS.SPEED : FieldRef := ⟨0x150, 0x0, 19, 18⟩
/-- R454. -/ def HPU_STATUS.IN_SERVICE : FieldRef := ⟨0x150, 0x0, 8, 8⟩
/-- R454. -/ def HPU_STATUS.RESETTING : FieldRef := ⟨0x150, 0x0, 7, 7⟩
/-- R454. -/ def HPU_STATUS.BME : FieldRef := ⟨0x150, 0x0, 6, 6⟩
/-- R454. -/ def HPU_STATUS.MEM_EN : FieldRef := ⟨0x150, 0x0, 5, 5⟩
/-- R454. -/ def HPU_STATUS.CACHE_EN : FieldRef := ⟨0x150, 0x0, 4, 4⟩
/-- R454. -/ def HPU_STATUS.LINK : FieldRef := ⟨0x150, 0x0, 1, 0⟩
/-- R455. -/ def HPU_LOSS.LOSS_CNT : FieldRef := ⟨0x150, 0x8, 63, 48⟩
/-- R455. -/ def HPU_LOSS.RETRAIN_CNT : FieldRef := ⟨0x150, 0x8, 47, 32⟩
/-- R455. -/ def HPU_LOSS.UNCERTAIN : FieldRef := ⟨0x150, 0x8, 31, 16⟩
/-- R455. -/ def HPU_LOSS.DISCARD : FieldRef := ⟨0x150, 0x8, 1, 1⟩
/-- R455. -/ def HPU_LOSS.PENDING : FieldRef := ⟨0x150, 0x8, 0, 0⟩
/-- R456. -/ def HPU_CNT.VIOL_CNT : FieldRef := ⟨0x150, 0x10, 63, 40⟩
/-- R456. -/ def HPU_CNT.LINKRESET_CNT : FieldRef := ⟨0x150, 0x10, 39, 32⟩
/-- R456. -/ def HPU_CNT.HOST_DIRTY_LOST : FieldRef := ⟨0x150, 0x10, 31, 16⟩
/-- R456. -/ def HPU_CNT.BI_DROP_CNT : FieldRef := ⟨0x150, 0x10, 15, 0⟩
/-- R457. -/ def HPU_ERR.VALID : FieldRef := ⟨0x150, 0x18, 63, 63⟩
/-- R457. -/ def HPU_ERR.CODE : FieldRef := ⟨0x150, 0x18, 59, 56⟩
/-- R457. -/ def HPU_ERR.ADDR : FieldRef := ⟨0x150, 0x18, 43, 0⟩
/-- R458. -/ def HPU_DIR_CNT.LOOKUP_CNT : FieldRef := ⟨0x150, 0x20, 63, 32⟩
/-- R458. -/ def HPU_DIR_CNT.EVICT_CNT : FieldRef := ⟨0x150, 0x20, 31, 16⟩
/-- R459. -/ def HPU_DPORT_ADDR.ADDR : FieldRef := ⟨0x150, 0x100, 43, 2⟩
/-- R459. -/ def HPU_DPORT_STATUS.ERR : FieldRef := ⟨0x150, 0x108, 63, 63⟩
/-- R459. -/ def HPU_DPORT_STATUS.BYTES : FieldRef := ⟨0x150, 0x108, 47, 0⟩
/-- R460. -/ def HPU_P2P_BASE.VALID : FieldRef := ⟨0x150, 0x200, 63, 63⟩
/-- R460. -/ def HPU_P2P_BASE.BASE : FieldRef := ⟨0x150, 0x200, 43, 12⟩
/-- R460. -/ def HPU_P2P_LIMIT.LIMIT : FieldRef := ⟨0x150, 0x208, 43, 12⟩
/-- R461. -/ def UCI_STATUS.LEVEL : FieldRef := ⟨0x160, 0x0, 55, 48⟩
/-- R461. -/ def UCI_STATUS.MODULES : FieldRef := ⟨0x160, 0x0, 39, 36⟩
/-- R461. -/ def UCI_STATUS.RATE : FieldRef := ⟨0x160, 0x0, 35, 34⟩
/-- R461. -/ def UCI_STATUS.PROTO : FieldRef := ⟨0x160, 0x0, 33, 33⟩
/-- R461. -/ def UCI_STATUS.TEMP : FieldRef := ⟨0x160, 0x0, 31, 24⟩
/-- R461. -/ def UCI_STATUS.RESULT : FieldRef := ⟨0x160, 0x0, 11, 8⟩
/-- R461. -/ def UCI_STATUS.STATE : FieldRef := ⟨0x160, 0x0, 2, 0⟩
/-- R462. -/ def UCI_CTRL.MEASURE : FieldRef := ⟨0x160, 0x8, 1, 1⟩
/-- R462. -/ def UCI_CTRL.ADMIT : FieldRef := ⟨0x160, 0x8, 0, 0⟩
/-- R463. -/ def UCI_CNT.VIOL_CNT : FieldRef := ⟨0x160, 0x10, 63, 40⟩
/-- R463. -/ def UCI_CNT.LINKRESET_CNT : FieldRef := ⟨0x160, 0x10, 39, 32⟩
/-- R463. -/ def UCI_CNT.THERM_CNT : FieldRef := ⟨0x160, 0x10, 31, 16⟩
/-- R457. -/ def UCI_ERR.VALID : FieldRef := ⟨0x160, 0x18, 63, 63⟩
/-- R457. -/ def UCI_ERR.CODE : FieldRef := ⟨0x160, 0x18, 59, 56⟩
/-- R457. -/ def UCI_ERR.ADDR : FieldRef := ⟨0x160, 0x18, 43, 0⟩
/-- R464. -/ def UCI_DESC.DESC : FieldRef := ⟨0x160, 0x100, 63, 0⟩
/-- R483. -/ def HQ_DB.TAIL : FieldRef := ⟨0x170, 0x0, 63, 0⟩
/-- R484. -/ def HQ_CTRL.ENABLE : FieldRef := ⟨0x170, 0x4000, 63, 63⟩
/-- R484. -/ def HQ_CTRL.RERUN_LIMIT : FieldRef := ⟨0x170, 0x4000, 3, 0⟩
/-- R485. -/ def HQ_CTX.BASE : FieldRef := ⟨0x170, 0x4008, 43, 17⟩
/-- R486. -/ def HQ_JRNL.VALID : FieldRef := ⟨0x170, 0x4010, 63, 63⟩
/-- R486. -/ def HQ_JRNL.BASE : FieldRef := ⟨0x170, 0x4010, 43, 21⟩
/-- R486. -/ def HQ_JRNL.RECORDS : FieldRef := ⟨0x170, 0x4010, 15, 0⟩
/-- R486. -/ def HQ_JMIR.VALID : FieldRef := ⟨0x170, 0x4018, 63, 63⟩
/-- R486. -/ def HQ_JMIR.BASE : FieldRef := ⟨0x170, 0x4018, 43, 21⟩
/-- R486. -/ def HQ_JMIR.RECORDS : FieldRef := ⟨0x170, 0x4018, 15, 0⟩
/-- R487. -/ def HQ_PARTNER.EN : FieldRef := ⟨0x170, 0x4020, 63, 63⟩
/-- R487. -/ def HQ_PARTNER.PKG : FieldRef := ⟨0x170, 0x4020, 11, 0⟩
/-- R487. -/ def HQ_PARTNER_RX.VALID : FieldRef := ⟨0x170, 0x4028, 63, 63⟩
/-- R487. -/ def HQ_PARTNER_RX.ORIGIN : FieldRef := ⟨0x170, 0x4028, 59, 48⟩
/-- R487. -/ def HQ_PARTNER_RX.BASE : FieldRef := ⟨0x170, 0x4028, 43, 25⟩
/-- R488. -/ def HQ_QCMD.BUSY : FieldRef := ⟨0x170, 0x4040, 63, 63⟩
/-- R488. -/ def HQ_QCMD.RESULT : FieldRef := ⟨0x170, 0x4040, 62, 60⟩
/-- R488. -/ def HQ_QCMD.OP : FieldRef := ⟨0x170, 0x4040, 12, 11⟩
/-- R488. -/ def HQ_QCMD.QUEUE : FieldRef := ⟨0x170, 0x4040, 10, 0⟩
/-- R489. -/ def HQ_QSTAT.STATE : FieldRef := ⟨0x170, 0x4048, 63, 62⟩
/-- R489. -/ def HQ_QSTAT.STOP : FieldRef := ⟨0x170, 0x4048, 61, 58⟩
/-- R489. -/ def HQ_QSTAT.ACCEPTED : FieldRef := ⟨0x170, 0x4048, 47, 0⟩
/-- R490. -/ def HQ_STATUS.DEGRADED : FieldRef := ⟨0x170, 0x4050, 63, 63⟩
/-- R490. -/ def HQ_STATUS.PARTNER_DOWN : FieldRef := ⟨0x170, 0x4050, 62, 62⟩
/-- R490. -/ def HQ_STATUS.TAKEOVER : FieldRef := ⟨0x170, 0x4050, 61, 61⟩
/-- R490. -/ def HQ_STATUS.FREE : FieldRef := ⟨0x170, 0x4050, 15, 0⟩
/-- R491. -/ def HQ_CNT.ACCEPT_CNT : FieldRef := ⟨0x170, 0x4058, 63, 32⟩
/-- R491. -/ def HQ_CNT.RERUN_CNT : FieldRef := ⟨0x170, 0x4058, 31, 16⟩
/-- R491. -/ def HQ_CNT.FAIL_CNT : FieldRef := ⟨0x170, 0x4058, 15, 8⟩
/-- R491. -/ def HQ_CNT.JRNL_FULL_CNT : FieldRef := ⟨0x170, 0x4058, 7, 0⟩
/-- R492. -/ def HQ_ERR.VALID : FieldRef := ⟨0x170, 0x4060, 63, 63⟩
/-- R492. -/ def HQ_ERR.CODE : FieldRef := ⟨0x170, 0x4060, 62, 60⟩
/-- R492. -/ def HQ_ERR.QUEUE : FieldRef := ⟨0x170, 0x4060, 11, 0⟩
/-- R537. -/ def HQ_PEER_CFG.WORD : FieldRef := ⟨0x170, 0x4080, 63, 0⟩
/-- R483. -/ def HQ_DB_PEER.TAIL : FieldRef := ⟨0x170, 0x8000, 63, 0⟩
/-- R24. -/ def PKG_ID.ID_VALID : FieldRef := ⟨0x180, 0x0, 31, 31⟩
/-- R24. -/ def PKG_ID.LOC_ID : FieldRef := ⟨0x180, 0x0, 27, 16⟩
/-- R24. -/ def PKG_ID.ID : FieldRef := ⟨0x180, 0x0, 11, 0⟩
/-- R3. -/ def PKG_CFGCODE.CS1_STATE : FieldRef := ⟨0x180, 0x8, 15, 12⟩
/-- R3. -/ def PKG_CFGCODE.CS0_STATE : FieldRef := ⟨0x180, 0x8, 11, 8⟩
/-- R3. -/ def PKG_CFGCODE.FUSED : FieldRef := ⟨0x180, 0x8, 7, 7⟩
/-- R26. -/ def PKG_REVLEVEL.CS1 : FieldRef := ⟨0x180, 0x10, 63, 56⟩
/-- R26. -/ def PKG_REVLEVEL.CS0 : FieldRef := ⟨0x180, 0x10, 55, 48⟩
/-- R26. -/ def PKG_REVLEVEL.Q1 : FieldRef := ⟨0x180, 0x10, 47, 40⟩
/-- R26. -/ def PKG_REVLEVEL.Q0 : FieldRef := ⟨0x180, 0x10, 39, 32⟩
/-- R26. -/ def PKG_REVLEVEL.C3 : FieldRef := ⟨0x180, 0x10, 31, 24⟩
/-- R26. -/ def PKG_REVLEVEL.C2 : FieldRef := ⟨0x180, 0x10, 23, 16⟩
/-- R26. -/ def PKG_REVLEVEL.C1 : FieldRef := ⟨0x180, 0x10, 15, 8⟩
/-- R26. -/ def PKG_REVLEVEL.C0 : FieldRef := ⟨0x180, 0x10, 7, 0⟩
/-- R25. -/ def PKG_SERIAL.SERIAL : FieldRef := ⟨0x180, 0x18, 47, 0⟩
/-- R27. -/ def PKG_FEATLEVEL.MISMATCH : FieldRef := ⟨0x180, 0x20, 8, 8⟩
/-- R27. -/ def PKG_FEATLEVEL.EFFECTIVE : FieldRef := ⟨0x180, 0x20, 7, 0⟩
/-- R267. -/ def PKG_ERRATA.APPLIED : FieldRef := ⟨0x180, 0x28, 63, 0⟩
/-- R268. -/ def PKG_DIE_RESET.STOPPED : FieldRef := ⟨0x180, 0x30, 11, 8⟩
/-- R268. -/ def PKG_DIE_RESET.RESET : FieldRef := ⟨0x180, 0x30, 3, 0⟩
/-- R305. -/ def PKG_DIRGEN.GEN : FieldRef := ⟨0x180, 0x38, 63, 0⟩
/-- R325. -/ def PKG_FAB_TIMEOUT.TIMEOUT_US : FieldRef := ⟨0x180, 0x40, 16, 0⟩
/-- R520. -/ def PKG_CAP.TRAY_POINT : FieldRef := ⟨0x180, 0x80, 51, 48⟩
/-- R520. -/ def PKG_CAP.TRAY_CAP_W : FieldRef := ⟨0x180, 0x80, 47, 32⟩
/-- R520. -/ def PKG_CAP.FAST_W : FieldRef := ⟨0x180, 0x80, 31, 16⟩
/-- R520. -/ def PKG_CAP.CAP_W : FieldRef := ⟨0x180, 0x80, 15, 0⟩
/-- R521. -/ def PKG_CAPSTAT.OVER_CAP : FieldRef := ⟨0x180, 0x88, 63, 63⟩
/-- R521. -/ def PKG_CAPSTAT.TRAY_LIMIT : FieldRef := ⟨0x180, 0x88, 62, 62⟩
/-- R521. -/ def PKG_CAPSTAT.FLOOR : FieldRef := ⟨0x180, 0x88, 61, 61⟩
/-- R521. -/ def PKG_CAPSTAT.LEVEL : FieldRef := ⟨0x180, 0x88, 53, 48⟩
/-- R521. -/ def PKG_CAPSTAT.SLOW_AVG : FieldRef := ⟨0x180, 0x88, 47, 32⟩
/-- R521. -/ def PKG_CAPSTAT.FAST_AVG : FieldRef := ⟨0x180, 0x88, 31, 16⟩
/-- R521. -/ def PKG_CAPSTAT.PERIOD_W : FieldRef := ⟨0x180, 0x88, 15, 0⟩
/-- R522. -/ def PKG_ENERGY.ENERGY_UJ : FieldRef := ⟨0x180, 0x90, 63, 0⟩
/-- R522. -/ def PKG_TMETER.ENERGY_UJ : FieldRef := ⟨0x180, 0xC0, 63, 0⟩
/-- R522. -/ def PKG_TCOEF.COEFF : FieldRef := ⟨0x180, 0x100, 31, 0⟩
/-- R230. -/ def PKG_RAT_CTRL.BUSY : FieldRef := ⟨0x180, 0x3F0, 63, 63⟩
/-- R230. -/ def PKG_RAT_CTRL.COMMIT : FieldRef := ⟨0x180, 0x3F0, 0, 0⟩
/-- R231. -/ def PKG_RAT_BASE.VALID : FieldRef := ⟨0x180, 0x400, 63, 63⟩
/-- R231. -/ def PKG_RAT_BASE.BASE : FieldRef := ⟨0x180, 0x400, 43, 21⟩
/-- R231. -/ def PKG_RAT_LIMIT.LIMIT : FieldRef := ⟨0x180, 0x408, 43, 21⟩
/-- R231. -/ def PKG_RAT_LIMIT.COHERENT : FieldRef := ⟨0x180, 0x408, 2, 2⟩
/-- R231. -/ def PKG_RAT_LIMIT.POLICY : FieldRef := ⟨0x180, 0x408, 1, 0⟩
/-- R515. -/ def EVT_QPOINT.BUSY : FieldRef := ⟨0x190, 0x100, 63, 63⟩
/-- R515. -/ def EVT_QPOINT.DEFERRED : FieldRef := ⟨0x190, 0x100, 62, 62⟩
/-- R515. -/ def EVT_QPOINT.CAP : FieldRef := ⟨0x190, 0x100, 27, 27⟩
/-- R515. -/ def EVT_QPOINT.THERM : FieldRef := ⟨0x190, 0x100, 26, 26⟩
/-- R515. -/ def EVT_QPOINT.NEIGHBOUR : FieldRef := ⟨0x190, 0x100, 25, 25⟩
/-- R515. -/ def EVT_QPOINT.TIMING : FieldRef := ⟨0x190, 0x100, 24, 24⟩
/-- R515. -/ def EVT_QPOINT.CEIL : FieldRef := ⟨0x190, 0x100, 19, 16⟩
/-- R515. -/ def EVT_QPOINT.CUR : FieldRef := ⟨0x190, 0x100, 11, 8⟩
/-- R515. -/ def EVT_QPOINT.REQ : FieldRef := ⟨0x190, 0x100, 3, 0⟩
/-- R516. -/ def EVT_QENERGY.ENERGY_UJ : FieldRef := ⟨0x190, 0x108, 63, 0⟩
/-- R517. -/ def EVT_QTHERM.TJ_THROT : FieldRef := ⟨0x190, 0x110, 55, 48⟩
/-- R517. -/ def EVT_QTHERM.TJ_MAX : FieldRef := ⟨0x190, 0x110, 23, 16⟩
/-- R518. -/ def EVT_QDROOP.ACTIVE : FieldRef := ⟨0x190, 0x118, 63, 63⟩
/-- R518. -/ def EVT_QDROOP.DROOP_CNT : FieldRef := ⟨0x190, 0x118, 31, 0⟩
/-- R519. -/ def EVT_QVF.FREQ : FieldRef := ⟨0x190, 0x180, 47, 32⟩
/-- R519. -/ def EVT_QVF.VOLT : FieldRef := ⟨0x190, 0x180, 31, 16⟩
/-- R519. -/ def EVT_QVF.VMIN : FieldRef := ⟨0x190, 0x180, 15, 0⟩
/-- R569. -/ def LHT_CMD.BUSY : FieldRef := ⟨0x1B0, 0x0, 63, 63⟩
/-- R569. -/ def LHT_CMD.RESULT : FieldRef := ⟨0x1B0, 0x0, 55, 48⟩
/-- R569. -/ def LHT_CMD.ARG : FieldRef := ⟨0x1B0, 0x0, 39, 8⟩
/-- R569. -/ def LHT_CMD.OP : FieldRef := ⟨0x1B0, 0x0, 7, 0⟩
/-- R570. -/ def LHT_PROGRESS.EVENT : FieldRef := ⟨0x1B0, 0x8, 9, 8⟩
/-- R570. -/ def LHT_PROGRESS.SLOT : FieldRef := ⟨0x1B0, 0x8, 7, 0⟩
/-- R571. -/ def LHT_BOOT.LAST_SLOT : FieldRef := ⟨0x1B0, 0x10, 63, 56⟩
/-- R571. -/ def LHT_BOOT.READY : FieldRef := ⟨0x1B0, 0x10, 7, 7⟩
/-- R571. -/ def LHT_BOOT.HALTED : FieldRef := ⟨0x1B0, 0x10, 6, 6⟩
/-- R571. -/ def LHT_BOOT.DONE : FieldRef := ⟨0x1B0, 0x10, 5, 5⟩
/-- R571. -/ def LHT_BOOT.STACK_CONSERVATIVE : FieldRef := ⟨0x1B0, 0x10, 3, 3⟩
/-- R571. -/ def LHT_BOOT.JETTY_REDUCED : FieldRef := ⟨0x1B0, 0x10, 2, 2⟩
/-- R571. -/ def LHT_BOOT.IMAGE_ALT : FieldRef := ⟨0x1B0, 0x10, 1, 1⟩
/-- R571. -/ def LHT_BOOT.IMAGE : FieldRef := ⟨0x1B0, 0x10, 0, 0⟩
/-- R572. -/ def LHT_STARTCNT.COUNT : FieldRef := ⟨0x1B0, 0x18, 63, 0⟩
/-- R572. -/ def LHT_BUF.DATA : FieldRef := ⟨0x1B0, 0x800, 63, 0⟩
/-- R236. -/ def IOM_CAPABILITIES.CAP : FieldRef := ⟨0x1D0, 0x0, 63, 0⟩
/-- R236. -/ def IOM_FCTL.WSI : FieldRef := ⟨0x1D0, 0x8, 1, 1⟩
/-- R236. -/ def IOM_DDTP.PPN : FieldRef := ⟨0x1D0, 0x10, 53, 10⟩
/-- R236. -/ def IOM_DDTP.BUSY : FieldRef := ⟨0x1D0, 0x10, 4, 4⟩
/-- R236. -/ def IOM_DDTP.MODE : FieldRef := ⟨0x1D0, 0x10, 3, 0⟩
/-- R236. -/ def IOM_CQB.PPN : FieldRef := ⟨0x1D0, 0x18, 53, 10⟩
/-- R236. -/ def IOM_CQB.LOG2SZ : FieldRef := ⟨0x1D0, 0x18, 4, 0⟩
/-- R236. -/ def IOM_CQHT.TAIL : FieldRef := ⟨0x1D0, 0x20, 63, 32⟩
/-- R236. -/ def IOM_CQHT.HEAD : FieldRef := ⟨0x1D0, 0x20, 31, 0⟩
/-- R236. -/ def IOM_FQB.PPN : FieldRef := ⟨0x1D0, 0x28, 53, 10⟩
/-- R236. -/ def IOM_FQB.LOG2SZ : FieldRef := ⟨0x1D0, 0x28, 4, 0⟩
/-- R236. -/ def IOM_FQHT.TAIL : FieldRef := ⟨0x1D0, 0x30, 63, 32⟩
/-- R236. -/ def IOM_FQHT.HEAD : FieldRef := ⟨0x1D0, 0x30, 31, 0⟩
/-- R236. -/ def IOM_QCSR0.FQON : FieldRef := ⟨0x1D0, 0x48, 48, 48⟩
/-- R236. -/ def IOM_QCSR0.FQOF : FieldRef := ⟨0x1D0, 0x48, 41, 41⟩
/-- R236. -/ def IOM_QCSR0.FQMF : FieldRef := ⟨0x1D0, 0x48, 40, 40⟩
/-- R236. -/ def IOM_QCSR0.FIE : FieldRef := ⟨0x1D0, 0x48, 33, 33⟩
/-- R236. -/ def IOM_QCSR0.FQEN : FieldRef := ⟨0x1D0, 0x48, 32, 32⟩
/-- R236. -/ def IOM_QCSR0.CQON : FieldRef := ⟨0x1D0, 0x48, 16, 16⟩
/-- R236. -/ def IOM_QCSR0.FENCE_W_IP : FieldRef := ⟨0x1D0, 0x48, 11, 11⟩
/-- R236. -/ def IOM_QCSR0.CMD_ILL : FieldRef := ⟨0x1D0, 0x48, 10, 10⟩
/-- R236. -/ def IOM_QCSR0.CMD_TO : FieldRef := ⟨0x1D0, 0x48, 9, 9⟩
/-- R236. -/ def IOM_QCSR0.CQMF : FieldRef := ⟨0x1D0, 0x48, 8, 8⟩
/-- R236. -/ def IOM_QCSR0.CIE : FieldRef := ⟨0x1D0, 0x48, 1, 1⟩
/-- R236. -/ def IOM_QCSR0.CQEN : FieldRef := ⟨0x1D0, 0x48, 0, 0⟩
/-- R236. -/ def IOM_IPSR.IPSR : FieldRef := ⟨0x1D0, 0x50, 35, 32⟩
/-- R236. -/ def IOM_OVFINH.IOCOUNTINH : FieldRef := ⟨0x1D0, 0x58, 63, 32⟩
/-- R236. -/ def IOM_OVFINH.IOCOUNTOVF : FieldRef := ⟨0x1D0, 0x58, 31, 0⟩
/-- R236. -/ def IOM_HPMCYCLES.CYCLES : FieldRef := ⟨0x1D0, 0x60, 63, 0⟩
/-- R236. -/ def IOM_HPMCTR.CTR : FieldRef := ⟨0x1D0, 0x68, 63, 0⟩
/-- R236. -/ def IOM_HPMEVT.EVT : FieldRef := ⟨0x1D0, 0x160, 63, 0⟩
/-- R236. -/ def IOM_ICVEC.VEC : FieldRef := ⟨0x1D0, 0x2F8, 15, 0⟩
/-- R236. -/ def IOM_MSI_CFG.WORD : FieldRef := ⟨0x1D0, 0x300, 63, 0⟩
/-- R583. -/ def STL_STATUS.COPY_BUSY : FieldRef := ⟨0x1A0, 0x0, 63, 63⟩
/-- R583. -/ def STL_STATUS.COPY_PENDING : FieldRef := ⟨0x1A0, 0x0, 62, 62⟩
/-- R583. -/ def STL_STATUS.LAST_SLOT : FieldRef := ⟨0x1A0, 0x0, 61, 59⟩
/-- R583. -/ def STL_STATUS.SUPPRESSED_CNT : FieldRef := ⟨0x1A0, 0x0, 47, 32⟩
/-- R583. -/ def STL_STATUS.LAST_SEQ : FieldRef := ⟨0x1A0, 0x0, 31, 0⟩
/-- R583. -/ def STL_RING.OLDEST_SEQ : FieldRef := ⟨0x1A0, 0x8, 63, 32⟩
/-- R583. -/ def STL_RING.HEAD : FieldRef := ⟨0x1A0, 0x8, 20, 3⟩
/-- R584. -/ def STL_CURSOR.READY : FieldRef := ⟨0x1A0, 0x10, 63, 63⟩
/-- R584. -/ def STL_CURSOR.SOURCE : FieldRef := ⟨0x1A0, 0x10, 58, 56⟩
/-- R584. -/ def STL_CURSOR.PAGE : FieldRef := ⟨0x1A0, 0x10, 23, 12⟩
/-- R584. -/ def STL_WINDOW.WORD : FieldRef := ⟨0x1A0, 0x1000, 63, 0⟩
/-- R585. -/ def STL_TRIG_CFG.EN : FieldRef := ⟨0x1A0, 0x2000, 63, 63⟩
/-- R585. -/ def STL_TRIG_CFG.MARK : FieldRef := ⟨0x1A0, 0x2000, 62, 62⟩
/-- R585. -/ def STL_TRIG_CFG.SRC : FieldRef := ⟨0x1A0, 0x2000, 55, 52⟩
/-- R585. -/ def STL_TRIG_CFG.SET : FieldRef := ⟨0x1A0, 0x2000, 51, 48⟩
/-- R585. -/ def STL_TRIG_CFG.SNAP : FieldRef := ⟨0x1A0, 0x2000, 47, 47⟩
/-- R585. -/ def STL_TRIG_CFG.HOLDOFF_MS : FieldRef := ⟨0x1A0, 0x2000, 31, 16⟩
/-- R585. -/ def STL_TRIG_CFG.MIN_SEV : FieldRef := ⟨0x1A0, 0x2000, 1, 0⟩
/-- R585. -/ def STL_TRIG_MATCH.MATCH_MASK : FieldRef := ⟨0x1A0, 0x2008, 63, 32⟩
/-- R585. -/ def STL_TRIG_MATCH.MATCH_VALUE : FieldRef := ⟨0x1A0, 0x2008, 31, 0⟩
/-- R586. -/ def STL_SET_ENT.EN : FieldRef := ⟨0x1A0, 0x3000, 63, 63⟩
/-- R586. -/ def STL_SET_ENT.ADDR : FieldRef := ⟨0x1A0, 0x3000, 43, 3⟩
/-- R402. -/ def BWF_EVT_LO.EARLIEST : FieldRef := ⟨0x100, 0x118, 63, 0⟩
/-- R402. -/ def BWF_EVT_HI.VALID : FieldRef := ⟨0x100, 0x120, 63, 63⟩
/-- R402. -/ def BWF_EVT_HI.LATE : FieldRef := ⟨0x100, 0x120, 62, 62⟩
/-- R402. -/ def BWF_EVT_HI.CLASS : FieldRef := ⟨0x100, 0x120, 59, 56⟩
/-- R402. -/ def BWF_EVT_HI.TARGET : FieldRef := ⟨0x100, 0x120, 55, 44⟩
/-- R402. -/ def BWF_EVT_HI.COUNT : FieldRef := ⟨0x100, 0x120, 43, 28⟩
/-- R402. -/ def BWF_EVT_HI.PERIOD : FieldRef := ⟨0x100, 0x120, 27, 0⟩
/-- R523. -/ def EVT_STATUS.STOPPED : FieldRef := ⟨0x190, 0x0, 63, 63⟩
/-- R523. -/ def EVT_STATUS.STOP_SRC : FieldRef := ⟨0x190, 0x0, 55, 48⟩
/-- R523. -/ def EVT_STATUS.STOP_TICK : FieldRef := ⟨0x190, 0x0, 47, 0⟩
/-- R524. -/ def EVT_TICK.TICK : FieldRef := ⟨0x190, 0x8, 63, 0⟩
/-- R524. -/ def EVT_SW.CODE : FieldRef := ⟨0x190, 0x10, 15, 0⟩
/-- R525. -/ def EVT_CNT.DISCARD_CNT : FieldRef := ⟨0x190, 0x18, 63, 48⟩
/-- R525. -/ def EVT_CNT.DEFER_CNT : FieldRef := ⟨0x190, 0x18, 47, 32⟩
/-- R525. -/ def EVT_CNT.CAPCHG_CNT : FieldRef := ⟨0x190, 0x18, 31, 16⟩
/-- R525. -/ def EVT_CNT.SW_CNT : FieldRef := ⟨0x190, 0x18, 15, 0⟩
/-- R526. -/ def EVT_NOTIFY.EN : FieldRef := ⟨0x190, 0x20, 63, 63⟩
/-- R526. -/ def EVT_NOTIFY.ON_CAP : FieldRef := ⟨0x190, 0x20, 62, 62⟩
/-- R526. -/ def EVT_NOTIFY.ON_THERM : FieldRef := ⟨0x190, 0x20, 61, 61⟩
/-- R526. -/ def EVT_NOTIFY.ON_SW : FieldRef := ⟨0x190, 0x20, 60, 60⟩
/-- R526. -/ def EVT_NOTIFY.HART : FieldRef := ⟨0x190, 0x20, 23, 18⟩
/-- R526. -/ def EVT_NOTIFY.FILE : FieldRef := ⟨0x190, 0x20, 16, 16⟩
/-- R526. -/ def EVT_NOTIFY.EIID : FieldRef := ⟨0x190, 0x20, 7, 0⟩

end Sys2Proof
end

