-- ==== Sys2Proof/Machine/StateCoh.lean ====
section
/-!
DEFINITION. Plain data of coherence (chapter 10), the harts (chapters 11 and 12) and the tidal range (chapter 13).
-/
namespace Sys2Proof.Machine

/-- Where a tidal page lies (R350 to R352). -/
inductive Slot2M where
  | pool (n : Nat)
  | reserve (n : Nat)
  deriving DecidableEq, Repr

/-- An allocated entry of the remap table (R351, R353, R356). -/
structure Page where
  slot : Slot2M
  account : Nat
  age : Nat
  migrating : Bool
  deriving DecidableEq, Repr

/-- The tidal engine: the command that runs (OP, page, account), its phase, the page, source and destination of the
migration in progress, the second migration that follows (R354), and the dies that have acknowledged (R353). -/
structure Tdl where
  cmd : Option (Nat × Nat × Nat)
  phase : Nat
  page : Nat
  src : Slot2M
  dst : Slot2M
  second : Option (Nat × Slot2M × Slot2M)
  acks : List Nat
  deriving DecidableEq, Repr

/-- A host line that the home proxy holds (R270, R438): its bytes, poison, whether it may be written, whether the package
changed it, whether the proxy has it for one access and does not hold it after, and whether it is leaving for the host. -/
structure HostLine where
  data : List Byte
  poison : Bool
  owned : Bool
  dirty : Bool
  lent : Bool
  leaving : Bool
  deriving DecidableEq, Repr

/-- A directory entry (R272), with the way that holds it. `sharers` is the vector of R269. -/
structure DirEnt where
  owned : Bool
  sharers : Nat
  way : Nat
  deriving DecidableEq, Repr

/-- The messages of R279. -/
inductive MsgKind where
  | rdS | rdE | rdNc | wrInv | wrWt | wb | wbSnp | evict | snpDown | snpInv | datS | datE | datNc | grantE | cmp | wback
  | rspI | rspS | rspIWb
  deriving DecidableEq, Repr

/-- A message about one line between a home and an agent: agents 0 to 8 are those of R269, 9 an engine, 10 and above
other non-caching requesters. `nc` is the attribute that a request carries: its address is non-coherent (R228). -/
structure Msg where
  kind : MsgKind
  agent : Nat
  line : Nat
  data : List Byte
  mask : Nat
  poison : Bool
  keepS : Bool
  tag : Nat
  nc : Bool := false
  deriving DecidableEq, Repr

/-- A request that a home serves (R281, R284): the agents whose snoop response is awaited, those whose WB is awaited,
those whose WB came in time, whether the owner kept S, whether it is a directory eviction, and whether it waits for the
host. -/
structure Txn where
  req : Msg
  snoops : List Nat
  wbp : List Nat
  gotWb : List Nat
  kept : Bool
  evicts : Bool
  hostWait : Bool
  deriving DecidableEq, Repr

/-- States of a held line (R278). -/
inductive LineSt where
  | m | e | s
  deriving DecidableEq, Repr

/-- A line in a cache. -/
structure CLine where
  st : LineSt
  data : List Byte
  poison : Bool
  way : Nat
  used : Nat
  deriving DecidableEq, Repr

/-- A merging-buffer entry (R291); `due` says that it is to drain once the WB of its line is acknowledged (R281). -/
structure MergeEnt where
  line : Nat
  data : List Byte
  mask : Nat
  harts : List Nat
  due : Bool := false
  deriving DecidableEq, Repr

/-- A write that a cache has sent and whose RSP_CMP it awaits (R283, R291, R308): its line, the stores that it performs (hart,
number), and the harts whose merged stores it holds. -/
structure WriteOut where
  line : Nat
  stores : List (Nat × Nat)
  harts : List Nat
  deriving DecidableEq, Repr

/-- A stream that the prefetcher tracks (R292): its requester, last line, stride and accesses at that stride. -/
structure PfStream where
  who : Nat
  last : Nat
  stride : Int
  count : Nat
  deriving DecidableEq, Repr

/-- A range operation that runs (R293): the lines whose write-back is not yet acknowledged, the operation, whether it leaves lines in
locked ways, and the lines that it acts on once their outstanding requests complete. -/
structure RangeOp where
  waits : List Nat
  op : Nat
  skip : Bool
  later : List Nat
  deriving DecidableEq, Repr

/-- An SLC or RLC (R287): held lines, side buffer, merging buffer, lines whose WB awaits RSP_WBACK with the data kept for
a stopped home, streams, the range engine, and the writes whose RSP_CMP is awaited, oldest first. -/
structure Cache where
  lines : SMap CLine
  side : List (Nat × CLine)
  merge : List MergeEnt
  wb : SMap CLine
  streams : List PfStream
  tick : Nat
  rng : Option RangeOp
  outs : List WriteOut
  deriving DecidableEq, Repr

/-- What a hart does with a line; `ratom` is an atomic that an RLC performs for a stream (R287). -/
inductive HartOp where
  | load | lr | sc | amo | store | zero | ratom
  deriving DecidableEq, Repr

/-- A request for a line that awaits its answer: the cache, the line, whether it goes to the side buffer, the requester's
class, and for a hart's access the hart, operation, address, size (a store's byte mask), data and code (AMO, the number of
a store, 1 for an LR in a constrained loop; a stream atomic's code of R387 plus 32 × command number). A load's data and code
are the bytes, and their mask, that it takes from earlier stores of its hart; `io` says that it is of I/O kind (R329), `nc` that it was sent as
RD_NC, `stale` that its cache has sent a write of the line since it asked for it. -/
structure Mshr where
  agent : Nat
  line : Nat
  side : Bool
  cls : Nat
  hart : Option Nat
  op : HartOp
  addr : Nat
  len : Nat
  data : List Byte
  code : Nat
  sent : Bool
  io : Bool := false
  nc : Bool := false
  stale : Bool := false
  deriving DecidableEq, Repr

/-- A store in a hart's store buffer (R308): its number, address, bytes and byte mask, whether it has left the hart, and its
PBMT: 0 PMA, 1 NC, 2 IO (R329); 3 marks an entry drained from the non-temporal buffer (R311). -/
structure SbEnt where
  id : Nat
  addr : Nat
  data : List Byte
  mask : Nat
  sent : Bool
  pbmt : Nat
  deriving DecidableEq, Repr

/-- A non-temporal entry (R311). -/
structure NtEnt where
  line : Nat
  data : List Byte
  mask : Nat
  deriving DecidableEq, Repr

/-- One Headland hart's memory side and management state (chapters 11 and 12): the store buffer, the non-temporal buffer,
the reservation and whether a constrained loop defers snoops, a FENCE that waits (predecessor set plus 16 × successor set:
r 1, w 2, i 4, o 8), an mdrain that waits, mdrain.FAILED, interrupt 16, the machine timer interrupt, the cause of an
offlining in progress, lines whose write-back a cbo operation awaits, stores that failed and are not yet recorded
(number, KIND of R326, address), and mhpmevent3 to 10, their counters and local interrupt 13 (R593). -/
structure Hart where
  stores : List SbEnt
  nt : List NtEnt
  nextId : Nat
  resv : Option Nat
  deferring : Bool
  fence : Option Nat
  mdrain : Bool
  failed : Nat
  irq16 : Bool
  mtip : Bool
  stopping : Nat
  wbWait : List Nat
  failing : List (Nat × Nat × Nat)
  hpmEvent : SMap Word
  hpm : SMap Nat
  irq13 : Bool
  deriving DecidableEq, Repr

end Sys2Proof.Machine
end

