-- ==== Sys2Proof/Machine/StateCol.lean ====
section
/-!
DEFINITION. Plain data of Tidemark and the collective engines (chapter 15).
-/
namespace Sys2Proof.Machine

/-- One end of a link that exchanges TICK markers (R407): the next SEQ, the time at which each marker was sent, the peer's last
SEQ and when it arrived; times in 1/16 ns. -/
structure TickEnd where
  seq : Nat
  sent : SMap Nat
  peer : Option (Nat × Nat)
  deriving DecidableEq, Repr

/-- Tidemark beside its counts: the ends of its links, the last offsets of the time source in 1/16 ns, what each copy has
still to slew in units of 1/10240 ns, and the markers on Jetty (to, from, unit). -/
structure Tidemark where
  ends : SMap TickEnd
  offs : List Int
  slew : SMap Int
  wire : List (Nat × Nat × Nat)
  deriving DecidableEq, Repr

/-- A collective command at an engine (R413): the Q-die and queue that carried it, with the queue's device ID and PASID, its
fields, whether it has launched, its source as read, which of its segments read poisoned, and the segments written to DST
by block and index. -/
structure ColCmd where
  q : Nat
  queue : Nat
  pasid : Nat
  op : Nat
  fmt : Nat
  red : Nat
  group : Nat
  rank : Nat
  root : Nat
  seq : Nat
  count : Nat
  src : Nat
  dst : Nat
  tick : Nat
  scope : Nat
  token : Nat
  reserved : Bool
  launched : Bool
  data : List Byte
  got : List Nat
  deriving DecidableEq, Repr

/-- A value for a node of the tree (R415, R418): positions, segment and bytes. -/
structure ColVal where
  lo : Nat
  hi : Nat
  seg : Nat
  data : List Byte
  deriving DecidableEq, Repr

/-- An instance (R417): its commands here, values received from children, results and gathered blocks
received, what has been sent (destination, kind and node, segment), the release tick, and whether it holds the collective floor (R425). -/
structure ColInst where
  group : Nat
  seq : Nat
  cmds : List ColCmd
  vals : List ColVal
  inbound : List ColVal
  sent : List (Nat × Nat × Nat)
  release : Option Nat
  floor : Bool
  deriving DecidableEq, Repr

/-- The collective engines: commands on their way, the copied rank tables by Q-die × 64 + group, instances, groups that have
failed until they are written VALID again, barrier releases that wait for their tick (die, token counter, tick), and by group the SEQ of the
last instance that completed here, whose messages may arrive a second time (R375). -/
structure Coll where
  coming : List ColCmd
  tables : SMap (List Nat)
  insts : List ColInst
  failed : List Nat
  releases : List (Nat × Nat × Nat)
  ended : SMap Nat
  deriving DecidableEq, Repr

end Sys2Proof.Machine
end

