-- ==== Sys2Proof/Machine/StateFab.lean ====
section
/-!
DEFINITION. Plain data of the Glaze units (chapter 07), the Breakwater ports and their requests (chapter 14).
-/
namespace Sys2Proof.Machine

/-! ## Glaze units -/

/-- Where a Glaze command or atomic came from: a stream command by die and number, a queue entry by queue, a fabric request
by source package, agent and tag with the port it came from. -/
inductive GlzSrc where
  | stream (die id core ctx : Nat)
  | queue (q : Nat)
  | fabric (port pkg agent tag : Nat)
  deriving DecidableEq, Repr

/-- A command of a Glaze unit with its progress record (R206): operation (8 is an atomic, `aop` its code of R387),
target and source addresses after translation, descriptor, atomic operands, journal key, the first uncommitted stroke,
whether that stroke is computed and the bytes it writes (its shadow, once marked SHADOWED), the old value of an atomic,
bytes fetched from other packages with the lines held and the lines asked for, the port it arrives by (R190), a failure
found before it arrives, and the lines fetched that are poisoned. Of a gather, its strokes once its index list has been read (0 before),
and for a stream's rows the window they translate by: BASE, LIMIT and PHYS (R195). Of a queue entry, the parts of its sources that are
not contiguous (address, physical address, length) and who translates its rows: IOMMU, device and PASID (R195). `held`: the home holds
the lines of the computed stroke (R203); `orphan`: its source is gone with a package reset, and its end is told to nobody (R207). -/
structure GlzCmd where
  src : GlzSrc
  gop : Nat
  aop : Nat
  target : Nat
  srcA : Nat
  srcB : Nat
  srcC : Nat
  desc : List Byte
  operand : Nat
  compare : Nat
  key : Option (Nat × Nat)
  stroke : Nat
  ready : Bool
  writes : List (Nat × List Byte)
  old : Nat
  remote : Memory
  have_ : List Nat
  asked : List Nat
  port : Nat
  early : Nat
  rbad : List Nat := []
  total : Nat := 0
  rowWin : Option (Nat × Nat × Nat) := none
  parts : List (Nat × Nat × Nat) := []
  dev : Option (Nat × Nat × Nat) := none
  held : Bool := false
  orphan : Bool := false
  deriving DecidableEq, Repr

/-- A staging record (R208): vault block, its data, the staged bytes as a mask, its key, and whether it is poisoned. -/
structure StageRec where
  block : Nat
  data : List Byte
  mask : Nat
  key : Nat × Nat
  poison : Bool
  deriving DecidableEq, Repr

/-- One Glaze unit: commands held in arrival order, commands on their way or held for it by a queue engine or a Breakwater port, the
staging records, the area (base and size in MiB) that holds its records, the commits (true) and discards it has to perform with their
keys, oldest first, and the progress and staging records that a reset has left in the area and no scan has taken up (R207). -/
structure GlzUnit where
  cmds : List GlzCmd
  coming : List GlzCmd
  staging : List StageRec
  area : Option (Nat × Nat)
  apply : List (Bool × Nat × Nat)
  kept : List GlzCmd
  keptStage : List StageRec
  deriving DecidableEq, Repr

/-- The end of a stream command at its engine (R132): the code of R211 or the DETAIL of R479 where it failed, whether that
was home unavailable on this package, and the old value of an atomic. -/
structure CmdEnd where
  die : Nat
  id : Nat
  fail : Option Nat
  home : Bool
  old : Nat
  recorded : Bool
  deriving DecidableEq, Repr

/-- Whose transfer a DMA is. -/
inductive DmaWho where
  | stream (die core id : Nat)
  | queue (q : Nat)
  deriving DecidableEq, Repr

/-- A DMA that runs (R134, R386): its number, owner, source, destination and length, the bytes read from the source so far
and those that have reached the destination, and how it failed: DETAIL of R479, address, home unavailable on this
package. -/
structure Dma where
  no : Nat
  who : DmaWho
  src : Nat
  dst : Nat
  len : Nat
  pos : Nat
  acked : Nat
  fail : Option (Nat × Nat × Bool)
  deriving DecidableEq, Repr

/-! ## Breakwater -/

/-- Who waits for the answer of a fabric request (R388). A load keeps the bytes, and their mask, that it takes from earlier
stores of its hart (R308, R311). -/
inductive FabOrigin where
  | hartLoad (h addr len : Nat) (own : List Byte) (mask : Nat)
  | hartAmo (h addr len : Nat)
  | hartStore (h id addr : Nat)
  | dmaGet (job dst off n : Nat)
  | dmaPut (job n : Nat)
  | ratom (die id : Nat)
  | glz (die id : Nat)
  | glzRead (die v : Nat) (src : GlzSrc) (addr : Nat)
  | queueGlz (q : Nat)
  | queueKey (q pkg : Nat)
  | mirror (jid : Nat)
  | queueWr (q : Nat)
  | site (site : Nat) (m : FabMsg)
  deriving DecidableEq, Repr

/-- A request outstanding at its requester (R384, R388): the Q-die that counts it, the message, when its timeout started,
and whether it has been sent. -/
structure FabReq where
  q : Nat
  msg : FabMsg
  at_ : Nat
  origin : FabOrigin
  sent : Bool
  deriving DecidableEq, Repr

/-- A request that this package has accepted, with its answer once it has one (R255). -/
structure FabSeen where
  src : Nat
  agent : Nat
  tag : Nat
  msg : FabMsg
  answer : Option FabMsg
  deriving DecidableEq, Repr

/-- One Breakwater port (R371 to R375, R390): messages that wait for credit, the next SEQ, the replay buffer, resends of
its head in a row, the highest SEQ received in order, the reorder buffer by SEQ, the credit held by channel, the units freed
and not yet returned to the peer, the credit the peer has, an unanswered WIDTH, whether payload is held back, the
violations of the window and when it opened, IDENT unacknowledged, whether payload has been carried since the port came
up, when the port went down, and the lanes that have ended training. -/
structure FabPort where
  txq : List (Nat × FabMsg)
  nextSeq : Nat
  replay : List (Nat × List (Nat × FabMsg))
  resends : Nat
  rxLast : Nat
  reorder : SMap (List Byte)
  credit : SMap Nat
  owed : SMap Nat
  rxCredit : SMap Nat
  width : Option Nat
  held : Bool
  viol : Nat
  violAt : Option Nat
  ident : Bool
  carried : Bool
  downAt : Option Nat
  trained : Nat
  deriving DecidableEq, Repr

/-- A fault report or its merged entry (R391, R392). -/
structure FabReport where
  target : Nat
  cls : Nat
  period : Nat
  count : Nat
  earliest : Nat
  late : Bool
  deriving DecidableEq, Repr

/-- The fabric interface of the package: requests, accepted requests, the next tag, messages received and not yet
handled, keys reported in their period by each Q-die, merged entries, the event queue, the tag of each Q-die's directed request,
and the journal keys being applied for other packages (message, port, dies started, dies done: R477). -/
structure Fabric where
  ports : SMap FabPort
  reqs : List FabReq
  seen : List FabSeen
  nextTag : Nat
  inbox : List (Nat × FabMsg)
  keys : List (Nat × FabReport)
  merged : List FabReport
  forwarded : Nat
  events : List FabReport
  drAt : SMap Nat
  applies : List (FabMsg × Nat × List Nat × List Nat)
  deriving DecidableEq, Repr

/-- The links between dies (chapter 09): NAKs in a row of the flit that heads a link direction, LINK_UPs received (receiver,
sender), DOWN notices on their way (sender, receiver), lost caches that a die has still to be told of (die, agent: R536), the
ends that are fenced (die, peer: R254), and the dies that have returned and whose links are not all settled (R257). -/
structure Links where
  nakRun : SMap Nat
  ups : List (Nat × Nat)
  notices : List (Nat × Nat)
  losses : List (Nat × Nat)
  fenced : List (Nat × Nat)
  returned : List Nat
  deriving DecidableEq, Repr

end Sys2Proof.Machine
end

