-- ==== Sys2Proof/Machine/StatePower.lean ====
section
/-!
DEFINITION. Plain data of power, clocks and thermal limits (chapter 18), of Lighthouse and the boot flash (chapter 20), and
of the management bus (R611).
-/
namespace Sys2Proof.Machine

/-- What the power controller and the droop detectors hold of one die: its thermal and neighbour ceilings (R506, R507), the
control periods for which every reading has stood cool enough for each, its domains in droop (0 Tide or Headland, 1 Q-die NoC),
whether it settles after a droop (R498), and the point that a change in progress leads to (R496). -/
structure DiePower where
  therm : Nat
  neigh : Nat
  thermCool : Nat
  neighCool : Nat
  droop : List Nat
  settling : Bool
  target : Option Nat
  deriving DecidableEq, Repr

/-- A die with no throttle and no change in progress (R506). -/
def DiePower.reset : DiePower :=
  { therm := 15, neigh := 15, thermCool := 0, neighCool := 0, droop := [], settling := false, target := none }

/-- Where the package stands: without power, held in reset, released from reset with its start-up yet to run, started. -/
inductive Phase where
  | off | held | released | started
  deriving DecidableEq, Repr

/-- The power controller (R499 to R503), the tray signals (R608, R609) and the phase of the package. The package energy of the last
control periods in µJ, newest first; for how many periods both averages have stood at 97 % or less, and the level at 33; the
word of PKG_CAP in force; whether the last period's fast average was above its limit under a floor (R425); the fractions of
the tenant meters in 1/256 pJ (R514); COOLANT_OK, TRAY_PWR_OK, PKG_RESET_N and CAP_LIMIT_N as they read; and the derating that
each Shelf channel reports (R504). -/
structure Power where
  dies : SMap DiePower
  periods : List Nat
  low : Nat
  at33 : Nat
  cap : Option Word
  overFast : Bool
  frac : SMap Nat
  coolant : Bool
  tray : Bool
  resetN : Bool
  capN : Bool
  phase : Phase
  derate : SMap Nat
  deriving DecidableEq, Repr

/-- Power and coolant are good, PKG_RESET_N is released, and start-up has yet to run. -/
def Power.reset : Power :=
  { dies := [], periods := [], low := 0, at33 := 0, cap := none, overFast := false, frac := [], coolant := true, tray := true,
    resetN := true, capN := true, phase := .released, derate := [] }

/-- Lighthouse: the boot flash (each cell the complement of its byte, so that an erased byte of 0xFF is not listed), the owner
key hash and the security version as fused (R552), the newest entry of the counter log (hours, power cycles, start-ups, entry
number, place) and when it was written (R556), whether TRAY_PWR_OK has risen since the last reset, whether debug has been
granted since reset (R564), and whether Harbour firmware has been started (R560). -/
structure Lht where
  flash : Memory
  owner : Option (List Byte)
  svn : Nat
  hours : Nat
  powers : Nat
  starts : Nat
  entry : Nat
  place : Option Nat
  entryAt : Nat
  rose : Bool
  granted : Bool
  harbour : Bool
  deriving DecidableEq, Repr

/-- A new package: an erased flash, no owner, security version 0. -/
def Lht.reset : Lht :=
  { flash := [], owner := none, svn := 0, hours := 0, powers := 0, starts := 0, entry := 0, place := none, entryAt := 0,
    rose := false, granted := false, harbour := false }

end Sys2Proof.Machine
end

