-- ==== Sys2Proof/Machine/StateQueue.lean ====
section
/-!
DEFINITION. Plain data of the host ports and companion sites (chapter 16) and of the Harbour queues (chapter 17).
-/
namespace Sys2Proof.Machine

/-! ## Host ports -/

/-- A TLP to a DPORT aperture that has arrived and is not yet performed (R442, R443): the aperture, and the bytes of a write,
the length of a read, a read of STATUS, or a write of ADDR. -/
inductive DportTlp where
  | write (ap : Nat) (data : List Byte)
  | read (ap len : Nat)
  | status (ap : Nat)
  | setAddr (ap : Nat) (addr : Nat)
  deriving DecidableEq, Repr

/-- One host port (R435 to R449): its committed HDM decoders (number, base, size), the decoders whose commit failed, when
its link went down, DPORT TLPs in arrival order, the MSI-X table by vector (128-bit entries), the vectors pending, the
violations of the window and when it opened, and whether the host has enabled BME and CXL.cache since package reset. -/
structure HostPort where
  hdm : List (Nat × Nat × Nat)
  hdmErr : List Nat
  downAt : Option Nat
  tlps : List DportTlp
  msix : SMap Nat
  pba : List Nat
  viol : Nat
  violAt : Option Nat
  deriving DecidableEq, Repr

/-- Who waits for a CXL.io read of the package (R225, R444). -/
inductive IoWho where
  | hart (h : Nat) (own : List Byte) (mask : Nat)
  | engine
  | drain (q : Nat)
  | other (a : Agent)
  deriving DecidableEq, Repr

/-- A CXL.io read on its way to the host, or answered and not yet taken: port, address, length, requester, and the answer
(no bytes where it failed). -/
structure IoRead where
  port : Nat
  addr : Nat
  len : Nat
  who : IoWho
  answer : Option (Option (List Byte))
  deriving DecidableEq, Repr

/-- A companion site (R449, R451, R453): the violations of the window and when it opened, whether its power-limit request
stands, the register accesses on the sideband that await an answer (agent, address, write), and whether an admission has
ended since package reset. -/
structure SiteLink where
  viol : Nat
  violAt : Option Nat
  hot : Bool
  side : List (Agent × Nat × Bool)
  ended : Bool
  deriving DecidableEq, Repr

/-! ## Queues -/

/-- A queue context (R466). -/
structure QCtx where
  ring : Nat
  cpl : Nat
  accept : Nat
  log2 : Nat
  account : Nat
  meter : Nat
  flags : Nat
  pasid : Nat
  notify : Nat
  deriving DecidableEq, Repr

/-- A queue (R467, R489): STATE, STOP, its context, the highest TAIL written, the highest accepted sequence number, what
the accept pointer holds, and the entries fetched and not yet accepted, by sequence number. -/
structure Queue where
  st : Nat
  stop : Nat
  ctx : QCtx
  tail : Nat
  accepted : Nat
  ptr : Nat
  fetched : List (Nat × List Byte)
  deriving DecidableEq, Repr

/-- Where an accepted entry stands at its engine: waiting for its turn, running, discarding or committing its key, ended,
waiting for its drain reads, or done with its record on the way to CPL. -/
inductive JPhase where
  | accepted | running | discard | commit | ended | drain | done
  deriving DecidableEq, Repr

/-- A journal record (R472) with what its engine holds for it: JID, queue and sequence number, the entry, STATE, RERUNS, DIE,
TOUCH, completion record; whether its acceptance is complete, writes outstanding at the partner, its phase, what remains
of a transfer in parts, the first part that failed, the status with which it will end, whether a run follows its discard,
the dies of DIE_MASK that cannot load its image, whether a 17th package was touched, the C-dies where a commit or discard
has been started and finished, the packages that have still to answer, whether a host write of it is uncertain, was lost,
or is not re-issued, whether its host writes were re-issued, and the last address written on each other path (R445) with
the drain reads that are outstanding and whether one timed out. -/
structure JRec where
  jid : Nat
  queue : Nat
  seq : Nat
  entry : List Byte
  st : Nat
  reruns : Nat
  die : Option Nat
  touch : List Nat
  cpl : List Byte
  counted : Bool
  mirror : Nat
  phase : JPhase
  parts : Nat
  bad : Option Nat
  res : Option (Nat × Nat)
  again : Bool
  tried : List Nat
  over17 : Bool
  started : List Nat
  applied : List Nat
  pkgs : List Nat
  uncertain : Bool
  lost : Bool
  noReissue : Bool
  reissued : Bool
  paths : SMap Nat
  drains : Nat
  late : Bool
  deriving DecidableEq, Repr

/-- The queue engines: queues by number, and the journal records that are not free, in order of acceptance. -/
structure Hq where
  queues : SMap Queue
  journal : List JRec
  deriving DecidableEq, Repr

end Sys2Proof.Machine
end

