-- ==== Sys2Proof/Machine/StateTide.lean ====
section
/-!
DEFINITION. Plain data of a C-die's Tide cores, sequencer and vaults (chapters 02, 03, 04 and 06).
-/
namespace Sys2Proof.Machine

/-- The architectural registers of a die's cores (R29). A context is a physical core 0–63, or 64 + core for the fold
context of that core (R87). Keys: context × 32 + register for v, × 16 for s and a, × 8 for p. -/
structure TideRegs where
  v : SMap (BitVec 2048)
  s : SMap Word
  a : SMap Word
  p : SMap Word
  deriving DecidableEq, Repr

/-- One stationary buffer, W-A or W-B (R39, R112): the cycle its load completes, its format, its tile image, and the
cycle after the last row of the last pass on it enters. -/
structure TileBuf where
  ready : Nat
  fmt : Nat
  image : List Byte
  useEnd : Nat
  deriving DecidableEq, Repr

inductive FlightKind where
  | regWrite | sld | sst | slds | ssts | glz | scopy | sfill | vrd | vwr | ssend | mpass | report
  deriving DecidableEq, Repr

/-- An operation in flight (R33, R35): its core, context and issue cycle, slab offsets read from and written to, its
length in blocks or rows, its latency beyond the first cycle, operation-specific numbers, the bytes and byte masks taken
at issue, and the blocks read so far. For a register write, `t` is the cycle from which the new value reads. -/
structure Flight where
  kind : FlightKind
  core : Nat
  ctx : Nat
  t : Nat
  src : Nat
  dst : Nat
  len : Nat
  lat : Nat
  arg : List Nat
  bytes : List Byte
  mask : List Byte
  buf : SMap (List Byte)
  deriving DecidableEq, Repr

/-- A unit, vault or link direction held for the cycles `[lo, hi)` (R67, R131). -/
structure Busy where
  unit : Nat
  lo : Nat
  hi : Nat
  deriving DecidableEq, Repr

inductive CmdKind where
  | glz | dma | ratom
  deriving DecidableEq, Repr

/-- A class-0b101 command (R132 to R135). `source` of a GLZ is its address register, `key` the journal key in force when it
issued (R209). -/
structure Cmd where
  id : Nat
  core : Nat
  ctx : Nat
  kind : CmdKind
  op : Nat
  target : Nat
  source : Nat
  length : Nat
  operand : Nat
  compare : Nat
  desc : List Byte
  token : Nat
  tokEn : Bool
  ret : Nat
  retEn : Bool
  held : Bool
  key : Option (Nat × Nat)
  deriving DecidableEq, Repr

/-- An arithmetic fault on its way to the sequencer (R81): the core, its code of R56, and whether it counts toward
fencing (R531). -/
structure ArithFault where
  core : Nat
  kind : Nat
  counted : Bool
  deriving DecidableEq, Repr

/-- How a work item ends (R94, R97). -/
inductive EndCause where
  | arith | replayLimit | window | format | unitBusy | branchShadow | loop | fetch | awaitTimeout | fenced | coreSched
  | aborted | dieStop
  deriving DecidableEq, Repr

/-- The loaded stream image (R90). -/
structure Image where
  base : Nat
  coreMap : Word
  length : Nat
  entry : Nat
  foldable : Bool
  revlevel : Nat
  deriving DecidableEq, Repr

/-- An active loop: its counter, body and the iterations left, this one included (R69). -/
structure Loop where
  lc : Nat
  first : Nat
  last : Nat
  left : Nat
  deriving DecidableEq, Repr

/-- A branch in its shadow: the cycle it resolves, its own bundle, its target and outcome (R72, R84). -/
structure Branch where
  at_ : Nat
  src : Nat
  target : Nat
  taken : Bool
  deriving DecidableEq, Repr

/-- What a checkpoint saves beside the registers (R79, R132): its bundle, the loops, the issue counts, and the number of the
next command. -/
structure Ckpt where
  pc : Nat
  loops : List Loop
  issued : SMap Nat
  cmd : Nat
  deriving DecidableEq, Repr

/-- What the sequencer hands to the queue engine at the end of a work item (R72, R132). -/
structure RunResult where
  cause : Option EndCause
  failCode : Nat
  homeOnPackage : Bool
  deriving DecidableEq, Repr

/-- One C-die's cores and sequencer. `cycle` counts stream cycles, `start` is the first of the work item; `passEnd` holds
the cycle in which a core's last matrix pass ends; `ballastTop` and `ballastUp` are L0 and the direction of the ballast
ramp (R424); `step2` says that an await is in step 2 of R73; `foldDue` lists fenced cores whose fold map entry is not
yet set (R86); `itemCmd` is the first command number of the work item; `abortAt` and `resAt` hold 1 + the cycle of an ABORT (R93) and
of each core's recorded residue mismatch (R60); `replayCores` lists the cores counted for the replay in progress (R58); `stepCycles`
counts the issue cycles of the step in force (R592); `dynWrites` holds dynamic slab writes of the present cycle, performed after its
stream reads (R45): core, offset, bytes, mask. -/
structure TideDie where
  cycle : Nat
  start : Nat
  regs : TideRegs
  shadow : TideRegs
  bufs : SMap TileBuf
  flights : List Flight
  busy : List Busy
  cmdq : List Cmd
  sent : List Cmd
  nextCmd : Nat
  issued : SMap Nat
  reports : List ArithFault
  image : Option Image
  loading : Bool
  pc : Nat
  fetched : Option (List Word)
  loops : List Loop
  ckpt : Option Ckpt
  replayable : Bool
  replays : Nat
  restoring : Bool
  branch : Option Branch
  ending : Bool
  endCause : Option EndCause
  failCode : Nat
  failHome : Bool
  failed : Bool
  halves : SMap Nat
  refill : Option Nat
  freezeRefresh : Bool
  freezeFetch : Bool
  firstAt : SMap Nat
  seqFirstAt : Nat
  results : List RunResult
  passEnd : SMap Nat
  ballastTop : Nat
  ballastUp : Bool
  step2 : Bool
  foldDue : List Nat
  itemCmd : Nat
  abortAt : Nat
  resAt : SMap Nat
  replayCores : List Nat
  stepCycles : Nat
  dynWrites : List (Nat × Nat × List Byte × List Byte)
  deriving DecidableEq, Repr

/-- An operation that waits for a vault or a slab: a dynamic access (R46, R161). -/
structure DynReq where
  agent : Agent
  addr : Nat
  write : Bool
  len : Nat
  data : List Byte
  deriving DecidableEq, Repr

/-- One vault controller (chapter 06). Keys of `hits` and `erased`: channel × 256 + wire, and channel. `code` is the placed share and
the crumb region (first and end unit) when the vault was last zeroed: the code of the blocks not written since (R169). `dirOn` says that
the directory entries of State are those of the vault's area (R273, R274). -/
structure Vault where
  hits : SMap (List Nat)
  erased : SMap (List Nat)
  rewrite : List Nat
  waiting : List DynReq
  refreshing : Bool
  initing : Bool
  walking : Bool
  scrub : Nat
  coolSince : Nat
  code : Nat × Nat × Nat
  dirOn : Bool
  deriving DecidableEq, Repr

end Sys2Proof.Machine
end

