-- ==== Sys2Proof/Machine/State.lean ====
section
/-!
DEFINITION. The state of the package, its faults and refusals, and the state after reset.
-/
namespace Sys2Proof.Machine

/-- One record of an ERR_ log (R541, R542, R545). -/
structure ErrRec where
  sev : Nat
  unit : Nat
  index : Nat
  kind : Nat
  detail : Nat
  time : Nat
  count : Nat
  deriving DecidableEq, Repr

/-- An event on its way to the event arbiter (R511): its class, the die that sampled it, and what it carries. -/
structure Event where
  cls : Nat
  die : Nat
  arg : Nat
  detail : Nat
  deriving DecidableEq, Repr

/-- What the package sends to its agents and neighbours. -/
inductive Out where
  /-- Register data returned to an agent. -/
  | regData (dst : Agent) (value : Word)
  /-- A load or store access fault, Unsupported Request or fabric NAK (R8, R220). -/
  | refused (dst : Agent) (addr : Nat)
  /-- Bytes returned to an agent, poisoned or not. -/
  | data (dst : Agent) (addr : Nat) (bytes : List Byte) (poison : Bool)
  /-- A snoop that reaches the host or a companion: to invalidate or to downgrade (R286). -/
  | snoop (agent : Nat) (line : Nat) (inv : Bool)
  /-- An exception taken by a hart: its code and xtval (R220, R530). -/
  | trap (hart : Nat) (code : Nat) (tval : Nat)
  /-- What a companion, the host or a non-caching requester receives from a home, by agent number. -/
  | toAgent (agent : Nat) (line : Nat) (bytes : List Byte) (poison : Bool)
  /-- A request whose address no home serves (R220), by the agent number of R269. -/
  | noHome (agent : Nat) (addr : Nat)
  /-- A D2H request of a home proxy for a host line (R438): 0 RdShared, 1 RdOwn, 2 RdCurr, 3 WOWrInvF, 4 WOWrInv,
  5 DirtyEvict, 6 CleanEvict. -/
  | d2h (line op : Nat)
  /-- The bytes of a host line that go to the host after its GO, under a byte mask (R438). -/
  | hostData (line : Nat) (bytes : List Byte) (mask : Nat)
  /-- The answer to a host snoop: the line, its data where a holder wrote it back (R439). -/
  | h2d (port line : Nat) (dirty : Option (List Byte))
  /-- A CXL.io memory request of the package to the host: a write with its bytes, or a read of a length; a read of length 0
  is a drain read (R225, R444, R445). -/
  | hostIo (port addr len : Nat) (write : Bool) (bytes : List Byte)
  /-- The completion of a TLP or CXL.mem request of the host: 0 data, 1 Cmp, 2 Unsupported Request, 3 data with poison. -/
  | hostDone (port code addr : Nat) (bytes : List Byte)
  /-- An MSI-X message: port, vector, address and data of its table entry (R478). -/
  | msix (port vector addr data : Nat)
  /-- An MSI of an IOMMU: the Q-die, the address and the data of the entry of its MSI configuration table (R233). -/
  | iomMsi (q addr data : Nat)
  /-- A companion's request answered with completer abort: the agent number of R269 and the address that it gave (R235). -/
  | abort (agent : Nat) (addr : Nat)
  /-- A contact or message of Lighthouse: a code and its words (chapters 18 to 22). -/
  | tray (code : Nat) (words : List Nat)
  /-- A write is performed. -/
  | done (dst : Agent) (addr : Nat)
  /-- A payload flit on a port: SEQ, ACK, credit returns by channel, and its messages (R371). -/
  | flit (port seq ack : Nat) (credit : List (Nat × Nat)) (msgs : List FabMsg)
  /-- A flit without payload on a port: its type, the ACK, whether NAK is set, credit returns, and for a link control flit
  WIDTH (code 1) or WIDTH_ACK (code 2) with the half to keep (R371, R375). -/
  | ctlFlit (port ftype ack : Nat) (nak : Bool) (credit : List (Nat × Nat)) (code half : Nat)
  /-- A message to a companion site (R453). -/
  | site (site : Nat) (m : FabMsg)
  deriving DecidableEq, Repr

/-- A Strandline record that waits to be written (R574): its trigger or fixed cause, INFO, the Tidemark ns of the
tick that sampled it, and whether it is marked (R578). -/
structure StlEvent where
  cause : Nat
  info : Nat
  time : Nat
  marked : Bool
  deriving DecidableEq, Repr

/-- The Strandline store (R573): the ring and the copy buffer by byte offset, the records that wait, the time each
trigger last fired, the copy slot being written, its write number, the next record number, the records whole in the ring
(number, offset, size) oldest first, the ends of the permanent and direct logs, the flash page in the
window, the ring images in the copy slots of the flash, and the highest record number that the flash holds. -/
structure Strand where
  ring : Memory
  copyBuf : Memory
  queue : List StlEvent
  fired : SMap Nat
  slot : Nat
  writes : Nat
  nextSeq : Nat
  recs : List (Nat × Nat × Nat)
  permEnd : Nat
  directEnd : Nat
  win : Memory
  copies : SMap Memory
  flashSeq : Nat
  deriving DecidableEq, Repr

/-- An MSI on its way to an IMSIC file (R335, R338): hart, file (0 M, 1 S, 2 guest) and identity. -/
structure Msi where
  hart : Nat
  file : Nat
  eiid : Nat
  deriving DecidableEq, Repr

/-- The sample buffer and tagging of a die (R596, R597): records held, the LFSR. -/
structure Sampler where
  held : Nat
  lfsr : Nat
  deriving DecidableEq, Repr

/-- A translation that an IOMMU keeps (R234): device ID, PASID word, page, the physical page, and whether it serves writes. -/
structure Xlated where
  dev : Nat
  pasid : Nat
  page : Nat
  phys : Nat
  write : Bool
  deriving DecidableEq, Repr

/-- What an IOMMU holds beside its registers (R233, R234): the translations that it keeps, how many it has made, and the interrupt vectors
whose MSI is held while its table entry is masked. -/
structure Iommu where
  kept : List Xlated
  made : Nat
  msiHeld : List Nat
  deriving DecidableEq, Repr

/-- The state of the SB8 package. -/
structure State where
  pending : List Instr
  regs : SMap Word
  now : Nat
  freeCtr : Nat
  errLog : SMap (List ErrRec)
  events : List Event
  out : List Out
  tmk : SMap Nat
  tide : SMap TideDie
  vaults : SMap Vault
  slab : Memory
  slabBad : SMap Nat
  slabWait : List DynReq
  sbuf : Memory
  stack : Memory
  rat : SMap (List (Word × Word))
  vwrInv : List Nat
  strand : Strand
  msis : List Msi
  samplers : SMap Sampler
  signals : List (Nat × Nat × Nat × Nat)
  dieMode : SMap Nat
  shelf : Memory
  shelfHits : SMap (List Nat)
  shelfRewrite : List Nat
  remap : SMap Page
  spare : Nat
  tdl : Tdl
  hostLines : SMap HostLine
  dir : SMap DirEnt
  dirSram : SMap (List Nat)
  txns : SMap Txn
  waitq : List Msg
  net : List Msg
  caches : SMap Cache
  l1 : SMap (List (Nat × Bool))
  mshrs : List Mshr
  harts : SMap Hart
  imsic : SMap Nat
  debugOn : List Nat
  sweeps : List (Nat × Nat)
  fab : Fabric
  glz : SMap GlzUnit
  cmdEnds : List CmdEnd
  dmas : List Dma
  dmaNo : Nat
  queueEnds : List (Nat × Option Nat)
  links : Links
  tidemark : Tidemark
  coll : Coll
  iommuGen : SMap Nat
  iommus : SMap Iommu
  host : SMap HostPort
  ios : List IoRead
  hostWbs : List (Nat × Nat)
  sites : SMap SiteLink
  hq : Hq
  power : Power
  lht : Lht
  i3c : Option Nat
  sberr : SMap Nat
  alertN : Bool
  wires : SMap Nat
  deriving DecidableEq, Repr

/-- The reasons for which a step could stop with a fault. The spec gives every command of its table an effect, so none does: an
access that the spec refuses is answered as R8, R9 and R220 say, and the package goes on. -/
inductive Fault where
  /-- Raised by no command (safe: the model never stops where the hardware goes on). -/
  | neverRaised
  deriving DecidableEq, Repr

/-- The reasons for which a step could be refused. -/
inductive Refusal where
  /-- A command of the table without a meaning; no arm of `exec` gives it (safe: a refused command changes nothing). -/
  | notModelled (mnemonic : String)
  deriving DecidableEq, Repr

/-- No architectural register written: every register reads 0 (R32). -/
def TideRegs.zero : TideRegs := ⟨[], [], [], []⟩

/-- A C-die after reset. -/
def TideDie.reset : TideDie :=
  { cycle := 0, start := 0, regs := .zero, shadow := .zero, bufs := [], flights := [], busy := [], cmdq := [],
    sent := [], nextCmd := 0, issued := [], reports := [], image := none, loading := false, pc := 0, fetched := none,
    loops := [], ckpt := none, replayable := false, replays := 0, restoring := false, branch := none, ending := false,
    endCause := none, failCode := 0, failHome := false, failed := false, halves := [], refill := none,
    freezeRefresh := false, freezeFetch := false, firstAt := [], seqFirstAt := 0, results := [],
    passEnd := [], ballastTop := 0, ballastUp := false, step2 := false, foldDue := [], itemCmd := 0,
    abortAt := 0, resAt := [], replayCores := [], stepCycles := 0, dynWrites := [] }

/-- A vault controller after reset. -/
def Vault.reset : Vault :=
  { hits := [], erased := [], rewrite := [], waiting := [], refreshing := false, initing := false, walking := false,
    scrub := 0, coolSince := 0, code := (0, 0, 0), dirOn := false }

/-- The tidal engine with nothing to do. -/
def Tdl.reset : Tdl := { cmd := none, phase := 0, page := 0, src := .pool 0, dst := .pool 0, second := none, acks := [] }

def Strand.reset : Strand :=
  { ring := [], copyBuf := [], queue := [], fired := [], slot := 0, writes := 0, nextSeq := 1, recs := [],
    permEnd := 0, directEnd := 0, win := [], copies := [], flashSeq := 0 }

/-- A fabric interface that has carried nothing. -/
def Fabric.reset : Fabric :=
  { ports := [], reqs := [], seen := [], nextTag := 0, inbox := [], keys := [], merged := [], forwarded := 0,
    events := [], drAt := [], applies := [] }

/-- The machine right after package reset. -/
def State.reset : State :=
  { pending := [], regs := [], now := 0, freeCtr := 0, errLog := [], events := [], out := [], tmk := [], tide := [],
    vaults := [], slab := [], slabBad := [], slabWait := [], sbuf := [], stack := [],
    rat := [], vwrInv := [],
    strand := Strand.reset, msis := [], samplers := [], signals := [],
    dieMode := [], shelf := [], shelfHits := [], shelfRewrite := [], remap := [], spare := 0, tdl := Tdl.reset,
    hostLines := [], dir := [], dirSram := [], txns := [], waitq := [], net := [], caches := [], l1 := [], mshrs := [],
    harts := [], imsic := [], debugOn := [], sweeps := [], fab := Fabric.reset, glz := [], cmdEnds := [], dmas := [], dmaNo := 0, queueEnds := [],
    links := { nakRun := [], ups := [], notices := [], losses := [], fenced := [], returned := [] },
    tidemark := { ends := [], offs := [], slew := [], wire := [] },
    coll := { coming := [], tables := [], insts := [], failed := [], releases := [], ended := [] }, iommuGen := [], iommus := [],
    host := [], ios := [], hostWbs := [], sites := [], hq := { queues := [], journal := [] },
    power := Power.reset, lht := Lht.reset, i3c := none, sberr := [], alertN := true, wires := [] }

end Sys2Proof.Machine
end

