-- ==== Sys2Proof/Machine/Ops.lean ====
section
/-!
DEFINITION. The named operations that every unit shares: reading and writing registers (R7 to R13, R23), saturating
counts, error records (R541), events (R511) and free values.
-/
namespace Sys2Proof.Machine

/-! ## Dies -/

/-- Dies by index (R7). -/
def isC (die : Nat) : Bool := die < 4
def isQ (die : Nat) : Bool := die = 4 || die = 5

/-- The Q-die a C-die attaches to (R5). -/
def qOf (die : Nat) : Nat := if die < 2 then 4 else if die < 4 then 5 else die

/-- The other Q-die. -/
def peerQ (die : Nat) : Nat := if die = 4 then 5 else 4

/-- The ERR_ and PMU_ blocks of a die (R221, R222). -/
def errBlk (die : Nat) : Nat := if isC die then 0x2C0 else 0x1C0
def pmuBlk (die : Nat) : Nat := if isC die then 0x2D0 else 0x1E0
def cacheBlk (die : Nat) : Nat := if isC die then 0x2A0 else 0x040

/-- The JTY_ block on C-die `a` of its link to die `b` (R16). -/
def jtyBlk (a b : Nat) : Option Nat :=
  let peers :=
    match a with
    | 0 => [1, 2, 4]
    | 1 => [0, 3, 4]
    | 2 => [3, 0, 5]
    | 3 => [2, 1, 5]
    | _ => []
  (peers.findIdx? (· = b)).map (· + 0x290)

/-- The dies that a die has a Jetty link to (R16). -/
def jtyPeers (die : Nat) : List Nat := (List.range 6).filter (fun b => (jtyBlk die b).isSome || (jtyBlk b die).isSome)

/-- The JTY_ block that holds the registers of a link, and its die: on a link between a C-die and a Q-die, the C-die's
(R266). -/
def linkHome (a b : Nat) : Option (Nat × Nat) :=
  match jtyBlk a b with
  | some k => some (a, k)
  | none => (jtyBlk b a).map (fun k => (b, k))

/-- The first die on the path from `a` to `b` with a path bit (R252). -/
def nextDie (a b path : Nat) : Nat :=
  if (linkHome a b).isSome then b
  else match a, b with
  | 0, 3 | 3, 0 => if path = 0 then 1 else 2
  | 1, 2 | 2, 1 => if path = 0 then 0 else 3
  | 4, 5 => if path = 0 then 0 else 1
  | 5, 4 => if path = 0 then 2 else 3
  | 4, _ => b - 2
  | 5, _ => b + 2
  | _, 4 => a - 2
  | _, _ => a + 2

/-! ## Fused and reset values -/

/-- The Tide and Headland frequencies of the sixteen points, MHz (R493). -/
def tideMHz : List Nat :=
  [600, 700, 800, 900, 1000, 1100, 1200, 1300, 1400, 1500, 1550, 1600, 1650, 1700, 1750, 1800]
def headlandMHz : List Nat :=
  [800, 960, 1120, 1280, 1440, 1600, 1760, 1920, 2080, 2240, 2400, 2560, 2720, 2880, 3040, 3200]

/-- The REVLEVELs of the six Merral dies (R26). -/
def revLevels : List Nat := (List.range 6).map (fun d => (Config.revlevel d).toNat)

/-- EFFECTIVE: the lowest REVLEVEL of the six Merral dies (R27). -/
def effectiveLevel : Nat := revLevels.foldl min 255

/-- MISMATCH: the six dies do not all report the same REVLEVEL (R27). -/
def levelMismatch : Bool := revLevels.any (fun l => l ≠ effectiveLevel)

/-- The union of the errata masks of the dies (R258). -/
def errataUnion : Word := (List.range 6).foldl (fun w d => w ||| Config.errata d) 0

/-- The reset value of a fused or strapped register, where it has one (R13). -/
def fusedWord (die blk off : Nat) : Option Word :=
  if isQ die && blk = 0x180 then
    if off = 0x000 then some (BitVec.ofNat 64 (Config.locId.toNat * 2 ^ 16))
    else if off = 0x010 then some (BitVec.ofNat 64 (revLevels.foldr (fun l acc => l + 256 * acc) 0))
    else if off = 0x018 then some (BitVec.ofNat 64 Config.serial.toNat)
    else if off = 0x020 then some (BitVec.ofNat 64 (b2n levelMismatch * 256 + effectiveLevel))
    else if off = 0x028 then some errataUnion
    else none
  else if isC die && blk = 0 && 0x100 ≤ off && off < 0x140 && off % 8 = 0 then
    -- SEQ_FOLD_MAP: HOST is the core index (R104)
    some (BitVec.ofNat 64 ((List.range 8).foldr (fun m acc => (off - 0x100) + m + 256 * acc) 0))
  else
    let vf := fun (base : Nat) (tab : List Nat) =>
      let n := (off - base) / 8
      some (BitVec.ofNat 64 (tab.getD n 0 * 2 ^ 32 + (Config.vmin die n).toNat * 2 ^ 16 + (Config.vmin die n).toNat))
    if isC die && blk = 0x2B0 && 0x100 ≤ off && off < 0x180 && off % 8 = 0 then vf 0x100 tideMHz
    else if isQ die && blk = 0x190 && 0x180 ≤ off && off < 0x200 && off % 8 = 0 then vf 0x180 headlandMHz
    else none

/-- Does a die hold the registers of a site? `arb` is the die of the event arbiter (R15, R537). -/
def siteHas (arb : Nat) (st : Site) (die : Nat) : Bool :=
  match st with
  | .c => isC die
  | .q => isQ die
  | .q0 => die = 4
  | .arb => die = arb

/-- Does a register description cover a block and offset? -/
def covers (d : RegDesc) (blk off : Nat) : Bool :=
  d.blk ≤ blk && blk < d.blk + d.nblk && d.off ≤ off &&
  (List.range d.cnt2).any (fun j =>
    let o := d.off + j * d.stride2
    o ≤ off && off ≤ o + (d.cnt - 1) * d.stride && (if d.cnt = 1 then off = o else (off - o) % d.stride = 0))

/-- The register at a die, block and offset (R221, R222). -/
def findReg (arb die blk off : Nat) : Option RegDesc :=
  regTable.find? (fun d => siteHas arb d.site die && covers d blk off)

/-- A word made of the reset values of its fields. -/
def packReset (fs : List FieldDesc) : Word :=
  fs.foldl (fun w f => setBits w f.hi f.lo f.reset) 0

/-- What a register reads before anything has written it. -/
def resetWord (die blk off : Nat) : Word :=
  match fusedWord die blk off with
  | some w => w
  | none =>
    match findReg die die blk off with
    | some d => packReset d.fields
    | none => 0

/-! ## Registers -/

/-- The place of a register within the register range (R7). -/
def regKey (die blk off : Nat) : Nat := die * 2 ^ 32 + blk * 2 ^ 16 + off

/-- A register as the package holds it. A register of R23 is held once, at Q0. -/
def State.rd (s : State) (die blk off : Nat) : Word :=
  mapGet (resetWord die blk off) s.regs (regKey die blk off)

def State.wr (s : State) (die blk off : Nat) (w : Word) : State :=
  { s with regs := mapSet s.regs (regKey die blk off) w }

/-- A field. -/
def State.fget (s : State) (die : Nat) (f : FieldRef) : Nat := bits (s.rd die f.blk f.off) f.hi f.lo

/-- A field written by hardware. -/
def State.fset (s : State) (die : Nat) (f : FieldRef) (v : Nat) : State :=
  s.wr die f.blk f.off (setBits (s.rd die f.blk f.off) f.hi f.lo v)

/-- A one-bit field as a Boolean. -/
def State.fbit (s : State) (die : Nat) (f : FieldRef) : Bool := s.fget die f = 1

/-- A count that saturates at the largest value of its field. -/
def State.fadd (s : State) (die : Nat) (f : FieldRef) (n : Nat) : State :=
  s.fset die f (min (s.fget die f + n) (2 ^ (f.hi + 1 - f.lo) - 1))

def State.finc (s : State) (die : Nat) (f : FieldRef) : State := s.fadd die f 1

/-- Several fields of one die written in turn. -/
def State.fsets (s : State) (die : Nat) (fs : List (FieldRef × Nat)) : State :=
  fs.foldl (fun t f => t.fset die f.1 f.2) s

/-- The die that holds the registers of R23. -/
def shDie : Nat := 4

/-! ## Free values, answers, events -/

/-- The next free value (log entry 3), and the state that has drawn it. -/
def State.free (s : State) : Word × State :=
  (Config.freeValue s.freeCtr, { s with freeCtr := s.freeCtr + 1 })

def State.emit (s : State) (o : Out) : State := { s with out := s.out ++ [o] }

def State.raise (s : State) (e : Event) : State := { s with events := s.events ++ [e] }

/-- The Tidemark time of a die in ns (R405); its copy counts in units of 1/10240 ns. -/
def State.tmkNs (s : State) (die : Nat) : Nat := mapGet 0 s.tmk die / 10240

/-- The Q-die whose event arbiter arbitrates (R15, R537). -/
def State.arb (s : State) : Nat := if s.fbit 5 (ERR_STATUS.PEER_LOST.inBlk 0x1C0) then 5 else 4

/-- The Tidemark ns that the arbiter's Q-die reads. -/
def State.arbNs (s : State) : Nat := s.tmkNs s.arb

/-! ## Error records (R541) -/

def State.errs (s : State) (die : Nat) : List ErrRec := mapGet [] s.errLog die

def State.setErrs (s : State) (die : Nat) (l : List ErrRec) : State :=
  { s with errLog := mapSet s.errLog die l }

/-- The count of a severity in ERR_CNT (R546). -/
def sevCnt (sev : Nat) : FieldRef :=
  match sev with
  | 0 => ERR_CNT.SEV0_CNT
  | 1 => ERR_CNT.SEV1_CNT
  | 2 => ERR_CNT.SEV2_CNT
  | _ => ERR_CNT.SEV3_CNT

/-- The same record: equal UNIT, INDEX and KIND (R541). -/
def sameRec (a b : ErrRec) : Bool := a.unit = b.unit && a.index = b.index && a.kind = b.kind

/-- The newest record of severity 0 or 1 removed; none where the log holds no such record. -/
def dropMinor (l : List ErrRec) : Option (List ErrRec) :=
  match takeFirst (fun r => decide (r.sev ≤ 1)) l.reverse with
  | none => none
  | some (_, r) => some r.reverse

/-- The log after a new record, and whether a record was dropped (R541). -/
def addRec (l : List ErrRec) (r : ErrRec) : List ErrRec × Bool :=
  if l.any (sameRec r) then
    (l.map (fun q => if sameRec r q then { q with count := min (q.count + 1) 0xFFFF } else q), false)
  else if l.length < 64 then (l ++ [r], false)
  else if 2 ≤ r.sev then
    match dropMinor l with
    | some l' => (l' ++ [r], true)
    | none => (l, true)
  else (l, true)

/-- A record logged in the ERR_ block of a die; severity 2 and 3 also report a fault event (R541, R511). -/
def State.logErr (s : State) (die sev unit index kind detail : Nat) : State :=
  let r : ErrRec := ⟨sev, unit, index, kind, detail, s.tmkNs die, 1⟩
  let (l, dropped) := addRec (s.errs die) r
  let s1 := (s.setErrs die l).finc die ((sevCnt sev).inBlk (errBlk die))
  let s2 :=
    if dropped then
      (s1.fset die (ERR_STATUS.OVERFLOW.inBlk (errBlk die)) 1).finc die (ERR_CNT.DROP_CNT.inBlk (errBlk die))
    else s1
  if 2 ≤ sev then
    s2.raise ⟨6, die, sev * 2 ^ 40 + unit * 2 ^ 24 + kind * 2 ^ 16 + index, detail⟩
  else s2

/-! ## Unit state -/

/-- What holds a die: 0 it runs; 1 it is in reset (R253); 2 its clock is lost (R254); 3 it is stopped with the package
(R509) or lost (R537). -/
def State.dieUp (s : State) (die : Nat) : Bool := mapGet 0 s.dieMode die = 0

def State.setMode (s : State) (die m : Nat) : State := { s with dieMode := mapSet s.dieMode die m }

def State.td (s : State) (die : Nat) : TideDie := mapGet TideDie.reset s.tide die

def State.setTd (s : State) (die : Nat) (t : TideDie) : State := { s with tide := mapSet s.tide die t }

/-- A change of one die's cores and sequencer. -/
def State.updTd (s : State) (die : Nat) (f : TideDie → TideDie) : State := s.setTd die (f (s.td die))

def vaultKey (die v : Nat) : Nat := die * 64 + v

def State.vault (s : State) (die v : Nat) : Vault := mapGet Vault.reset s.vaults (vaultKey die v)

def State.updVault (s : State) (die v : Nat) (f : Vault → Vault) : State :=
  { s with vaults := mapSet s.vaults (vaultKey die v) (f (s.vault die v)) }

/-- The Q-die whose HQ_ registers configure a queue (R465). -/
def homeQ (q : Nat) : Nat := 4 + q / 2048 % 2

/-- The Q-die whose engine serves a queue: its own, or the survivor that has taken over (R465, R537). -/
def State.queueDie (s : State) (q : Nat) : Nat :=
  if s.dieUp (homeQ q) then homeQ q
  else if s.fbit (peerQ (homeQ q)) HQ_STATUS.TAKEOVER then peerQ (homeQ q) else homeQ q

/-- SEQ_STATUS.STATE encodings (R92). -/
def seqIDLE : Nat := 0
def seqLOADING : Nat := 1
def seqREADY : Nat := 2
def seqRUNNING : Nat := 3
def seqAWAITING : Nat := 4
def seqREPLAYING : Nat := 5
def seqSTOPPED : Nat := 6

def State.seqState (s : State) (die : Nat) : Nat := s.fget die SEQ_STATUS.STATE

/-- A work item is in progress. -/
def State.running (s : State) (die : Nat) : Bool :=
  let x := s.seqState die
  x = seqRUNNING || x = seqAWAITING || x = seqREPLAYING

/-- MFS_STATUS.STATE encodings (R180). -/
def vUNINIT : Nat := 0
def vACTIVE : Nat := 1
def vSELFREF : Nat := 2
def vFENCED : Nat := 3

/-! ## The end of a command -/

def State.dieP (s : State) (die : Nat) : DiePower := mapGet DiePower.reset s.power.dies die

/-- The package has stopped (R523). -/
def State.isStopped (s : State) : Bool := s.fbit s.arb EVT_STATUS.STOPPED

/-- THERM_ALERT_N is driven low (R508). -/
def State.thermAlert (s : State) : Bool :=
  (List.range 6).any (fun d => (s.dieP d).therm < 15 || (s.dieP d).neigh < 15) || s.fbit shDie PKG_CAPSTAT.OVER_CAP ||
  (s.isStopped && 4 ≤ s.fget s.arb EVT_STATUS.STOP_SRC)

/-- A field as it was last written, 0 where nothing has written its register: for fields that reset to 0. -/
def State.stored (s : State) (die : Nat) (f : FieldRef) : Nat := bits (mapGet 0 s.regs (regKey die f.blk f.off)) f.hi f.lo

/-- Does the error log of a die hold a record that asserts its APLIC source (R540, R544)? -/
def State.errWire (s : State) (d : Nat) : Bool :=
  let l := mapGet [] s.errLog d
  if l.isEmpty then false
  else s.fbit d (ERR_CTRL.IRQ_EN.inBlk (errBlk d)) && l.any (fun r => s.fget d (ERR_CTRL.IRQ_SEV.inBlk (errBlk d)) ≤ r.sev)

/-- The wired sources of a Q-die's APLIC that a command which leads from `s` to `t` leaves asserted, source n in bit n (R540). Sources 8 and 11,
which name a fall, assert for the command that brings it; source 6 asserts while an assignment is valid (DESIGN CHOICE, log entry 61). -/
def wiresOf (s t : State) (q : Nat) : Nat :=
  if !t.dieUp q then 0
  else
    let c := 2 * (q - 4)
    let o := 2 * (5 - q)
    let lost := t.stored q (ERR_STATUS.PEER_LOST.inBlk 0x1C0) = 1
    let on := fun (f : FieldRef) => t.stored q f = 1
    let fell := fun (d : Nat) (f : FieldRef) => s.stored d f = 1 && t.stored d f = 0
    let pend := fun (i : Nat) => on IOM_FCTL.WSI && t.stored q IOM_IPSR.IPSR / 2 ^ i % 2 = 1
    let src : List (Nat × Bool) :=
      [(1, t.errWire q), (2, t.errWire c), (3, t.errWire (c + 1)), (4, lost && t.errWire o), (5, lost && t.errWire (o + 1)),
       (6, t.stored shDie BWF_ASSIGN.VALID = 1 || ((q = 4 || lost) && !t.fab.events.isEmpty && t.stored shDie BWF_REPORT.ROOT = 1)),
       (7, on HQ_ERR.VALID), (8, fell shDie TDL_CMD.BUSY), (9, on COL_ERR.VALID), (10, on HPU_ERR.VALID || on HPU_LOSS.PENDING),
       (11, on UCI_ERR.VALID || fell q UCI_CTRL.ADMIT), (12, on TMK_STATUS.HOLDOVER || on TMK_STATUS.AHEAD), (13, lost),
       (16, pend 0), (17, pend 1), (18, pend 2)]
    src.foldl (fun acc x => if x.2 then acc + 2 ^ x.1 else acc) 0

/-- Is a wired source of a Q-die's APLIC asserted (R540)? Sources 14, 15 and 19 to 63 never are: the model's IOMMU has no page-request queue (R233). -/
def State.wired (s : State) (q src : Nat) : Bool := mapGet 0 s.wires q / 2 ^ src % 2 = 1

/-- The state after a command whose effect leaves `t`: the queue is the step's alone, THERM_ALERT_N follows its condition (R508,
R609), and so do the wired sources of the APLICs (R540). -/
def State.sealed (s t : State) : State :=
  { t with pending := s.pending, alertN := !t.thermAlert, wires := [(4, wiresOf s t 4), (5, wiresOf s t 5)] }

/-- The outcome of a command whose effect leaves `t`. -/
def State.commit (s t : State) : Host.Outcome State Fault Refusal := .next (s.sealed t)

end Sys2Proof.Machine
end

