-- ==== Sys2Proof/Machine/Flags.lean ====
section
/-!
DEFINITION. The fault registers of the cores and the sequencer: which bit a fault sets and what the first fault
captures (R56, R57, R97), and the first-error registers of the slab and the MXU (R59, R60).
-/
namespace Sys2Proof.Machine

/-- Bits of TC_FAULT (R56). The FIRST_KIND code of a bit is the bit number plus 1. -/
def tcRESIDUE : Nat := 0
def tcSLAB_PARITY : Nat := 1
def tcVAULT_UNCORR : Nat := 2
def tcPOISON : Nat := 3
def tcSLAB_PORT : Nat := 4
def tcWBUF : Nat := 5
def tcREGWRITE : Nat := 6

/-- Bits of SEQ_FAULT (R97). -/
def EndCause.bit : EndCause → Nat
  | .arith => 0
  | .replayLimit => 1
  | .window => 2
  | .format => 3
  | .unitBusy => 4
  | .branchShadow => 5
  | .loop => 6
  | .fetch => 7
  | .awaitTimeout => 8
  | .fenced => 9
  | .coreSched => 10
  | .aborted => 11
  | .dieStop => 12

/-- A fault word of the layout of R56 or R97 after the fault of bit `bit`, with `nbits` fault bits. The first fault,
or a lower code in the cycle of the first, is captured (R57). -/
def captureFault (w : Word) (nbits bit step : Nat) (sameCycle : Bool) : Word :=
  let kind := bits w 39 32
  let first := bits w (nbits - 1) 0 = 0
  let w1 := setBits w bit bit 1
  if first || (sameCycle && bit + 1 < kind) then setBits (setBits w1 39 32 (bit + 1)) 63 48 step else w1

/-- A core records a fault in TC_FAULT (R56, R57). -/
def State.tcFault (s : State) (die core bit : Nat) : State :=
  let w := s.rd die (0x100 + core) 0x008
  let t := s.td die
  let same := mapGet 0 t.firstAt core = t.cycle + 1
  let w' := captureFault w 7 bit (s.fget die SEQ_STATUS.STEP) same
  let s1 := s.wr die (0x100 + core) 0x008 w'
  if bits w 6 0 = 0 then s1.updTd die (fun t => { t with firstAt := mapSet t.firstAt core (t.cycle + 1) }) else s1

/-- The sequencer records a fault in SEQ_FAULT (R97). -/
def State.seqFault (s : State) (die : Nat) (c : EndCause) : State :=
  let w := s.rd die 0 0x020
  let t := s.td die
  let same := t.seqFirstAt = t.cycle + 1
  let s1 := s.wr die 0 0x020 (captureFault w 11 c.bit (s.fget die SEQ_STATUS.STEP) same)
  if bits w 10 0 = 0 then s1.updTd die (fun t => { t with seqFirstAt := t.cycle + 1 }) else s1

/-- A software clear of a fault register: once every fault bit reads 0, FIRST_KIND and FIRST_STEP read 0 (R57). -/
def clearFirst (w : Word) (nbits : Nat) : Word :=
  if bits w (nbits - 1) 0 = 0 then setBits (setBits w 39 32 0) 63 48 0 else w

/-- TC_SLAB_ERR takes the first slab parity error (R59); `o` is the word's slab offset. -/
def State.captureSlabErr (s : State) (die core o : Nat) (dynamic : Bool) : State :=
  if s.fbit die (TC_SLAB_ERR.VALID.unit core) then s
  else s.fsets die
    [(TC_SLAB_ERR.VALID.unit core, 1), (TC_SLAB_ERR.DYNAMIC.unit core, b2n dynamic),
     (TC_SLAB_ERR.BANK.unit core, o / 32 % 64), (TC_SLAB_ERR.ROW.unit core, o / 2048),
     (TC_SLAB_ERR.WORD.unit core, o / 4 % 8)]

/-- TC_RESIDUE_ERR takes the first residue mismatch; a lower column of the same row, checked in the same cycle, takes its place
(R60). -/
def State.captureResidue (s : State) (die core row col : Nat) : State :=
  let t := s.td die
  if s.fbit die (TC_RESIDUE_ERR.VALID.unit core) then
    if mapGet 0 t.resAt core = t.cycle + 1 && s.fget die (TC_RESIDUE_ERR.ROW.unit core) = row &&
        col < s.fget die (TC_RESIDUE_ERR.COLUMN.unit core) then s.fset die (TC_RESIDUE_ERR.COLUMN.unit core) col
    else s
  else (s.fsets die
    [(TC_RESIDUE_ERR.VALID.unit core, 1), (TC_RESIDUE_ERR.COLUMN.unit core, col),
     (TC_RESIDUE_ERR.STEP.unit core, s.fget die SEQ_STATUS.STEP), (TC_RESIDUE_ERR.ROW.unit core, row)]).updTd die
    (fun t => { t with resAt := mapSet t.resAt core (t.cycle + 1) })

/-- A work item begins to end with `c`: the sequencer stops issuing and drains (R54, R74, R82). The first cause holds;
a fault beats an ABORT of the same cycle (R93). -/
def State.endItem (s : State) (die : Nat) (c : EndCause) : State :=
  let cause := fun (t : TideDie) =>
    match t.endCause with
    | none => some c
    | some .aborted => if t.abortAt = t.cycle + 1 then some c else some .aborted
    | some x => some x
  let s1 := if c = .aborted then s.updTd die (fun t => { t with abortAt := t.cycle + 1 }) else s.seqFault die c
  s1.updTd die (fun t => { t with endCause := cause t, fetched := none })

/-- A schedule fault of a core ends the work item (R54). -/
def State.coreSched (s : State) (die core bit : Nat) : State :=
  (s.tcFault die core bit).endItem die .coreSched

/-- An arithmetic fault of a core: the TC_FAULT bit, its counts and records, and the report that the sequencer will
receive (R42, R47, R58, R81, R130, R530). -/
def State.arithFault (s : State) (die core bit : Nat) (counted : Bool) : State :=
  let s1 := s.tcFault die core bit
  let s2 :=
    if bit = tcRESIDUE then s1.finc die (TC_ERRCNT.RESIDUE_CNT.unit core)
    else if bit = tcSLAB_PARITY then s1.finc die (TC_ERRCNT.SLAB_PAR_CNT.unit core)
    else s1.logErr die 2 0x01 core (bit + 1) (s.fget die SEQ_STATUS.STEP)
  s2.updTd die (fun t => { t with reports := t.reports ++ [⟨core, bit + 1, counted⟩] })

end Sys2Proof.Machine
end

