-- ==== Sys2Proof/Machine/Codes.lean ====
section
/-!
DEFINITION. The Reed–Solomon codes of the stack (R163, R167) and of the Shelf (R345), the CRC-32 of images (R90) and
of journal records, and the way one codeword is read (R164, R165).
-/
namespace Sys2Proof

/-- A binary field GF(2^w) with its polynomial; α is the element 2. -/
structure GField where
  w : Nat
  poly : Nat
  deriving DecidableEq, Repr

/-- The field of the stack's codes: x⁸ + x⁴ + x³ + x² + 1 (R163). -/
def gf8 : GField := ⟨8, 0x11D⟩

/-- The field of the Shelf's code: x¹⁶ + x¹² + x³ + x + 1 (R345). -/
def gf16 : GField := ⟨16, 0x1100B⟩

def gfMulLoop (f : GField) : Nat → Nat → Nat → Nat → Nat
  | 0, _, _, acc => acc
  | n + 1, a, b, acc =>
    let acc' := if b % 2 = 1 then acc ^^^ a else acc
    let a2 := 2 * a
    gfMulLoop f n (if 2 ^ f.w ≤ a2 then a2 ^^^ f.poly else a2) (b / 2) acc'

/-- Product in the field. -/
def gfMul (f : GField) (a b : Nat) : Nat :=
  if a = 0 then 0 else if b = 0 then 0 else gfMulLoop f f.w a b 0

def gfPowLoop (f : GField) : Nat → Nat → Nat → Nat → Nat
  | 0, _, _, acc => acc
  | n + 1, a, e, acc =>
    gfPowLoop f n (gfMul f a a) (e / 2) (if e % 2 = 1 then gfMul f acc a else acc)

/-- Power in the field, for exponents below 2^17. -/
def gfPow (f : GField) (a e : Nat) : Nat := gfPowLoop f 17 a e 1

/-- α^i, for any i. -/
def gfAlpha (f : GField) (i : Nat) : Nat := gfPow f 2 (i % (2 ^ f.w - 1))

def gfInv (f : GField) (a : Nat) : Nat := gfPow f a (2 ^ f.w - 2)

/-- Polynomials with the lowest power first. -/
def polyEval (f : GField) (p : List Nat) (x : Nat) : Nat :=
  p.foldr (fun c acc => c ^^^ gfMul f acc x) 0

def polyAdd : List Nat → List Nat → List Nat
  | [], q => q
  | p, [] => p
  | a :: p, b :: q => (a ^^^ b) :: polyAdd p q

def polyScale (f : GField) (c : Nat) (p : List Nat) : List Nat := p.map (gfMul f c)

def polyMul (f : GField) : List Nat → List Nat → List Nat
  | [], _ => []
  | a :: p, q => polyAdd (polyScale f a q) (0 :: polyMul f p q)

/-- The coefficients without leading zeros at the top. -/
def polyTrim (p : List Nat) : List Nat := (p.reverse.dropWhile (· = 0)).reverse

/-- The formal derivative. -/
def polyDeriv (p : List Nat) : List Nat :=
  (p.zipIdx.drop 1).map (fun c => if c.2 % 2 = 1 then c.1 else 0)

/-- The generator (x + α⁰) … (x + α^(k−1)), highest power first, without its leading 1. -/
def rsGen (f : GField) (k : Nat) : List Nat :=
  ((List.range k).foldl (fun g i => polyMul f g [gfAlpha f i, 1]) [1]).reverse.drop 1

/-- The check symbols of a data word, highest power first: the remainder of D(x) × x^k divided by g(x). -/
def rsEncode (f : GField) (k : Nat) (data : List Nat) : List Nat :=
  if data.all (· = 0) then List.replicate k 0
  else
    let g := rsGen f k
    data.foldl (fun (r : List Nat) (d : Nat) =>
      let fb := d ^^^ r.headD 0
      List.zipWith (fun x y => x ^^^ gfMul f fb y) (r.drop 1 ++ [0]) g) (List.replicate k 0)

/-- The syndromes of a received word, highest power first. -/
def rsSyndromes (f : GField) (k : Nat) (word : List Nat) : List Nat :=
  (List.range k).map (fun i => word.foldl (fun acc c => gfMul f acc (gfAlpha f i) ^^^ c) 0)

/-- The state of the Berlekamp–Massey search. -/
structure BMState where
  c : List Nat
  b : List Nat
  len : Nat
  m : Nat
  last : Nat

/-- One step of the search on syndromes `s` at index `n`. -/
def bmStep (f : GField) (s : List Nat) (st : BMState) (n : Nat) : BMState :=
  let d := (List.range (st.len + 1)).foldl (fun acc i => acc ^^^ gfMul f (st.c.getD i 0) (s.getD (n - i) 0)) 0
  if d = 0 then { st with m := st.m + 1 }
  else
    let adj := List.replicate st.m 0 ++ polyScale f (gfMul f d (gfInv f st.last)) st.b
    let c' := polyAdd st.c adj
    if 2 * st.len ≤ n then { c := c', b := st.c, len := n + 1 - st.len, m := 1, last := d }
    else { st with c := c', m := st.m + 1 }

/-- The corrected word and the positions whose symbol changed, for at most `k` check symbols with e + 2t ≤ k
(R164); none where the word does not decode. `erased` lists known-bad positions. -/
def rsDecode (f : GField) (k : Nat) (word : List Nat) (erased : List Nat) : Option (List Nat × List Nat) :=
  let syn := rsSyndromes f k word
  if syn.all (· = 0) then some (word, [])
  else if k < erased.length then none
  else
    let n := word.length
    let locate := fun (j : Nat) => gfAlpha f (n - 1 - j)
    let gam := erased.foldl (fun g j => polyMul f g [1, locate j]) [1]
    let forney := ((polyMul f syn gam).take k).drop erased.length
    let bm := (List.range forney.length).foldl (bmStep f forney) ⟨[1], [1], 0, 1, 1⟩
    if forney.length < 2 * bm.len then none
    else
      let psi := polyTrim (polyMul f bm.c gam)
      let omega := (polyMul f syn psi).take k
      let der := polyDeriv psi
      let roots := (List.range n).filter (fun j => polyEval f psi (gfInv f (locate j)) = 0)
      if roots.length + 1 ≠ psi.length then none
      else
        let fixed := roots.foldl (fun w j =>
          let x := locate j
          let xi := gfInv f x
          let mag := gfMul f x (gfMul f (polyEval f omega xi) (gfInv f (polyEval f der xi)))
          w.set j (w.getD j 0 ^^^ mag)) word
        if (rsSyndromes f k fixed).all (· = 0) then
          some (fixed, roots.filter (fun j => fixed.getD j 0 ≠ word.getD j 0))
        else none

/-- The outcomes of reading one codeword (R165). -/
inductive ReadOutcome where
  | clean
  | corrected (positions : List Nat)
  | poisoned
  | uncorrectable
  deriving DecidableEq, Repr

/-- A word with the poison mask XORed into its `k` check symbols (R166, R167, R345). -/
def maskChecks (k mask : Nat) (word : List Nat) : List Nat :=
  word.zipIdx.map (fun c => if word.length - k ≤ c.2 then c.1 ^^^ mask else c.1)

/-- The four rows of R165, in their order, with the corrected word. -/
def readCodeword (f : GField) (k mask : Nat) (word erased : List Nat) : List Nat × ReadOutcome :=
  match rsDecode f k word erased, rsDecode f k (maskChecks k mask word) erased with
  | some (w, []), _ => (w, .clean)
  | some (w, ps), none => (w, .corrected ps)
  | some (w, ps), some (v, qs) => if ps.length < qs.length then (w, .corrected ps) else (v, .poisoned)
  | none, some (v, _) => (v, .poisoned)
  | none, none => (word, .uncorrectable)

/-- One byte into a reflected CRC with polynomial `poly`. -/
def crcByte (poly crc b : Nat) : Nat :=
  (List.range 8).foldl (fun c _ => if c % 2 = 1 then (c / 2) ^^^ poly else c / 2) (crc ^^^ b)

/-- CRC-32 with the IEEE 802.3 polynomial (R90). -/
def crc32 (bs : List Nat) : Nat :=
  bs.foldl (crcByte 0xEDB88320) 0xFFFFFFFF ^^^ 0xFFFFFFFF

end Sys2Proof
end

