-- ==== Sys2Proof/Machine/Pmu.lean ====
section
/-!
DEFINITION. What records and counts: the firing of Strandline triggers (R576), fixed causes (R575), the performance
counters (R588 to R590), their notices (R600) and the sample buffers (R597).
-/
namespace Sys2Proof.Machine

/-! ## Strandline triggers -/

/-- Ten-thousandths of a millisecond: the unit of `now` is 0.1 ns. -/
def perMs : Nat := 10 ^ 7

/-- A record handed to Strandline. -/
def State.stlPush (s : State) (e : StlEvent) : State :=
  { s with strand := { s.strand with queue := s.strand.queue ++ [e] } }

/-- A fixed cause, always marked (R575). -/
def State.fixedCause (s : State) (code info : Nat) : State := s.stlPush ⟨code, info, s.arbNs, true⟩

/-- One trigger against one event: does it match (R576)? -/
def State.trigMatches (s : State) (t src value sev : Nat) : Bool :=
  let cfg := s.rd 4 0x1A0 (0x2000 + 16 * t)
  let m := s.rd 4 0x1A0 (0x2008 + 16 * t)
  bitAt cfg 63 && bits cfg 55 52 = src &&
  (if src = 5 then true else (value ^^^ bits m 31 0) &&& bits m 63 32 = 0) &&
  (src ≠ 1 || max 2 (bits cfg 1 0) ≤ sev)

/-- One trigger offered an event: it fires, or its match in hold-off is counted (R576). -/
def State.offerTrig (s : State) (t src value sev info : Nat) : State :=
  if s.trigMatches t src value sev then
    let cfg := s.rd 4 0x1A0 (0x2000 + 16 * t)
    let hold := bits cfg 31 16 * perMs
    match mapFind s.strand.fired t with
    | some last =>
      if s.now < last + hold then s.finc 4 STL_STATUS.SUPPRESSED_CNT
      else
        ({ s with strand := { s.strand with fired := mapSet s.strand.fired t s.now } }).stlPush
          ⟨t, info, s.arbNs, bitAt cfg 62⟩
    | none =>
      ({ s with strand := { s.strand with fired := mapSet s.strand.fired t s.now } }).stlPush
        ⟨t, info, s.arbNs, bitAt cfg 62⟩
  else s

/-- An event offered to all triggers in ascending number (R576). -/
def State.fireTriggers (s : State) (src value sev info : Nat) : State :=
  foldN 64 (fun t n => t.offerTrig n src value sev info) s

/-! ## Counters -/

/-- An MSI sent to an IMSIC file; identity 0 sends nothing (R526, R600). -/
def State.sendMsi (s : State) (hart file eiid : Nat) : State :=
  if eiid = 0 then s else { s with msis := s.msis ++ [⟨hart, file, eiid⟩] }

/-- The notice that a register of the layout of R600 and R526 names. -/
def State.notify (s : State) (w : Word) : State :=
  if bitAt w 63 then s.sendMsi (bits w 23 18) (bits w 16 16) (bits w 7 0) else s

/-- Where a counter and its select lie: die counter `i`, or counter `i` of core `n` (R603). -/
def selOff (core : Option Nat) (i : Nat) : Nat :=
  match core with
  | none => 0x100 + 8 * i
  | some _ => 0x200 + 8 * i

def cntOff (core : Option Nat) (i : Nat) : Nat :=
  match core with
  | none => 0x180 + 8 * i
  | some n => 0x1000 + 0x40 * n + 8 * i

/-- What a wrap of a counter does: its sticky bit, the notice, the triggers and the freeze (R589). -/
def State.counterWrap (s : State) (die : Nat) (core : Option Nat) (i : Nat) : State :=
  let b := pmuBlk die
  let s1 :=
    match core with
    | none => s.wr die b 0x008 (setBits (s.rd die b 0x008) i i 1)
    | some n =>
      let t := s.wr die b 0x008 (setBits (s.rd die b 0x008) (16 + i) (16 + i) 1)
      t.wr die b 0x038 (setBits (t.rd die b 0x038) n n 1)
  let val := die * 256 + (match core with | none => 0x10 + i | some _ => i)
  let s2 :=
    if bitAt (s1.rd die b (selOff core i)) 61 then (s1.notify (s1.rd die b 0x018)).fireTriggers 3 val 0 val else s1
  if s2.fbit die (PMU_CTRL.FREEZE_ON_OVF.inBlk b) then s2.fset die (PMU_CTRL.EN.inBlk b) 0 else s2

/-- `inc` added to one counter; a carry goes to a chained odd partner, or wraps with R589. -/
def State.addCounter (s : State) (die : Nat) (core : Option Nat) (i inc : Nat) : State :=
  let b := pmuBlk die
  let v := bits (s.rd die b (cntOff core i)) 47 0 + inc
  let s1 := s.wr die b (cntOff core i) (BitVec.ofNat 64 (v % 2 ^ 48))
  if v < 2 ^ 48 then s1
  else if i % 2 = 0 && bitAt (s.rd die b (selOff core (i + 1))) 62 then
    let u := bits (s1.rd die b (cntOff core (i + 1))) 47 0 + v / 2 ^ 48
    let s2 := s1.wr die b (cntOff core (i + 1)) (BitVec.ofNat 64 (u % 2 ^ 48))
    if u < 2 ^ 48 then s2 else s2.counterWrap die core (i + 1)
  else s1.counterWrap die core i

/-- One counter offered an event with value `inc` in each of `cycles` cycles of its clock (R588, R590). -/
def State.offerCounter (s : State) (die : Nat) (core : Option Nat) (i code inc cycles : Nat) : State :=
  let sel := s.rd die (pmuBlk die) (selOff core i)
  let chained := i % 2 = 1 && bitAt sel 62
  if bitAt sel 63 && bits sel 11 0 = code && !chained then
    let n := if bitAt sel 60 then (if bits sel 55 40 < inc then 1 else 0) else inc
    if n * cycles = 0 then s else s.addCounter die core i (n * cycles)
  else s

/-- An event of value `inc` in each of `cycles` cycles, counted by the die counters of its die (R588, R594, R595). -/
def State.pmuCycles (s : State) (die code inc cycles : Nat) : State :=
  if s.fbit die (PMU_CTRL.EN.inBlk (pmuBlk die)) then
    foldN 16 (fun t i => t.offerCounter die none i code inc cycles) s
  else s

/-- An event counted by the die counters of its die (R594, R595). -/
def State.pmuEvent (s : State) (die code inc : Nat) : State := s.pmuCycles die code inc 1

/-- An event of value `inc` in each of `cycles` cycles, counted by the counters of one Tide core while a work item runs (R588). -/
def State.coreCycles (s : State) (die core code inc cycles : Nat) : State :=
  if s.fbit die (PMU_CTRL.EN.inBlk (pmuBlk die)) && s.running die then
    foldN 8 (fun t i => t.offerCounter die (some core) i code inc cycles) s
  else s

/-- An event counted by the counters of one Tide core, while a work item runs (R588). -/
def State.coreEvent (s : State) (die core code inc : Nat) : State := s.coreCycles die core code inc 1

/-! ## Sample buffer -/

def State.sampler (s : State) (die : Nat) : Sampler := mapGet ⟨0, 1⟩ s.samplers die

/-- A 32 B record, as four words, written at HEAD (R597, R602). -/
def State.sbRecord (s : State) (die : Nat) (ws : List Word) : State :=
  let b := pmuBlk die
  let held := (s.sampler die).held
  if s.fbit die (PMU_SB_CTRL.STOPPED.inBlk b) || (512 ≤ held && s.fbit die (PMU_SB_CTRL.STOP_WHEN_FULL.inBlk b)) then
    (s.fset die (PMU_SB_CTRL.STOPPED.inBlk b) 1).finc die (PMU_SB_CTRL.LOST_CNT.inBlk b)
  else
    let head := s.fget die (PMU_SB_CTRL.HEAD.inBlk b)
    let s1 := ws.zipIdx.foldl (fun t w => t.wr die b (0x4000 + 32 * head + 8 * w.2) w.1) s
    let s2 := s1.fset die (PMU_SB_CTRL.HEAD.inBlk b) ((head + 1) % 512)
    { s2 with samplers := mapSet s2.samplers die { s2.sampler die with held := min 512 (held + 1) } }

end Sys2Proof.Machine
end

