-- ==== Sys2Proof/Machine/StackMem.lean ====
section
/-!
DEFINITION. The stored codewords of the stacks and how a vault controller reads and writes blocks: placed and striped
parts (R160), the vault code (R163 to R166), the crumb path (R167), what a read records (R165, R178, R183) and
injection (R185).
-/
namespace Sys2Proof.Machine

/-- The placed share of each vault (R160, R186). -/
def State.share (s : State) (die : Nat) : Nat := s.fget die MFS_SPLIT.SPLIT * 2 ^ 29

/-- The vault and vault offset of an offset within a die's stack range (R160). -/
def stackLoc (share o : Nat) : Nat × Nat :=
  if o < 64 * share then (o / share, o % share)
  else
    let so := o - 64 * share
    let stripe := so / 256
    (stripe % 64, share + stripe / 64 * 256 + so % 256)

/-- The offset within the die's stack range of a vault offset: the inverse of R160. -/
def stackOff (share v voff : Nat) : Nat :=
  if voff < share then v * share + voff
  else 64 * share + ((voff - share) / 256 * 64 + v) * 256 + voff % 256

/-- The channel that serves a 128 B block of a vault (R159). -/
def blockChannel (block : Nat) : Nat := block % 8

/-- The column, bank and row of a block of a vault (R159). -/
def blockColumn (block : Nat) : Nat := block / 8 % 16
def blockBank (block : Nat) : Nat := block / 128 % 16
def blockRow (block : Nat) : Nat := block / 2048 % 8192

/-- The placed share of a die and its crumb region, first and end unit of 256 MiB (R160, R187). -/
def State.codeOf (s : State) (die : Nat) : Nat × Nat × Nat :=
  (s.share die, min (s.fget die MFS_CRUMB.BASE) 512, min (s.fget die MFS_CRUMB.LIMIT) 512)

/-- Does a block lie in the crumb region of a setting (R167, R187)? -/
def crumbIn (c : Nat × Nat × Nat) (v block : Nat) : Bool :=
  let o := stackOff c.1 v (block * 128)
  c.2.1 * 2 ^ 28 ≤ o && o < c.2.2 * 2 ^ 28

/-- Does a block lie in the crumb region (R167, R187)? -/
def State.isCrumb (s : State) (die v block : Nat) : Bool := crumbIn (s.codeOf die) v block

/-- The place of one wire's byte of a stored block. -/
def rawKey (die v block wire : Nat) : Nat := ((die * 64 + v) * 2 ^ 24 + block) * 256 + wire

/-- Wire bytes of a stored block, and after them four marks of the code that each quarter was written under: 1 the vault code, 2 the
crumb code, 0 that of the vault's initialisation (R169; log entry 54). -/
def rawBytes : Nat := 148

/-- A stored block: its 144 wire bytes and its marks. -/
def State.rawBlock (s : State) (die v block : Nat) : List Nat :=
  (memReadN s.stack (rawKey die v block 0) rawBytes).map BitVec.toNat

def State.setRaw (s : State) (die v block : Nat) (w : List Nat) : State :=
  { s with stack := memWriteN s.stack (rawKey die v block 0) (w.map (BitVec.ofNat 8)) }

/-- The mark of a quarter of a stored block, with 0 resolved. -/
def State.codeMark (s : State) (die v block q : Nat) : Nat :=
  let m := (s.rawBlock die v block).getD (144 + q) 0
  if m = 0 then (if crumbIn (s.vault die v).code v block then 2 else 1) else m

/-- The mark of a code. -/
def markOf (crumb : Bool) : Nat := if crumb then 2 else 1

/-- The quarters that a codeword covers: all four, or crumb `q`. -/
def codeQuarters (crumb : Bool) (q : Nat) : List Nat := if crumb then [q] else List.range 4

/-- The wires that carry a codeword: a whole block, or crumb `q` (R163, R167). -/
def codeWires (crumb : Bool) (q : Nat) : List Nat :=
  if crumb then (List.range 32).map (· + 32 * q) ++ (List.range 4).map (· + 128 + 4 * q)
  else List.range 144

def checkCount (crumb : Bool) : Nat := if crumb then 4 else 16

/-- The poison mask of the stack's codes (R166, R167). -/
def stackMask : Nat := 0x5A

/-- The 144 wire bytes of a block: encoded by its region's code, each codeword poisoned or not. -/
def encodeBlock (crumb : Bool) (dat : List Nat) (poison : List Bool) : List Nat :=
  if crumb then
    let qs := (List.range 4).map (fun q =>
      let d := (dat.drop (32 * q)).take 32
      maskChecks 4 (if poison.getD q false then stackMask else 0) (d ++ rsEncode gf8 4 d))
    qs.flatMap (fun w => w.take 32) ++ qs.flatMap (fun w => w.drop 32)
  else maskChecks 16 (if poison.any id then stackMask else 0) (dat ++ rsEncode gf8 16 dat)

/-- A block stored on its channel, as wire bytes and marks. An armed injection inverts one wire of the stored block and disarms (R185).
A rewrite of the block is no longer due once it is stored. -/
def State.storeRaw (s : State) (die v block : Nat) (w : List Nat) : State :=
  let armed := s.fbit die (MFS_INJECT.ARM.unit v) && s.fget die (MFS_INJECT.CHANNEL.unit v) = blockChannel block
  let wire := s.fget die (MFS_INJECT.WIRE.unit v)
  let w' := if armed && wire < 144 then w.set wire (w.getD wire 0 ^^^ 0xFF) else w
  let s1 := if armed then s.fset die (MFS_INJECT.ARM.unit v) 0 else s
  (s1.setRaw die v block w').updVault die v (fun x => { x with rewrite := x.rewrite.filter (fun b => b / 4 ≠ block) })

/-- A block encoded by its region's code and stored. -/
def State.writeBlock (s : State) (die v block : Nat) (dat : List Byte) (poison : List Bool) : State :=
  let crumb := s.isCrumb die v block
  s.storeRaw die v block (encodeBlock crumb (dat.map BitVec.toNat) poison ++ List.replicate 4 (markOf crumb))

/-- A block copied to another of its bank by ROWCOPY: its wires as stored, check bytes included (R174). -/
def State.copyBlock (s : State) (die v src dst : Nat) : State :=
  s.storeRaw die v dst ((s.rawBlock die v src).take 144 ++ (List.range 4).map (s.codeMark die v src))

/-- Blocks filled with zeros by ROWFILL, under the codes of their regions (R174). An armed injection strikes the first of them on its
channel (DESIGN CHOICE, log entry 54). -/
def State.zeroBlocks (s : State) (die v first n : Nat) : State :=
  let s1 := { s with stack := memClear s.stack (rawKey die v first 0) (rawKey die v (first + n) 0) }
  let zeros := List.replicate 128 (0 : Byte)
  let s2 := if s1.codeOf die = (s1.vault die v).code then s1
    else foldN n (fun t i => t.writeBlock die v (first + i) zeros (List.replicate 4 false)) s1
  if s2.fbit die (MFS_INJECT.ARM.unit v) then
    match (List.range n).find? (fun i => blockChannel (first + i) = s2.fget die (MFS_INJECT.CHANNEL.unit v)) with
    | some i => s2.writeBlock die v (first + i) zeros (List.replicate 4 false)
    | none => s2
  else s2

/-- Wires erased on a channel (R164). -/
def State.erasedOn (s : State) (die v ch : Nat) : List Nat := mapGet [] (s.vault die v).erased ch

/-- ERASE_LIMIT: 0 and values above 8 act as 8 (R181). -/
def State.eraseLimit (s : State) (die v : Nat) : Nat :=
  let x := s.fget die (MFS_CTRL.ERASE_LIMIT.unit v)
  if x = 0 ∨ 8 < x then 8 else x

/-- FENCE_REQ set once, with its record and fault event, where a condition of R178 holds. -/
def State.checkFenceReq (s : State) (die v : Nat) : State :=
  let many := (List.range 8).any (fun ch => s.eraseLimit die v < (s.erasedOn die v ch).length)
  let lim := s.fget die (MFS_CTRL.UNCORR_LIMIT.unit v)
  let bad := lim ≠ 0 && lim ≤ s.fget die (MFS_STATUS.UNCORR_TOTAL.unit v)
  if (many || bad) && !s.fbit die (MFS_STATUS.FENCE_REQ.unit v) then
    (s.fset die (MFS_STATUS.FENCE_REQ.unit v) 1).logErr die 2 0x03 v 0x4 0
  else s

/-- One corrected symbol counted toward an erasure of its wire: 16 codewords of the channel within 1 ms (R164). -/
def State.noteWire (s : State) (die v ch wire : Nat) : State :=
  let k := ch * 256 + wire
  let vt := s.vault die v
  let times := ((mapGet [] vt.hits k).filter (fun t => s.now < t + 10 ^ 7)) ++ [s.now]
  let gone := mapGet [] vt.erased ch
  let s1 := s.updVault die v (fun x => { x with hits := mapSet x.hits k times })
  if 16 ≤ times.length && !gone.contains wire && gone.length < 8 then
    let s2 := s1.updVault die v (fun x => { x with erased := mapSet x.erased ch (gone ++ [wire]) })
    let w := setBits (s2.rd die (0x200 + v) 0x20) (32 + 4 * ch + 3) (32 + 4 * ch) (gone.length + 1)
    let s3 := (s2.wr die (0x200 + v) 0x20 w).fsets die
      [(MFS_ERASE.LAST_VALID.unit v, 1), (MFS_ERASE.LAST_CHANNEL.unit v, ch), (MFS_ERASE.LAST_WIRE.unit v, wire)]
    (s3.logErr die 0 0x03 v 0x3 wire).checkFenceReq die v
  else s1

/-- MFS_ECC_ERR takes the first uncorrectable or poisoned read (R183). -/
def State.captureEcc (s : State) (die v block : Nat) (poisoned crumb : Bool) (q src : Nat) : State :=
  if s.fbit die (MFS_ECC_ERR.VALID.unit v) then s
  else s.fsets die
    [(MFS_ECC_ERR.VALID.unit v, 1), (MFS_ECC_ERR.POISONED.unit v, b2n poisoned), (MFS_ECC_ERR.CRUMB.unit v, b2n crumb),
     (MFS_ECC_ERR.QUARTER.unit v, if crumb then q else 0), (MFS_ECC_ERR.SOURCE.unit v, src),
     (MFS_ECC_ERR.BLOCK.unit v, block)]

/-- What one codeword read records (R165): counts, MFS_ECC_ERR, erasures, FENCE_REQ and the rewrite that is due. -/
def State.noteRead (s : State) (die v block : Nat) (crumb : Bool) (q src : Nat) (o : ReadOutcome) : State :=
  match o with
  | .clean => s
  | .corrected ps =>
    (ps.map (fun p => (codeWires crumb q).getD p 0)).foldl
      (fun t w => t.noteWire die v (blockChannel block) w) (s.finc die (MFS_ECC_CNT.CORR_CNT.unit v))
  | .poisoned =>
    ((s.finc die (MFS_ECC_CNT.POISON_CNT.unit v)).captureEcc die v block true crumb q src).logErr die 2 0x03 v 0x2
      (block * 128)
  | .uncorrectable =>
    -- until the rewrite completes, a further read is reported and not counted again
    if (s.vault die v).rewrite.contains (block * 4 + q) then s.captureEcc die v block false crumb q src
    else
      let s1 := (s.finc die (MFS_ECC_CNT.UNCORR_CNT.unit v)).finc die (MFS_STATUS.UNCORR_TOTAL.unit v)
      let s2 := (s1.captureEcc die v block false crumb q src).logErr die 2 0x03 v 0x1 (block * 128)
      (s2.updVault die v (fun x => { x with rewrite := x.rewrite ++ [block * 4 + q] })).checkFenceReq die v

/-- The SOURCE codes of R183. -/
def srcStream : Nat := 0
def srcDynamic : Nat := 1
def srcGlaze : Nat := 2
def srcScrub : Nat := 3
def srcRefill : Nat := 4

/-- A block as read: its bytes, which of its four quarters are poisoned at home, and which are uncorrectable. -/
structure BlockRead where
  bytes : List Byte
  poison : List Bool
  uncorr : List Bool
  deriving DecidableEq, Repr

/-- Any quarter of a block that is no good data. -/
def BlockRead.bad (b : BlockRead) : Bool := b.poison.any id || b.uncorr.any id

/-- One codeword of a block read and recorded. One that was written under the other code reads uncorrectable (R169). -/
def State.readCode (s : State) (die v block : Nat) (crumb : Bool) (q src : Nat) : List Nat × ReadOutcome × State :=
  let raw := s.rawBlock die v block
  let wires := codeWires crumb q
  let gone := s.erasedOn die v (blockChannel block)
  let erasedPos := (wires.zipIdx.filter (fun w => gone.contains w.1)).map (·.2)
  let word := wires.map (fun i => raw.getD i 0)
  let (w, o) :=
    if (codeQuarters crumb q).all (fun k => s.codeMark die v block k = markOf crumb) then
      readCodeword gf8 (checkCount crumb) stackMask word erasedPos
    else (word, ReadOutcome.uncorrectable)
  (w.take (w.length - checkCount crumb), o, s.noteRead die v block crumb q src o)

/-- A block read by one codeword, or in the crumb region by the crumbs that `need` selects; the others are not touched and give zeros
(R165, R167, R168). -/
def State.readQuarters (s : State) (die v block src : Nat) (need : Nat → Bool) : BlockRead × State :=
  if s.isCrumb die v block then
    (List.range 4).foldl (fun (acc : BlockRead × State) q =>
      if need q then
        let (d, o, t) := acc.2.readCode die v block true q src
        (⟨acc.1.bytes ++ d.map (BitVec.ofNat 8), acc.1.poison ++ [decide (o = .poisoned)],
          acc.1.uncorr ++ [decide (o = .uncorrectable)]⟩, t)
      else (⟨acc.1.bytes ++ List.replicate 32 0, acc.1.poison ++ [false], acc.1.uncorr ++ [false]⟩, acc.2)) (⟨[], [], []⟩, s)
  else
    let (d, o, t) := s.readCode die v block false 0 src
    (⟨d.map (BitVec.ofNat 8), List.replicate 4 (decide (o = .poisoned)),
      List.replicate 4 (decide (o = .uncorrectable))⟩, t)

/-- A whole block read (R165, R167). -/
def State.readBlock (s : State) (die v block src : Nat) : BlockRead × State := s.readQuarters die v block src (fun _ => true)

/-- Zeros, or bytes that read poisoned. -/
def poisonedBlock : BlockRead := ⟨List.replicate 128 0, List.replicate 4 true, List.replicate 4 false⟩

/-- The state code of a vault (R180). -/
def State.vState (s : State) (die v : Nat) : Nat := s.fget die (MFS_STATUS.STATE.unit v)

/-- Does a vault have a Glaze area in use (R205)? -/
def State.hasArea (s : State) (die v : Nat) : Bool := s.fbit die (GLZ_AREA.VALID.unit v)

/-- First byte of the Glaze area, a vault offset (R205). -/
def State.areaBase (s : State) (die v : Nat) : Nat := s.fget die (GLZ_AREA.BASE.unit v) * 2 ^ 20

/-- Does a vault have a directory area (R273)? -/
def State.hasDir (s : State) (die v : Nat) : Bool := s.hasArea die v && 4 ≤ s.fget die (GLZ_AREA.BASE.unit v)

/-- Does a block lie in the Glaze area or the directory area of its vault, which only the unit and the home access
(R205, R273)? -/
def State.hiddenBlock (s : State) (die v block : Nat) : Bool :=
  let a := block * 128
  let base := s.areaBase die v
  s.hasArea die v &&
  ((base ≤ a && a < base + s.fget die (GLZ_AREA.SIZE.unit v) * 2 ^ 20) ||
   (4 ≤ s.fget die (GLZ_AREA.BASE.unit v) && base - 4 * 2 ^ 20 ≤ a && a < base))

/-- May a dynamic access reach a block: not in a vault that is not initialised or is fenced, and not in a protected
area (R175, R179, R205, R273)? -/
def State.dynClosed (s : State) (die v block : Nat) : Bool :=
  s.vState die v = vUNINIT || s.vState die v = vFENCED || s.hiddenBlock die v block

/-- A dynamic read of the quarters of a block that `need` selects: a closed block returns poison (R168, R175, R179, R205). It counts as
one dynamic vault access (R594). -/
def State.dynRead (s : State) (die v block src : Nat) (need : Nat → Bool) : BlockRead × State :=
  if s.dynClosed die v block then (poisonedBlock, s)
  else (s.pmuEvent die 0x111 1).readQuarters die v block src need

/-- A dynamic write of part of a block under a byte mask: read, merge, re-encode, write (R162). A closed block discards
it with a record (R175, R179, R205). Poison of a quarter that is not wholly overwritten stays; outside the crumb region
the whole block counts as one quarter (R166, R167). -/
def State.dynWriteM (s : State) (die v block off : Nat) (dat : List Byte) (mask : List Bool) (poison : Bool) (src : Nat) :
    State :=
  if s.dynClosed die v block then s.logErr die 2 0x03 v 0x6 (block * 128 + off)
  else if off = 0 && dat.length = 128 && mask.all id then
    (s.pmuEvent die 0x111 1).writeBlock die v block dat (List.replicate 4 poison)
  else
    let (b, t) := (s.pmuEvent die 0x111 1).readBlock die v block src
    let crumb := s.isCrumb die v block
    let wr := fun (i : Nat) => off ≤ i && mask.getD (i - off) false
    let merged := b.bytes.zipIdx.map (fun p => if wr p.2 then dat.getD (p.2 - off) 0 else p.1)
    let old := (b.poison.zip b.uncorr).map (fun p => p.1 || p.2)
    let quarter := fun (q : Nat) =>
      let idx := (List.range 32).map (· + 32 * q)
      (old.getD q false && !idx.all wr) || (poison && idx.any wr)
    let ps := if crumb then (List.range 4).map quarter else List.replicate 4 (old.any id || poison)
    t.writeBlock die v block merged ps

/-- A dynamic write of contiguous bytes. -/
def State.dynWrite (s : State) (die v block off : Nat) (dat : List Byte) (poison : Bool) (src : Nat) : State :=
  s.dynWriteM die v block off dat (List.replicate dat.length true) poison src

/-- Bytes of a die's stack range, by dynamic reads of the blocks that hold them; the flag is poison. -/
def State.stackRead (s : State) (die o n src : Nat) : List Byte × Bool × State :=
  let first := o / 128
  let last := (o + n + 127) / 128
  (List.range (last - first)).foldl (fun (acc : List Byte × Bool × State) i =>
    let a := (first + i) * 128
    let (v, voff) := stackLoc (acc.2.2.share die) a
    let lo := max o a - a
    let hi := min (o + n) (a + 128) - a
    let need := fun (q : Nat) => decide (32 * q < hi) && decide (lo < 32 * q + 32)
    let (b, t) := acc.2.2.dynRead die v (voff / 128) src need
    let used := (List.range 4).any (fun q => (b.poison.getD q false || b.uncorr.getD q false) && need q)
    (acc.1 ++ (b.bytes.drop lo).take (hi - lo), acc.2.1 || used, t)) ([], false, s)

/-- Bytes written to a die's stack range by dynamic writes. -/
def State.stackWrite (s : State) (die o : Nat) (dat : List Byte) (poison : Bool) (src : Nat) : State :=
  let n := dat.length
  let first := o / 128
  let last := (o + n + 127) / 128
  (List.range (last - first)).foldl (fun (t : State) i =>
    let a := (first + i) * 128
    let (v, voff) := stackLoc (t.share die) a
    let lo := max o a
    let hi := min (o + n) (a + 128)
    t.dynWrite die v (voff / 128) (lo - a) ((dat.drop (lo - o)).take (hi - lo)) poison src) s

end Sys2Proof.Machine
end

