-- ==== Sys2Proof/Machine/Operands.lean ====
section
/-!
DEFINITION. Operand forms: the address map (R218, R219), the region attribute table (R225 to R228), global addresses
(R223), the window table (R78), slab and stack operands (R109, R110) and the fields of a slot (R66, R108).
-/
namespace Sys2Proof.Machine

/-! ## The address map -/

/-- The ranges of R218 with the placement of R219. -/
inductive Region where
  | stack (die off : Nat)
  | shelf (off : Nat)
  | tidal (off : Nat)
  | slab (die core off : Nat)
  | sbuf (die off : Nat)
  | companion (site off : Nat)
  | registers (off : Nat)
  | host (q off : Nat)
  | reserved
  deriving DecidableEq, Repr

/-- The range that holds a local address. -/
def regionOf (a : Nat) : Region :=
  if a < 0x08000000000 then .stack (a / 2 ^ 37) (a % 2 ^ 37)
  else if a < 0x18000000000 then .shelf (a - 0x08000000000)
  else if a < 0x20000000000 then .reserved
  else if a < 0x38000000000 then .tidal (a - 0x20000000000)
  else if a < 0x40000000000 then .reserved
  else if a < 0x40040000000 then
    let x := a - 0x40000000000
    .slab (x / 2 ^ 28) (x / 2 ^ 22 % 64) (x % 2 ^ 22)
  else if a < 0x40044000000 then
    let x := a - 0x40040000000
    .sbuf (x / 2 ^ 24) (x % 2 ^ 24)
  else if a < 0x60000000000 then .reserved
  else if a < 0x70000000000 then .companion ((a - 0x60000000000) / 2 ^ 39) (a % 2 ^ 39)
  else if a < 0x7F000000000 then .reserved
  else if a < 0x80000000000 then .registers (a - 0x7F000000000)
  else if a < 0xC0000000000 then .host ((a - 0x80000000000) / 2 ^ 41) (a % 2 ^ 41)
  else .reserved

/-- The base of the slab window and of one core's slab (R46). -/
def slabBase : Nat := 0x40000000000
def slabKey (die core off : Nat) : Nat := die * 2 ^ 28 + core * 2 ^ 22 + off

/-- The attribute classes of R225. -/
inductive AttrClass where
  | coherent | nonCoherent | device
  deriving DecidableEq, Repr

/-- The default attribute of R218, with POLICY write-back. -/
def defaultAttr (a : Nat) : AttrClass × Nat :=
  match regionOf a with
  | .stack .. | .shelf .. | .tidal .. | .host .. => (.coherent, 0)
  | .companion .. => (.nonCoherent, 0)
  | _ => (.device, 0)

/-- The attribute that a table of (BASE, LIMIT) words gives an address: the lowest valid entry that covers it, but
never on device or reserved ranges (R227). -/
def attrIn (table : List (Word × Word)) (a : Nat) : AttrClass × Nat :=
  match (defaultAttr a).1 with
  | .device => (.device, 0)
  | _ =>
    let unit := a / 2 ^ 21
    match table.find? (fun e => bitAt e.1 63 && bits e.1 43 21 ≤ unit && unit < bits e.2 43 21) with
    | some e => (if bitAt e.2 2 then .coherent else .nonCoherent, bits e.2 1 0)
    | none => defaultAttr a

/-- The package a global address reaches: none for this package, else the ID of R223. -/
def packageOf (ownId f : Nat) : Option Nat :=
  if f = 0 then none
  else if f = ownId then some 0
  else some f

/-! ## Windows -/

/-- The permissions an access needs (R78). -/
structure Perm where
  r : Bool
  w : Bool
  g : Bool

/-- Translation of `n` bytes at the address an address register holds, with the low bits below `align` taken as 0
(R31, R78, R109); none is a window fault. -/
def State.window (s : State) (die : Nat) (areg : Word) (n align : Nat) (p : Perm) (class5 : Bool) : Option Nat :=
  let w := bits areg 63 58
  let o := bits areg 43 0
  let base := s.fget die (SEQ_WIN_BASE.BASE.plus (0x20 * w))
  let limit := s.fget die (SEQ_WIN_LIMIT.LIMIT.plus (0x20 * w))
  let phys := s.fget die (SEQ_WIN_PHYS.PHYS.plus (0x20 * w))
  let attr := s.rd die 0 (0x1018 + 0x20 * w)
  let a := phys + (o - base)
  let cut := a % align
  if bits areg 57 44 ≠ 0 then none
  else if !bitAt attr 63 then none
  -- an access of no bytes has none outside the window
  else if n ≠ 0 && (o < base + cut || limit ≤ o || limit + cut < o + n) then none
  else if (p.r && !bitAt attr 0) || (p.w && !bitAt attr 1) || (p.g && !bitAt attr 2) then none
  else if phys / 2 ^ 44 ≠ 0 && !class5 then none
  else some (a - cut)

/-- A core context: physical core `c`, or 64 + `c` for its fold context (R87). -/
def isGuest (ctx : Nat) : Bool := 64 ≤ ctx

/-- A slab operand's offset in the slab of the performing core; a guest's slab is the upper half (R89, R109). -/
def State.slabOperand (s : State) (die ctx : Nat) (areg : Word) (n align : Nat) (p : Perm) (class5 : Bool) :
    Option Nat :=
  match s.window die areg n align p class5 with
  | none => none
  | some a =>
    match regionOf a with
    | .slab _ _ off =>
      if isGuest ctx then (if off + n ≤ 0x200000 then some (off + 0x200000) else none)
      else if off + n ≤ 0x400000 then some off
      else none
    | _ => none

/-- How a stack operand is reached (R110). -/
inductive StackWay where
  | near (v : Nat)
  | far (v h : Nat)
  | striped
  deriving DecidableEq, Repr

/-- Manhattan distance in the 8 × 8 grid (R35). -/
def hops (a b : Nat) : Nat :=
  (max (a / 8) (b / 8) - min (a / 8) (b / 8)) + (max (a % 8) (b % 8) - min (a % 8) (b % 8))

/-- Near, far or striped, for `n` bytes at die offset `o` seen from a logical core; none where the range crosses a
boundary of a share (R110, R112). DESIGN CHOICE (log entry 51): a range that runs from the last placed share into the striped part is
none too; R112 says so of a tile image, and R110 says nothing of a VRD or VWR. -/
def stackWay (share logical o n : Nat) : Option StackWay :=
  let top := 64 * share
  if top ≤ o then some .striped
  else if top < o + n then none
  else if o / share ≠ (o + n - 1) / share then none
  else
    let v := o / share
    some (if v = logical then .near v else .far v (hops logical v))

/-- The vaults that `n` bytes at die offset `o` touch. -/
def State.vaultsOf (s : State) (die o n : Nat) : List Nat :=
  ((List.range ((o + n + 127) / 128 - o / 128)).map (fun i => (stackLoc (s.share die) ((o / 128 + i) * 128)).1)).dedup

/-- Does a range touch a protected area (R205, R273)? -/
def State.hiddenRange (s : State) (die o n : Nat) : Bool :=
  (List.range ((o + n + 127) / 128 - o / 128)).any (fun i =>
    let (v, voff) := stackLoc (s.share die) ((o / 128 + i) * 128)
    s.hiddenBlock die v (voff / 128))

/-- A stack operand: its offset in the die's own stack range, and its way. Every vault it touches must accept stream
accesses (R110, R175, R179). -/
def State.stackOperand (s : State) (die logical : Nat) (areg : Word) (n align : Nat) (p : Perm) :
    Option (Nat × StackWay) :=
  match s.window die areg n align p false with
  | none => none
  | some a =>
    if a / 2 ^ 37 = die ∧ a % 2 ^ 37 + n ≤ 2 ^ 37 then
      let o := a % 2 ^ 37
      match stackWay (s.share die) logical o n with
      | none => none
      | some w =>
        if (s.vaultsOf die o n).all (fun v => s.vState die v = vACTIVE) && !s.hiddenRange die o n then some (o, w)
        else none
    else none

/-! ## Slots -/

/-- The operation code of a slot (R106). -/
def slotCode (w : Word) : Nat := bits w 63 58

/-- The cores of a slot's TARGET, as logical indices (R66). -/
def slotCores (w : Word) : List Nat :=
  if bitAt w 57 then (List.range 64).filter (fun c => bitAt w (49 + c / 8))
  else [bits w 54 49]

/-- The physical core and context that execute a logical core (R86, R104). -/
def State.placeOf (s : State) (die logical : Nat) : Nat × Nat :=
  let w := s.rd die 0 (0x100 + logical / 8 * 8)
  let b := 8 * (logical % 8)
  let host := bits w (b + 5) b
  if bitAt w (b + 7) then (host, 64 + host) else (host, host)

/-- Registers of a context. -/
def TideDie.vreg (t : TideDie) (ctx r : Nat) : BitVec 2048 := mapGet 0 t.regs.v (ctx * 32 + r)
def TideDie.sreg (t : TideDie) (ctx r : Nat) : Word := mapGet 0 t.regs.s (ctx * 16 + r)
def TideDie.areg (t : TideDie) (ctx r : Nat) : Word := mapGet 0 t.regs.a (ctx * 16 + r)

/-- p0 reads as all ones (R30). -/
def TideDie.preg (t : TideDie) (ctx r : Nat) : Word :=
  if r = 0 then BitVec.allOnes 64 else mapGet 0 t.regs.p (ctx * 8 + r)

/-- The scalar-class register codes of R108: 0–15 are s registers, 16–31 a registers. -/
def TideDie.screg (t : TideDie) (ctx r : Nat) : Word := if r < 16 then t.sreg ctx r else t.areg ctx (r - 16)

/-- Lane `i` of a v register. -/
def lane (v : BitVec 2048) (i : Nat) : Nat := v.toNat / 2 ^ (32 * i) % 2 ^ 32

/-- A v register from its lanes. -/
def ofLanes (ls : List Nat) : BitVec 2048 := BitVec.ofNat 2048 (ls.foldr (fun l acc => l + 2 ^ 32 * acc) 0)

end Sys2Proof.Machine
end

