-- ==== Sys2Proof/Machine/TideEngine.lean ====
section
/-!
DEFINITION. Stream time on a C-die: the operations in flight, the slab ports they use in each cycle (R43 to R47), the
register writes that fall due (R33, R34), the matrix pass (R113 to R116, R144 to R149) and the units, vaults and link
directions that operations occupy (R67, R238).
-/
namespace Sys2Proof.Machine

/-! ## Slab -/

/-- The aligned words of a slab range. -/
def wordsOf (key n : Nat) : List Nat := (List.range ((key + n + 3) / 4 - key / 4)).map (fun i => (key / 4 + i) * 4)

/-- The slab offset of the first word of a range whose stored parity is wrong, in a row that `served` admits (R43, R47). -/
def State.badServed (s : State) (die core o n : Nat) (served : Nat → Bool) : Option Nat :=
  ((wordsOf (slabKey die core o) n).find? (fun k => (mapFind s.slabBad k).isSome && served (k % 2 ^ 22 / 32))).map
    (fun k => k % 2 ^ 22)

/-- The slab offset of the first word of a range whose stored parity is wrong (R43, R47). -/
def State.badWord (s : State) (die core o n : Nat) : Option Nat := s.badServed die core o n (fun _ => true)

/-- A fenced core: its slab takes no further operations (R50, R55). -/
def State.isFenced (s : State) (die core : Nat) : Bool := s.fget die (TC_STATUS.STATE.unit core) = 3

def State.slabBytes (s : State) (die core o n : Nat) : List Byte := memReadN s.slab (slabKey die core o) n

/-- Bytes written under bit masks. A word wholly covered stores fresh parity; a partial write leaves a stored parity
error in place (R43). -/
def State.slabPut (s : State) (die core o : Nat) (dat mask : List Byte) : State :=
  let k := slabKey die core o
  let old := memReadN s.slab k dat.length
  let new := List.zipWith (fun (b : Byte) (dm : Byte × Byte) => (b &&& ~~~dm.2) ||| (dm.1 &&& dm.2)) old (dat.zip mask)
  let whole := (wordsOf k dat.length).filter (fun w =>
    (List.range 4).all (fun i => k ≤ w + i && w + i < k + dat.length && mask.getD (w + i - k) 0 = 0xFF))
  { s with slab := memWriteN s.slab k new, slabBad := whole.foldl mapErase s.slabBad }

/-- A mask that writes every bit of `n` bytes. -/
def fullMask (n : Nat) : List Byte := List.replicate n 0xFF

/-- A stream write to the slab, of which the rows `rows` are served. An armed injection stores word 0 of the first of them with
inverted parity, and stays armed where none is (R61; log entry 11). -/
def State.streamPut (s : State) (die core o : Nat) (dat mask : List Byte) (rows : List Nat) : State :=
  let s1 := s.slabPut die core o dat mask
  match rows with
  | row :: _ =>
    if s.fbit die (TC_INJECT.SLAB_PARITY.unit core) then
      let s2 := s1.fset die (TC_INJECT.SLAB_PARITY.unit core) 0
      { s2 with slabBad := mapSet s2.slabBad (slabKey die core (row * 32)) 1 }
    else s1
  | [] => s1

/-! ## The matrix pass -/

/-- K, N, bytes of an activation row, bytes of an output row, and whether there are scales (R36, R115). -/
structure PassShape where
  k : Nat
  n : Nat
  actBytes : Nat
  outBytes : Nat
  scaled : Bool

/-- The format class of a code of R111: 4-bit, 8-bit, INT8, BF16. -/
def fmtClass (fmt : Nat) : Nat := if fmt = 0 then 0 else if fmt ≤ 4 then 1 else if fmt = 5 then 2 else 3

def passShape (fmt : Nat) : PassShape :=
  match fmtClass fmt with
  | 0 => ⟨128, 128, 64, 512, true⟩
  | 1 => ⟨128, 64, 128, 256, true⟩
  | 2 => ⟨128, 64, 128, 256, false⟩
  | _ => ⟨64, 64, 128, 256, false⟩

/-- Bytes of a tile image (R113). -/
def tileBytes (fmt : Nat) : Nat :=
  match fmtClass fmt with
  | 0 => 8704
  | 1 => 8448
  | _ => 8192

/-- Element codes of a row of bytes: nibbles low first, bytes, or little-endian halfwords. -/
def elemCodes (fmt : Nat) (bs : List Byte) : List Nat :=
  match fmtClass fmt with
  | 0 => bs.flatMap (fun b => [b.toNat % 16, b.toNat / 16])
  | 3 => (chunksOf 2 (bs.length / 2) bs).map leNat
  | _ => bs.map BitVec.toNat

/-- Rows k = 0 … K − 1 of a tile: the values of its N columns (R113). -/
def tileRows (fmt : Nat) (image : List Byte) : List (List FV) :=
  let sh := passShape fmt
  let per := if fmtClass fmt = 3 then 128 else 64
  (chunksOf per sh.k image).map (fun r => (elemCodes fmt r).map (decodeElem fmt))

/-- The scales of column n, block g (R113); 0x7F where the class has none. -/
def tileScale (fmt : Nat) (image : List Byte) (g n : Nat) : Nat :=
  let sh := passShape fmt
  if sh.scaled then (image.getD (8192 + sh.n * g + n) 0).toNat else 0x7F

/-- One output row (R144 to R149): for each column, the accumulate-in value and its blocks in ascending K. -/
def mpassRow (wfmt afmt : Nat) (image act scales acc : List Byte) : List Nat :=
  let sh := passShape wfmt
  let w := tileRows wfmt image
  let a := (elemCodes afmt act).map (decodeElem afmt)
  let start := (chunksOf 4 sh.n acc).map leNat
  (List.range sh.n).map (fun n =>
    let prods := List.zipWith (fun x row => fvMul x (row.getD n (.num false 0 0))) a w
    let vs :=
      if fmtClass wfmt = 3 then (chunksOf 8 8 prods).map groupValue
      else (chunksOf 32 4 prods).zipIdx.map (fun p =>
        blockValue sh.scaled (scales.getD p.2 0).toNat (tileScale wfmt image p.2 n) p.1)
    accumulate (start.getD n 0) vs)

/-! ## What a flight does in a cycle -/

/-- A slab access: core, offset and bytes. -/
structure SlabRef where
  core : Nat
  off : Nat
  n : Nat
  deriving DecidableEq, Repr

/-- The slab reads of a flight in cycle `c`, each with the key it is kept under. -/
def Flight.reads (f : Flight) (c : Nat) : List (Nat × SlabRef) :=
  let j := c - f.t
  if c < f.t then []
  else match f.kind with
  | .sld | .slds | .glz => if j = 0 then [(0, ⟨f.core, f.src, f.len⟩)] else []
  | .scopy => if j < f.len then [(j, ⟨f.core, f.src + 256 * j, 256⟩)] else []
  | .vwr => if j < f.len then [(j, ⟨f.core, f.src + 128 * j, 128⟩)] else []
  | .ssend => if j < f.len then [(j, ⟨f.core, f.src + 64 * j, 64⟩)] else []
  | .mpass =>
    let sh := passShape (f.arg.getD 0 0)
    let rows := if j < f.len then [(3 * j, ⟨f.core, f.src + sh.actBytes * j, sh.actBytes⟩)] else []
    let scls := if j < f.len && sh.scaled then [(3 * j + 1, ⟨f.core, f.arg.getD 2 0 + 4 * j, 4⟩)] else []
    let accs :=
      if 136 ≤ j && j - 136 < f.len && f.arg.getD 3 0 = 1 then
        [(3 * (j - 136) + 2, ⟨f.core, f.arg.getD 4 0 + sh.outBytes * (j - 136), sh.outBytes⟩)]
      else []
    rows ++ scls ++ accs
  | _ => []

/-- Where a flight writes the slab in cycle `c`. -/
def Flight.writeRef (f : Flight) (c : Nat) : Option SlabRef :=
  let j := c - f.t
  let d := j - f.lat
  if c < f.t then none
  else match f.kind with
  | .sst => if j = 0 then some ⟨f.core, f.dst, f.bytes.length⟩ else none
  | .ssts => if j = 0 then some ⟨f.core, f.dst, 8⟩ else none
  | .sfill => if j < f.len then some ⟨f.core, f.dst + 256 * j, 256⟩ else none
  | .scopy => if 4 ≤ j && j - 4 < f.len then some ⟨f.core, f.dst + 256 * (j - 4), 256⟩ else none
  | .vrd =>
    let b := f.arg.getD 0 128
    if f.lat ≤ j && d < f.len then some ⟨f.core, f.dst + b * d, b⟩ else none
  | .ssend => if f.lat ≤ j && d < f.len then some ⟨f.arg.getD 0 0, f.dst + 64 * d, 64⟩ else none
  | .mpass =>
    let ob := (passShape (f.arg.getD 0 0)).outBytes
    if 140 ≤ j && j - 140 < f.len then some ⟨f.core, f.dst + ob * (j - 140), ob⟩ else none
  | _ => none

/-- The bytes a flight writes in cycle `c`, and their mask. -/
def Flight.writeData (f : Flight) (c : Nat) : List Byte × List Byte :=
  let j := c - f.t
  match f.kind with
  | .sst => (f.bytes, f.mask)
  | .ssts => (f.bytes, fullMask 8)
  | .sfill => (f.bytes, fullMask 256)
  | .scopy => (mapGet [] f.buf (j - 4), fullMask 256)
  | .vrd =>
    let b := f.arg.getD 0 128
    ((f.bytes.drop (b * (j - f.lat))).take b, fullMask b)
  | .ssend =>
    -- arg: receiver core and half, then the damaged block plus 1, its byte and the bits that arrive inverted
    let bs := mapGet [] f.buf (j - f.lat)
    let k := f.arg.getD 3 0
    (if f.arg.getD 2 0 = j - f.lat + 1 then bs.set k (bs.getD k 0 ^^^ BitVec.ofNat 8 (f.arg.getD 4 0)) else bs,
      fullMask 64)
  | .mpass =>
    let r := j - 140
    let ob := (passShape (f.arg.getD 0 0)).outBytes
    let acc := if f.arg.getD 3 0 = 1 then mapGet [] f.buf (3 * r + 2) else List.replicate ob 0
    let out := mpassRow (f.arg.getD 0 0) (f.arg.getD 1 0) f.bytes (mapGet [] f.buf (3 * r))
      (mapGet [] f.buf (3 * r + 1)) acc
    (out.flatMap (leBytes 4), fullMask ob)
  | _ => ([], [])

/-- The last cycle in which a flight has anything left to do. -/
def Flight.last (f : Flight) : Nat :=
  match f.kind with
  | .scopy => f.t + 4 + f.len - 1
  | .sfill | .vwr => f.t + f.len - 1
  | .vrd | .ssend => f.t + f.lat + f.len - 1
  | .mpass => f.t + 140 + f.len - 1
  | _ => f.t

/-- A 32 B row of a bank used in a cycle, by flight number, half of the stream cycle (R88), core and port. -/
structure PortUse where
  idx : Nat
  guest : Bool
  core : Nat
  wr : Bool
  row : Nat
  deriving DecidableEq, Repr

/-- The bank rows of an access; the bank is the row number mod 64 (R43). -/
def rowsOf (r : SlabRef) : List Nat := (List.range ((r.off + r.n + 31) / 32 - r.off / 32)).map (· + r.off / 32)

def Flight.uses (f : Flight) (idx c : Nat) : List PortUse :=
  let g := isGuest f.ctx
  let rd := (f.reads c).flatMap (fun r => (rowsOf r.2).map (fun row => (⟨idx, g, r.2.core, false, row⟩ : PortUse)))
  let gw := if f.kind = .ssend then f.arg.getD 1 0 = 1 else g
  let wr := match f.writeRef c with
    | some r => (rowsOf r).map (fun row => (⟨idx, gw, r.core, true, row⟩ : PortUse))
    | none => []
  rd ++ wr

/-- Two uses of one port of one bank that it cannot serve together (R44): different operations, or different rows. -/
def PortUse.clash (a b : PortUse) : Bool :=
  a.guest = b.guest && a.core = b.core && a.wr = b.wr && a.row % 64 = b.row % 64 && (a.idx ≠ b.idx || a.row ≠ b.row)

/-- The freeze of a die has no cause left (R83). -/
def TideDie.unfrozen (t : TideDie) : Bool := !t.freezeRefresh && !t.freezeFetch

/-- What the stream uses of the slab ports in the present cycle; nothing while the die is frozen (R83). -/
def TideDie.portUses (t : TideDie) : List PortUse :=
  if t.unfrozen then t.flights.zipIdx.flatMap (fun f => f.1.uses f.2 t.cycle) else []

/-- Is a bank port that a dynamic access needs used by the stream in the present cycle (R46)? -/
def State.slabPortBusy (s : State) (die core off n : Nat) (write : Bool) : Bool :=
  let us := (s.td die).portUses
  (rowsOf ⟨core, off, n⟩).any (fun row => us.any (fun u => u.core = core && u.wr = write && u.row % 64 = row % 64))

/-- A dynamic write of a slab. Where the stream reads one of its rows in the present cycle, the bytes land after that read
(R45). -/
def State.dynSlabPut (s : State) (die core off : Nat) (d mask : List Byte) : State :=
  let us := (s.td die).portUses
  if (rowsOf ⟨core, off, d.length⟩).any (fun row => us.any (fun u => u.core = core && !u.wr && u.row = row)) then
    s.updTd die (fun t => { t with dynWrites := t.dynWrites ++ [(core, off, d, mask)] })
  else s.slabPut die core off d mask

/-- The uses of a cycle that clash. -/
def clashes (us : List PortUse) : List PortUse := us.filter (fun u => us.any u.clash)

/-- Is a row of an access among the clashing uses? -/
def clashRow (cl : List PortUse) (idx core row : Nat) (wr : Bool) : Bool :=
  cl.any (fun u => u.idx = idx && u.core = core && u.row = row && u.wr = wr)

/-- One slab read by the stream: its bytes, with free bytes for rows that were not served (R44), and the parity error
that the rows served hold (R47). DESIGN CHOICE (log entry 51): one read that finds several bad words records the first and counts one
slab parity error; R58 does not say whether each word counts. -/
def State.streamRead (s : State) (die idx : Nat) (cl : List PortUse) (r : SlabRef) : List Byte × State :=
  let served := fun row => !clashRow cl idx r.core row false
  let s1 :=
    match s.badServed die r.core r.off r.n served with
    | some o => (s.captureSlabErr die r.core o false).arithFault die r.core tcSLAB_PARITY true
    | none => s
  let bs := s.slabBytes die r.core r.off r.n
  if (rowsOf r).all served then (bs, s1)
  else
    let (w, s2) := s1.free
    (bs.zipIdx.map (fun p =>
      if served ((r.off + p.2) / 32) then p.1 else BitVec.ofNat 8 (w.toNat / 2 ^ (8 * (p.2 % 8)))), s2)

/-- The reads of one flight in cycle `c`, kept in its buffer. The flag says that a read found a parity error or was not served. -/
def State.flightReads (s : State) (die idx c : Nat) (cl : List PortUse) (f : Flight) : Flight × Bool × State :=
  (f.reads c).foldl (fun (acc : Flight × Bool × State) r =>
    let bad := (acc.2.2.badWord die r.2.core r.2.off r.2.n).isSome || (rowsOf r.2).any (fun row => clashRow cl idx r.2.core row false)
    let (bs, t) := acc.2.2.streamRead die idx cl r.2
    ({ acc.1 with buf := mapSet acc.1.buf r.1 bs }, acc.2.1 || bad, t)) (f, false, s)

/-- A register write that waits for its cycle: class 0 v, 1 s, 2 a, 3 p. -/
def regFlight (core ctx due cls idx val : Nat) : Flight :=
  { kind := .regWrite, core := core, ctx := ctx, t := due, src := 0, dst := 0, len := 0, lat := 0,
    arg := [cls, idx, val], bytes := [], mask := [], buf := [] }

/-- The scalar-class register codes of R108 as class and index. -/
def scalarReg (d : Nat) : Nat × Nat := if d < 16 then (1, d) else (2, d - 16)

/-- What a finished slab-to-register read writes (R125, R138): the lanes of an SLD, or the 8 bytes of an SLDS. -/
def loadResult (f : Flight) : Option Flight :=
  let bs := mapGet [] f.buf 0
  match f.kind with
  | .sld =>
    -- arg: v register, WIDTH, ZERO, predicate, old value
    let w := f.arg.getD 1 0
    let p := f.arg.getD 3 0
    let old := f.arg.getD 4 0
    let laneOf := fun i =>
      match w with
      | 0 => leNat ((bs.drop (4 * i)).take 4)
      | 1 => leNat ((bs.drop (2 * i)).take 2)
      | 2 => (bs.getD i 0).toNat
      | _ => (bs.getD (i / 2) 0).toNat / 16 ^ (i % 2) % 16
    let ls := (List.range 64).map (fun i =>
      if p / 2 ^ i % 2 = 1 then laneOf i
      else if f.arg.getD 2 0 = 1 then 0 else old / 2 ^ (32 * i) % 2 ^ 32)
    some (regFlight f.core f.ctx (f.t + 4) 0 (f.arg.getD 0 0) (ofLanes ls).toNat)
  | .slds =>
    let r := scalarReg (f.arg.getD 0 0)
    some (regFlight f.core f.ctx (f.t + 4) r.1 r.2 (leNat bs))
  | _ => none

/-- A GLZ whose descriptor has been read enters the core's command queue (R132); a parity error stops it (R141), and so does a
SLAB_PORT conflict, in which the descriptor is not served (R44; log entry 22). -/
def glzCommand (t : TideDie) (f : Flight) : TideDie :=
  let c : Cmd :=
    { id := t.nextCmd, core := f.core, ctx := f.ctx, kind := .glz, op := f.arg.getD 0 0, target := f.arg.getD 1 0,
      source := f.arg.getD 4 0, key := if f.arg.getD 5 0 = 1 then some (f.arg.getD 6 0, f.arg.getD 7 0) else none, length := 0, operand := 0, compare := 0, desc := mapGet [] f.buf 0, token := f.arg.getD 2 0,
      tokEn := f.arg.getD 3 0 = 1, ret := 0, retEn := false, held := t.replayable }
  { t with cmdq := t.cmdq ++ [c], nextCmd := t.nextCmd + 1 }

/-- A message of the coherence protocol, or another message between units of the package, in flight. -/
def State.streamInvalidate (s : State) (die o : Nat) : State :=
  { s with vwrInv := s.vwrInv ++ [die * 2 ^ 37 + o, die * 2 ^ 37 + o + 64] }

/-- A static flit received by a router with a parity error: counted and recorded there (R240, R261). -/
def State.staticFlit (s : State) (die router port word : Nat) : State :=
  let s1 := s.finc die SWL_CNT.STATIC_PAR_CNT
  let s2 :=
    if s1.fbit die SWL_ERR.VALID then s1
    else s1.fsets die [(SWL_ERR.VALID, 1), (SWL_ERR.DOWN, 0), (SWL_ERR.ROUTER, router), (SWL_ERR.PORT, port),
      (SWL_ERR.WORD, word), (SWL_ERR.CLASS, 7)]
  s2.logErr die 1 0x05 router 0x1 port

/-- A data flit received with a parity error, reported by the receiving core as SLAB_PARITY without a count of its own
(R240, R531). -/
def State.staticParity (s : State) (die core port word : Nat) : State :=
  ((s.staticFlit die core port word).tcFault die core tcSLAB_PARITY).updTd die
    (fun t => { t with reports := t.reports ++ [⟨core, tcSLAB_PARITY + 1, false⟩] })

/-- A report that falls due: 0 uncorrectable, 1 poison, 2 a static data flit, 3 a static request flit at its vault's router. -/
def State.dueReport (s : State) (die : Nat) (f : Flight) : State :=
  match f.arg.getD 0 0 with
  | 0 => s.arithFault die f.core tcVAULT_UNCORR false
  | 1 => s.arithFault die f.core tcPOISON false
  | 2 => s.staticParity die f.core (f.arg.getD 1 0) (f.arg.getD 2 0)
  | _ => s.staticFlit die f.core (f.arg.getD 1 0) (f.arg.getD 2 0)

/-- The write of one flight in cycle `c`: clashing rows are not served; a pass with an armed residue injection finds a
mismatch in column 0 (R61); a VWR hands its block to the vault (R128). The slab of a fenced core takes nothing (R50). -/
def State.flightWrite (s : State) (die idx c : Nat) (cl : List PortUse) (f : Flight) : State :=
  let s1 :=
    match f.writeRef c with
    | none => s
    | some r =>
      let (dat, mask) := f.writeData c
      let mask' := mask.zipIdx.map (fun p => if clashRow cl idx r.core ((r.off + p.2) / 32) true then 0 else p.1)
      let t := if s.isFenced die r.core then s
        else s.streamPut die r.core r.off dat mask' ((rowsOf r).filter (fun row => !clashRow cl idx r.core row true))
      if f.kind = .mpass && t.fbit die (TC_INJECT.RESIDUE.unit f.core) then
        let row := c - f.t - 140
        ((t.fset die (TC_INJECT.RESIDUE.unit f.core) 0).captureResidue die f.core row 0).arithFault die f.core
          tcRESIDUE true
      else t
  match f.kind with
  | .vwr =>
    let j := c - f.t
    if f.t ≤ c && j < f.len then
      let o := f.dst + 128 * j
      let (v, voff) := stackLoc (s1.share die) o
      let t := s1.writeBlock die v (voff / 128) (mapGet [] f.buf j) (List.replicate 4 false)
      if (attrIn (mapGet [] t.rat die) (die * 2 ^ 37 + o)).1 = .coherent then t.streamInvalidate die o else t
    else s1
  | .report => if c = f.t then s1.dueReport die f else s1
  | _ => s1

/-- The registers after one write. A write to p0 is discarded (R30). -/
def TideRegs.set (r : TideRegs) (ctx cls idx val : Nat) : TideRegs :=
  match cls with
  | 0 => { r with v := mapSet r.v (ctx * 32 + idx) (BitVec.ofNat 2048 val) }
  | 1 => { r with s := mapSet r.s (ctx * 16 + idx) (BitVec.ofNat 64 val) }
  | 2 => { r with a := mapSet r.a (ctx * 16 + idx) (BitVec.ofNat 64 val) }
  | _ => if idx = 0 then r else { r with p := mapSet r.p (ctx * 8 + idx) (BitVec.ofNat 64 val) }

/-- Two register writes to one register. -/
def sameReg (f g : Flight) : Bool :=
  f.ctx = g.ctx && f.arg.getD 0 0 = g.arg.getD 0 0 && f.arg.getD 1 0 = g.arg.getD 1 0

/-- The register writes due for cycle `c`: where two meet in one register neither is written, and the core records
REGWRITE (R34). DESIGN CHOICE (log entry 51): two operations that write p0 in one cycle raise REGWRITE too; R30 discards each write,
and the spec does not say whether a discarded write counts. -/
def State.applyRegs (s : State) (die c : Nat) : State :=
  let t := s.td die
  let due := t.flights.filter (fun f => f.kind = .regWrite && f.t = c)
  let twice := fun f => 2 ≤ (due.filter (sameReg f)).length
  let regs := (due.filter (fun f => !twice f)).foldl
    (fun r f => r.set f.ctx (f.arg.getD 0 0) (f.arg.getD 1 0) (f.arg.getD 2 0)) t.regs
  let s1 := s.setTd die
    { t with regs := regs, flights := t.flights.filter (fun f => !(f.kind = .regWrite && f.t ≤ c)) }
  ((due.filter twice).map (·.core)).dedup.foldl (fun x core => x.coreSched die core tcREGWRITE) s1

/-- The slab rows that the stream moves on each core in a cycle, counted (R594). -/
def State.countRows (s : State) (die : Nat) (us : List PortUse) : State :=
  (us.map (·.core)).dedup.foldl (fun x core =>
    x.coreEvent die core 0x007 ((us.filter (fun u => u.core = core)).map (fun u => (u.guest, u.wr, u.row))).dedup.length) s

/-- One stream cycle of a die: conflicts, reads, writes, and the register writes that the next cycle sees. -/
def State.runCycle (s : State) (die : Nat) : State :=
  let t := s.td die
  let c := t.cycle
  let fs := t.flights.zipIdx
  let us := fs.flatMap (fun f => f.1.uses f.2 c)
  let cl := clashes us
  let s1 := (cl.map (·.core)).dedup.foldl (fun x core => x.coreSched die core tcSLAB_PORT)
    (s.countRows die (us.filter (fun u => !cl.contains u)))
  -- reads first: a read and a write of one row in one cycle return the old data, dynamic writes included (R45)
  let (fs2, s2) := fs.foldl (fun (acc : List (Flight × Bool × Nat) × State) f =>
    let (g, bad, x) := acc.2.flightReads die f.2 c cl f.1
    (acc.1 ++ [(g, bad, f.2)], x)) ([], s1)
  let late := (s2.td die).dynWrites.foldl (fun x d => x.slabPut die d.1 d.2.1 d.2.2.1 d.2.2.2)
    (s2.updTd die (fun y => { y with dynWrites := [] }))
  let s3 := fs2.foldl (fun x f => x.flightWrite die f.2.2 c cl f.1) late
  let s4 := s3.updTd die (fun y =>
    let cmds := (fs2.filter (fun f => f.1.kind = .glz && f.1.t = c && !f.2.1)).foldl (fun z f => glzCommand z f.1) y
    let loads := (fs2.filter (fun f => f.1.t = c)).filterMap (fun f => loadResult f.1)
    { cmds with
      flights := ((fs2.map (·.1)).filter (fun f => c < f.last || (f.kind = .regWrite && c < f.t))) ++ loads,
      busy := cmds.busy.filter (fun b => c + 1 < b.hi) })
  (s4.applyRegs die (c + 1)).updTd die (fun y => { y with cycle := c + 1 })

/-- `n` stream cycles. Once nothing is in flight the remaining cycles only pass. -/
def State.runCycles (s : State) (die : Nat) : Nat → State
  | 0 => s
  | n + 1 =>
    if (s.td die).flights = [] then
      s.updTd die (fun t => { t with cycle := t.cycle + (n + 1), busy := t.busy.filter (fun b => t.cycle + n < b.hi) })
    else (s.runCycle die).runCycles die n

/-- A bound on the cycles until everything in flight has completed. -/
def drainCycles (t : TideDie) : Nat := (t.flights.map (fun f => f.last + 5 - t.cycle)).foldl max 0

/-- Stream cycles until nothing is in flight. -/
def State.settle (s : State) (die : Nat) : Nat → State
  | 0 => s
  | n + 1 => if (s.td die).flights = [] then s else (s.runCycle die).settle die n

/-- The first unit number of the refresh slots, and the end of their range. -/
def uRefreshLo : Nat := 4224
def uRefreshHi : Nat := 4288

/-- The cycle by which every tile load and placed refresh slot has ended. -/
def horizon (t : TideDie) : Nat :=
  let loads := (t.bufs.map (fun b => b.2.ready)).foldl max t.cycle
  ((t.busy.filter (fun b => uRefreshLo ≤ b.unit && b.unit < uRefreshHi)).map (·.hi)).foldl max loads

/-- Every operation already issued completes, and its checks report (R79). -/
def State.drainFlights (s : State) (die : Nat) : State :=
  (s.settle die (drainCycles (s.td die))).updTd die (fun t =>
    let c := horizon t
    { t with cycle := c, busy := t.busy.filter (fun b => c < b.hi) })

/-! ## Slots of the cycles (R592) -/

/-- `n` stream cycles of a class of R592, counted: 15 slots each, the second Tide cycle of each as duplicated by folding under
half-rate issue, and the Tide cycles themselves. Cycles of class 0x102 wait for their step to close. -/
def State.slotCycles (s : State) (die n cls : Nat) : State :=
  let half := s.fbit die SEQ_STATUS.HALF_RATE
  let tide := if half then 2 * n else n
  let s1 := if cls = 0x102 then s.updTd die (fun t => { t with stepCycles := t.stepCycles + n }) else s.pmuCycles die cls 15 n
  let s2 := s1.pmuCycles die 0x101 1 tide
  let s3 := if half then s2.pmuCycles die 0x105 15 n else s2
  if n ≠ 0 && s3.fbit die (PMU_CTRL.EN.inBlk (pmuBlk die)) then
    foldN 64 (fun x core =>
      let y := (x.coreCycles die core 0x001 1 tide).coreCycles die core 0x00C
        ((s.td die).cmdq.filter (fun c => c.core = core)).length tide
      if s.fbit die (TC_STATUS.HOSTING.unit core) then y.coreCycles die core 0x00E 1 tide else y) s3
  else s3

/-- `n` Tide cycles of a freeze (R592): they do not pass in stream time. -/
def State.freezeCycles (s : State) (die n cls : Nat) : State := (s.pmuCycles die cls 15 n).pmuCycles die 0x101 1 n

/-- The issue cycles of the step in force, counted as retired, or as replayed where it is rolled back (R592). -/
def State.closeSlots (s : State) (die cls : Nat) : State :=
  (s.pmuCycles die cls 15 (s.td die).stepCycles).updTd die (fun t => { t with stepCycles := 0 })

/-- The stream cycles in which the operations in flight complete, counted with their class. -/
def State.drainAs (s : State) (die cls : Nat) : State :=
  let s1 := s.drainFlights die
  s1.slotCycles die ((s1.td die).cycle - (s.td die).cycle) cls

/-! ## Units -/

/-- Units by context (R66, R107): W-A and W-B load paths, pass path, FMA pipes, transcendental unit, slab move path,
vault-class unit, vault port, local port, command port, scalar unit; then vaults, vaults in a refresh slot, and link
directions. -/
def uBuf (ctx b : Nat) : Nat := ctx * 16 + b
def uPass (ctx : Nat) : Nat := ctx * 16 + 2
def uFma (ctx i : Nat) : Nat := ctx * 16 + 3 + i
def uTrn (ctx : Nat) : Nat := ctx * 16 + 5
def uMove (ctx : Nat) : Nat := ctx * 16 + 6
def uVcls (ctx : Nat) : Nat := ctx * 16 + 7
def uVport (ctx : Nat) : Nat := ctx * 16 + 8
def uLocal (ctx : Nat) : Nat := ctx * 16 + 9
def uCmd (ctx : Nat) : Nat := ctx * 16 + 10
def uScalar (ctx : Nat) : Nat := ctx * 16 + 11
def uVault (v : Nat) : Nat := 4096 + v
def uRefresh (v : Nat) : Nat := uRefreshLo + v
/-- Marks the issue cycle of a Glaze command or atomic to a vault of the die (R85); several may share it. -/
def uGlzAt (v : Nat) : Nat := uRefreshHi + v
def uLink (router port : Nat) : Nat := 8192 + router * 4 + port

def busyIn (l : List Busy) (b : Busy) : Bool := l.any (fun x => x.unit = b.unit && x.lo < b.hi && b.lo < x.hi)

/-- Reservations taken in turn; none where one is already held (R67). -/
def takeUnits (l : List Busy) : List Busy → Option (List Busy)
  | [] => some l
  | b :: bs => if busyIn l b then none else takeUnits (l ++ [b]) bs

/-- The link directions of a static route: along the row to the column, then along the column (R238). Ports: 0 north,
1 east, 2 south, 3 west. -/
def routeXY (a b : Nat) : List (Nat × Nat) :=
  let r := a / 8
  let ca := a % 8
  let cb := b % 8
  let rb := b / 8
  let row := if ca ≤ cb then (List.range (cb - ca)).map (fun i => (8 * r + ca + i, 1))
    else (List.range (ca - cb)).map (fun i => (8 * r + ca - i, 3))
  let col := if r ≤ rb then (List.range (rb - r)).map (fun i => (8 * (r + i) + cb, 2))
    else (List.range (r - rb)).map (fun i => (8 * (r - i) + cb, 0))
  row ++ col

/-- The reverse of a route, as the link directions that lead back (R238). -/
def routeBack (a b : Nat) : List (Nat × Nat) :=
  let step := fun (x : Nat × Nat) =>
    match x.2 with
    | 0 => (x.1 - 8, 2)
    | 1 => (x.1 + 1, 3)
    | 2 => (x.1 + 8, 0)
    | _ => (x.1 - 1, 1)
  (routeXY a b).reverse.map step

/-- Is a link direction down (R245, R262)? -/
def State.linkDown (s : State) (die : Nat) (l : Nat × Nat) : Bool :=
  bitAt (s.rd die 0x280 (0x020 + 8 * (l.1 / 16))) (l.1 % 16 * 4 + l.2)

/-- Link i of a route, the ith that it crosses, held for `n` cycles from `t + 4i` (R238). -/
def routeBusy (links : List (Nat × Nat)) (t n : Nat) : List Busy :=
  links.zipIdx.map (fun l => ⟨uLink l.1.1 l.1.2, t + 4 * (l.2 + 1), t + 4 * (l.2 + 1) + n⟩)

/-- Every link direction of the mesh (R238, striped accesses). -/
def allLinks : List (Nat × Nat) :=
  (List.range 64).flatMap (fun r => ((List.range 4).filter (fun p =>
    match p with
    | 0 => 8 ≤ r
    | 1 => r % 8 ≠ 7
    | 2 => r < 56
    | _ => r % 8 ≠ 0)).map (fun p => (r, p)))

end Sys2Proof.Machine
end

