-- ==== Sys2Proof/Machine/TideOps.lean ====
section
/-!
DEFINITION. Issue of the slot operations (chapter 04): the encoding rules of a slot (R65, R106 to R140), the units an
operation occupies (R67, R107), and what each operation starts.
-/
namespace Sys2Proof.Machine

/-! ## Encoding rules -/

/-- A source that a function of the VPU takes: VB or the scalar (R117). -/
def secondOk (used : Bool) (w : Word) : Bool :=
  if used then (if bitAt w 20 then bits w 34 30 = 0 else bits w 19 16 = 0)
  else bits w 34 30 = 0 && !bitAt w 20 && bits w 19 16 = 0

/-- The rules of R117 to R122 for a VPU slot. -/
def vpuOk (code : Nat) (w : Word) : Bool :=
  let func := bits w 48 45
  let noA := bits w 39 35 = 0
  let noC := bits w 29 25 = 0
  bits w 15 0 = 0 &&
  (match code with
   | 0x08 =>
     if func ≤ 2 || func = 6 || func = 7 then secondOk true w && noC
     else if func ≤ 5 then secondOk true w
     else func ≤ 9 && secondOk false w && noC
   | 0x09 =>
     if func ≤ 0xA || func = 0xC then secondOk true w && noC
     else if func = 0xB then secondOk true w && bits w 29 28 = 0
     else func = 0xD && noA && secondOk false w && noC
   | 0x0A =>
     bits w 44 43 = 0 && noC &&
     (if func ≤ 6 then secondOk true w
      else func ≤ 9 && !bitAt w 20 && bits w 19 16 = 0 && bits w 39 38 = 0 && bits w 34 33 = 0)
   | 0x0B =>
     secondOk false w &&
     (if func ≤ 4 then noC else func ≤ 6 && bits w 29 28 = 0 && bits w 27 25 ≤ 4)
   | _ => func ≤ 7 && secondOk false w && noC)

/-- The column and row offsets of an SSEND, two's complement (R131). -/
def ssendTarget (w : Word) (core : Nat) : Option Nat :=
  let x := (core % 8 : Int) + signedN 4 (bits w 40 37)
  let y := (core / 8 : Int) + signedN 4 (bits w 36 33)
  if bits w 40 33 = 0 then none
  else if 0 ≤ x ∧ x < 8 ∧ 0 ≤ y ∧ y < 8 then some (y.toNat * 8 + x.toNat)
  else none

/-- The cores of a slot that lie in the image's CORE_MAP (R108). -/
def mappedCores (coreMap w : Word) : List Nat := (slotCores w).filter (fun c => bitAt coreMap c)

/-- The rules that a valid slot of a bundle must keep: R65, R80, R106, R108 and its operation's own. -/
def slotOk (coreMap : Word) (replayable : Bool) (w : Word) : Bool :=
  let single := !bitAt w 57
  (!single || (bits w 56 55 = 0 && bitAt coreMap (bits w 54 49))) &&
  (match slotCode w with
   | 0x00 => bits w 47 45 ≠ 7 && bits w 40 0 = 0
   | 0x01 => bits w 47 45 ≠ 7 && bits w 15 0 = 0
   | 0x08 => vpuOk 0x08 w
   | 0x09 => vpuOk 0x09 w
   | 0x0A => vpuOk 0x0A w
   | 0x0B => vpuOk 0x0B w
   | 0x0C => vpuOk 0x0C w
   | 0x10 => bits w 33 0 = 0
   | 0x11 => bits w 33 0 = 0
   | 0x12 => bits w 28 0 = 0
   | 0x13 => bits w 28 0 = 0
   | 0x18 => bits w 28 0 = 0
   | 0x19 => bits w 28 0 = 0
   | 0x1A => bits w 48 0 = 0
   | 0x20 => bits w 20 0 = 0 && (mappedCores coreMap w).all (fun c => (ssendTarget w c).isSome)
   | 0x28 => bits w 48 45 ≤ 7 && bits w 31 0 = 0 && !(replayable && 2 ≤ bits w 48 45 && bits w 48 45 ≤ 5)
   | 0x29 => bits w 31 0 = 0
   | 0x2A => bits w 48 45 ≤ 6 && bits w 22 0 = 0 && (bits w 48 45 = 6 || bits w 36 33 = 0) && !replayable
   | 0x30 => bits w 48 45 ≤ 0xC && (!bitAt w 29 || bits w 34 30 = 0)
   | 0x31 => bits w 48 45 = 0 && (!bitAt w 39 || bits w 38 20 = 0)
   | 0x32 => bits w 48 45 = 0 && bits w 35 0 = 0
   | 0x33 => bits w 48 45 = 0 && bits w 35 0 = 0
   | 0x34 => bits w 48 45 = 0 && bits w 27 0 = 0
   | 0x35 => single && bits w 48 45 = 0 && bits w 44 42 ≤ 3 && bits w 37 22 ≠ 0 && bits w 21 0 = 0
   | 0x36 => single && bits w 48 45 = 0 && bits w 28 0 = 0
   | _ => false)

/-! ## Issue -/

/-- What a slot sees when it issues: the die, the logical core, its place, the slot word and the damage that a static
flit of it suffers (block plus 1, byte, inverted bits). -/
structure Slot where
  die : Nat
  logical : Nat
  core : Nat
  ctx : Nat
  w : Word
  damage : Nat × Nat × Nat

def permR : Perm := ⟨true, false, false⟩
def permW : Perm := ⟨false, true, false⟩
def permG : Perm := ⟨false, false, true⟩
def permRG : Perm := ⟨true, false, true⟩
def permWG : Perm := ⟨false, true, true⟩

/-- Units held by an operation, or UNIT_BUSY (R67). Link directions that are down are held in every cycle (R245). -/
def State.hold (s : State) (die : Nat) (bs : List Busy) (links : List (Nat × Nat)) : Option State :=
  if links.any (s.linkDown die) then none
  else match takeUnits (s.td die).busy bs with
  | none => none
  | some l => some (s.updTd die (fun t => { t with busy := l }))

def State.unitBusy (s : State) (die : Nat) : State := s.endItem die .unitBusy
def State.windowFault (s : State) (die : Nat) : State := s.endItem die .window

def State.launch (s : State) (die : Nat) (f : Flight) : State :=
  s.updTd die (fun t => { t with flights := t.flights ++ [f] })

/-- An empty flight of a slot, issued in cycle `t`. -/
def Slot.flight (x : Slot) (kind : FlightKind) (t : Nat) : Flight :=
  { kind := kind, core := x.core, ctx := x.ctx, t := t, src := 0, dst := 0, len := 0, lat := 0, arg := [], bytes := [],
    mask := [], buf := [] }

/-- The blocks of a stack range, read by the stream: bytes, and whether any was uncorrectable or poisoned (R130). -/
def State.streamBlocks (s : State) (die o n : Nat) : List Byte × Bool × Bool × State :=
  (List.range (n / 128)).foldl (fun (acc : List Byte × Bool × Bool × State) i =>
    let (v, voff) := stackLoc (acc.2.2.2.share die) (o + 128 * i)
    let (b, t) := acc.2.2.2.readBlock die v (voff / 128) srcStream
    (acc.1 ++ b.bytes, acc.2.1 || b.uncorr.any id, acc.2.2.1 || b.poison.any id, t)) ([], false, false, s)

/-- The report of a load that met bad data, in its last data cycle (R130). -/
def reportFlights (x : Slot) (t : Nat) (unc poi : Bool) : List Flight :=
  (if unc then [{ x.flight .report t with arg := [0] }] else []) ++
  (if poi then [{ x.flight .report t with arg := [1] }] else [])

/-- The units, link directions, latency and repeat of a stack operation of `n64` 64 B blocks (R35, R107, R238). -/
def stackHold (x : Slot) (way : StackWay) (t nearRep farRep n64 : Nat) : List Busy × List (Nat × Nat) :=
  match way with
  | .near v => ([⟨uVport x.ctx, t, t + nearRep⟩, ⟨uVault v, t, t + nearRep⟩], [])
  | .far v _ =>
    (⟨uVault v, t, t + farRep⟩ :: (routeBusy (routeXY x.logical v) t 1 ++
      routeBusy (routeBack x.logical v) (t + 156) n64), routeXY x.logical v ++ routeBack x.logical v)
  | .striped =>
    ((List.range 64).map (fun v => ⟨uVault v, t, t + farRep⟩) ++
      allLinks.map (fun l => ⟨uLink l.1 l.2, t, t + 160 + 4 * 14 + n64⟩), allLinks)

def wayHops : StackWay → Nat
  | .near _ => 0
  | .far _ h => h
  | .striped => 14

def isNear : StackWay → Bool
  | .near _ => true
  | _ => false

/-- A received static flit with inverted bits (R240): block `d.1 − 1`, byte `d.2.1`, bits `d.2.2`. -/
def damageBytes (bs : List Byte) (d : Nat × Nat × Nat) : List Byte :=
  if d.1 = 0 then bs
  else let k := (d.1 - 1) * 64 + d.2.1; bs.set k (bs.getD k 0 ^^^ BitVec.ofNat 8 d.2.2)

/-- The mark of a damaged request flit: the vault performs no read and returns zeros (R240). -/
def reqDamage : Nat := 2 ^ 20

/-- The port by which the last link of a route enters its destination: opposite to the link's direction. -/
def entryPort (links : List (Nat × Nat)) : Nat :=
  match links.getLast? with
  | none => 0
  | some l => (l.2 + 2) % 4

/-- The reports of a damaged data flit when it lands, at the port and 64-bit word given; `t0` is the landing of the first
block (R240, R261). -/
def damageReport (x : Slot) (core t0 port : Nat) : List Flight :=
  if x.damage.1 = 0 then []
  else [{ x.flight .report (t0 + (x.damage.1 - 1)) with core := core, arg := [2, port, x.damage.2.1 / 8] }]

/-- The reports of a far read, of `n` returned blocks that land from `t0` on: of a damaged data flit at the core; of a damaged
request flit at the vault's router when it lands there, and at the core for every block, which returns with inverted parity (R240,
R261). A striped access counts with the vault `v0` of its first block. -/
def loadDamage (x : Slot) (way : StackWay) (v0 t t0 n : Nat) : List Flight :=
  let v := match way with
    | .far v _ => v
    | _ => v0
  if isNear way then []
  else if x.damage.1 = reqDamage then
    { x.flight .report (t + 4 + 4 * wayHops way) with
      core := v, arg := [3, entryPort (routeXY x.logical v), x.damage.2.1 / 8] } ::
      (List.range n).map (fun i =>
        { x.flight .report (t0 + i) with arg := [2, entryPort (routeBack x.logical v), 0] })
  else damageReport x x.core t0 (entryPort (routeBack x.logical v))

/-- What a stack operation receives: near data as read, far data with the damage of its static flits. -/
def State.streamLoad (s : State) (x : Slot) (way : StackWay) (o n : Nat) : List Byte × Bool × Bool × State :=
  if isNear way then s.streamBlocks x.die o n
  else if x.damage.1 = reqDamage then (List.replicate n 0, false, false, s)
  else
    let (dat, unc, poi, t) := s.streamBlocks x.die o n
    (damageBytes dat x.damage, unc, poi, t)

/-- TLOAD (R112): the tile image of ASRC into W-A or W-B. -/
def State.issueTload (s : State) (x : Slot) : State :=
  let t := (s.td x.die).cycle
  let fmt := bits x.w 47 45
  let b := bits x.w 48 48
  let n := tileBytes fmt
  let key := x.ctx * 2 + b
  match s.stackOperand x.die x.logical ((s.td x.die).areg x.ctx (bits x.w 44 41)) n 512 permR with
  | none => s.windowFault x.die
  | some (o, way) =>
    let inUse : Bool :=
      match mapFind (s.td x.die).bufs key with
      | some q => decide (t < q.useEnd)
      | none => false
    if inUse then s.coreSched x.die x.core tcWBUF
    else
      let rep := if isNear way then 64 else 136
      let (bs, links) := stackHold x way t 64 136 136
      match s.hold x.die (⟨uBuf x.ctx b, t, t + rep⟩ :: bs) links with
      | none => s.unitBusy x.die
      | some s1 =>
        let (img, unc, poi, s2) := s1.streamLoad x way o ((n + 127) / 128 * 128)
        let lat := if isNear way then 64 else 296 + 4 * wayHops way
        let s3 := s2.updTd x.die (fun q => { q with bufs := mapSet q.bufs key ⟨t + lat, fmt, img.take n, 0⟩ })
        let s4 := s3.coreEvent x.die x.core (if isNear way then 0x004 else 0x005) 1
        let reps := reportFlights x (t + lat - 1) unc poi ++ loadDamage x way (stackLoc (s.share x.die) o).1 t
          (t + 160 + 4 * wayHops way) 136
        reps.foldl (fun y f => y.launch x.die f) s4

/-- MPASS (R114 to R116). -/
def State.issueMpass (s : State) (x : Slot) : State :=
  let td := s.td x.die
  let t := td.cycle
  let afmt := bits x.w 47 45
  let rows := bits x.w 44 33 + 1
  let accin := bitAt x.w 24
  let key := x.ctx * 2 + bits x.w 48 48
  match mapFind td.bufs key with
  | none => s.coreSched x.die x.core tcWBUF
  | some q =>
    if t < q.ready || fmtClass q.fmt ≠ fmtClass afmt then s.coreSched x.die x.core tcWBUF
    else
      let sh := passShape q.fmt
      let op := fun (lo n al : Nat) (p : Perm) =>
        s.slabOperand x.die x.ctx (td.areg x.ctx (bits x.w (lo + 3) lo)) n al p false
      let act := op 29 (sh.actBytes * rows) sh.actBytes permR
      let scl := if sh.scaled then op 25 (4 * rows) 4 permR else some 0
      let acc := if accin then op 20 (sh.outBytes * rows) 256 permR else some 0
      let out := op 16 (sh.outBytes * rows) 256 permW
      match act, scl, acc, out with
      | some a, some sc, some ac, some ou =>
        match s.hold x.die [⟨uPass x.ctx, t, t + rows⟩] [] with
        | none => s.unitBusy x.die
        | some s1 =>
          let s2 := s1.updTd x.die (fun y =>
            { y with bufs := mapSet y.bufs key { q with useEnd := t + rows },
                     passEnd := mapSet y.passEnd x.core (t + 140 + rows) })
          (s2.coreCycles x.die x.core (if afmt = 0 then 0x002 else 0x003) 1 rows).launch x.die
            { x.flight .mpass t with
              src := a, dst := ou, len := rows, bytes := q.image, arg := [q.fmt, afmt, sc, b2n accin, ac] }
      | _, _, _, _ => s.windowFault x.die

/-- The 64 lanes of a VPU result, from the sources of R117. -/
def vpuLanes (td : TideDie) (ctx code : Nat) (w : Word) : List Nat :=
  let func := bits w 48 45
  let va := td.vreg ctx (bits w 39 35)
  let vb := td.vreg ctx (bits w 34 30)
  let vc := td.vreg ctx (bits w 29 25)
  let sb := (td.sreg ctx (bits w 19 16)).toNat % 2 ^ 32
  let p := td.preg ctx (bits w 24 22)
  let sel := td.preg ctx (bits w 27 25)
  let b := fun i => if bitAt w 20 then sb else lane vb i
  let fmt := bits w 27 25
  let qmx :=
    (List.range 2).map (fun k => blockScale fmt
      ((List.range 32).map (fun j => if bitAt p (32 * k + j) then decodeF32 (lane va (32 * k + j)) else .num false 0 0)))
  (List.range 64).map (fun i =>
    let a := lane va i
    match code with
    | 0x08 => vfpLane func a (b i) (lane vc i)
    | 0x09 =>
      if func = 0xB then (if bitAt sel i then a else b i)
      else if func = 0xC then lane va (b i % 64)
      else if func = 0xD then i
      else vintLane func a (b i)
    | 0x0B =>
      if func = 5 then
        let sc := qmx.getD (i / 32) (0x7F, none)
        scaledElem fmt sc.2 (decodeF32 a) + 256 * sc.1
      else vcvtLane (if func = 6 then 5 else func) a fmt
    | _ => vtrnLane func a)

/-- The v register a VPU operation writes: an inactive lane takes 0 or the old value (R117), but for the scale byte of
QMX (R121). -/
def vpuResult (td : TideDie) (ctx code : Nat) (w : Word) : BitVec 2048 :=
  let old := td.vreg ctx (bits w 44 40)
  let p := td.preg ctx (bits w 24 22)
  ofLanes ((vpuLanes td ctx code w).zipIdx.map (fun l =>
    if bitAt p l.2 then l.1
    else
      let keep := if bitAt w 21 then 0 else lane old l.2
      if code = 0x0B && bits w 48 45 = 5 then l.1 / 256 * 256 + keep % 256 else keep))

/-- The predicate a VCMP writes (R120). -/
def vcmpResult (td : TideDie) (ctx : Nat) (w : Word) : Word :=
  let func := bits w 48 45
  let va := td.vreg ctx (bits w 39 35)
  let vb := td.vreg ctx (bits w 34 30)
  let sb := (td.sreg ctx (bits w 19 16)).toNat % 2 ^ 32
  let p := td.preg ctx (bits w 24 22)
  let pa := td.preg ctx (bits w 37 35)
  let pb := td.preg ctx (bits w 32 30)
  let bit := fun i =>
    match func with
    | 7 => bitAt pa i && bitAt pb i
    | 8 => bitAt pa i || bitAt pb i
    | 9 => bitAt pa i && !bitAt pb i
    | _ => vcmpLane func (lane va i) (if bitAt w 20 then sb else lane vb i)
  BitVec.ofNat 64 ((List.range 64).foldr (fun i acc => b2n (bitAt p i && bit i) + 2 * acc) 0)

/-- VFP, VINT, VCMP, VCVT and VTRN (R117 to R122). The lowest slot of a bundle on a core takes FMA pipe 0. -/
def State.issueVpu (s : State) (x : Slot) : State :=
  let td := s.td x.die
  let t := td.cycle
  let code := slotCode x.w
  let taken :=
    if code = 0x0C then s.hold x.die [⟨uTrn x.ctx, t, t + 4⟩] []
    else match s.hold x.die [⟨uFma x.ctx 0, t, t + 1⟩] [] with
      | some s1 => some s1
      | none => s.hold x.die [⟨uFma x.ctx 1, t, t + 1⟩] []
  match taken with
  | none => s.unitBusy x.die
  | some s1 =>
    let lat := if code = 0x0C then 16 else if code = 0x09 || code = 0x0A then 3 else 6
    (s1.coreEvent x.die x.core 0x006 1).launch x.die
      (if code = 0x0A then regFlight x.core x.ctx (t + lat) 3 (bits x.w 42 40) (vcmpResult td x.ctx x.w).toNat
       else regFlight x.core x.ctx (t + lat) 0 (bits x.w 44 40) (vpuResult td x.ctx code x.w).toNat)

/-- Bytes of an SLD or SST range (R125). -/
def widthBytes (width : Nat) : Nat := 256 / 2 ^ width

/-- SLD (R124, R125). -/
def State.issueSld (s : State) (x : Slot) : State :=
  let td := s.td x.die
  let t := td.cycle
  let width := bits x.w 35 34
  let n := widthBytes width
  match s.slabOperand x.die x.ctx (td.areg x.ctx (bits x.w 43 40)) n n permR false with
  | none => s.windowFault x.die
  | some o =>
    match s.hold x.die [⟨uMove x.ctx, t, t + 1⟩] [] with
    | none => s.unitBusy x.die
    | some s1 =>
      s1.launch x.die { x.flight .sld t with
        src := o, len := n,
        arg := [bits x.w 48 44, width, bits x.w 36 36, (td.preg x.ctx (bits x.w 39 37)).toNat,
          (td.vreg x.ctx (bits x.w 48 44)).toNat] }

/-- The bytes and masks of an SST (R124, R125): lane bytes, nibbles, or the two scale bytes. -/
def sstBytes (v : BitVec 2048) (p w : Word) : List Byte × List Byte :=
  let on := fun i => if bitAt p i then (0xFF : Byte) else 0
  if bitAt w 36 then
    ([BitVec.ofNat 8 (lane v 0 / 256), BitVec.ofNat 8 (lane v 32 / 256)], [on 0, on 32])
  else
    match bits w 35 34 with
    | 0 =>
      ((List.range 64).flatMap (fun i => leBytes 4 (lane v i)),
        (List.range 64).flatMap (fun i => List.replicate 4 (on i)))
    | 1 =>
      ((List.range 64).flatMap (fun i => leBytes 2 (lane v i)),
        (List.range 64).flatMap (fun i => List.replicate 2 (on i)))
    | 2 => ((List.range 64).map (fun i => BitVec.ofNat 8 (lane v i)), (List.range 64).map on)
    | _ =>
      ((List.range 32).map (fun i => BitVec.ofNat 8 (lane v (2 * i) % 16 + 16 * (lane v (2 * i + 1) % 16))),
        (List.range 32).map (fun i => (on (2 * i) &&& 0x0F) ||| (on (2 * i + 1) &&& 0xF0)))

/-- SST (R124, R125). -/
def State.issueSst (s : State) (x : Slot) : State :=
  let td := s.td x.die
  let t := td.cycle
  let n := if bitAt x.w 36 then 2 else widthBytes (bits x.w 35 34)
  match s.slabOperand x.die x.ctx (td.areg x.ctx (bits x.w 43 40)) n n permW false with
  | none => s.windowFault x.die
  | some o =>
    match s.hold x.die [⟨uMove x.ctx, t, t + 1⟩] [] with
    | none => s.unitBusy x.die
    | some s1 =>
      let (bs, mask) := sstBytes (td.vreg x.ctx (bits x.w 48 44)) (td.preg x.ctx (bits x.w 39 37)) x.w
      s1.launch x.die { x.flight .sst t with dst := o, bytes := bs, mask := mask }

/-- SCOPY (R126). -/
def State.issueScopy (s : State) (x : Slot) : State :=
  let td := s.td x.die
  let t := td.cycle
  let len := bits x.w 40 29 + 1
  let src := s.slabOperand x.die x.ctx (td.areg x.ctx (bits x.w 48 45)) (256 * len) 256 permR false
  let dst := s.slabOperand x.die x.ctx (td.areg x.ctx (bits x.w 44 41)) (256 * len) 256 permW false
  match src, dst with
  | some a, some b =>
    match s.hold x.die [⟨uMove x.ctx, t, t + len⟩] [] with
    | none => s.unitBusy x.die
    | some s1 => s1.launch x.die { x.flight .scopy t with src := a, dst := b, len := len }
  | _, _ => s.windowFault x.die

/-- SFILL (R126). -/
def State.issueSfill (s : State) (x : Slot) : State :=
  let td := s.td x.die
  let t := td.cycle
  let len := bits x.w 40 29 + 1
  match s.slabOperand x.die x.ctx (td.areg x.ctx (bits x.w 48 45)) (256 * len) 256 permW false with
  | none => s.windowFault x.die
  | some o =>
    match s.hold x.die [⟨uMove x.ctx, t, t + len⟩] [] with
    | none => s.unitBusy x.die
    | some s1 =>
      let wd := leBytes 4 (td.sreg x.ctx (bits x.w 44 41)).toNat
      s1.launch x.die { x.flight .sfill t with dst := o, len := len, bytes := (List.range 64).flatMap (fun _ => wd) }

/-- VRD (R127). -/
def State.issueVrd (s : State) (x : Slot) : State :=
  let td := s.td x.die
  let t := td.cycle
  let len := bits x.w 40 29 + 1
  let stk := s.stackOperand x.die x.logical (td.areg x.ctx (bits x.w 48 45)) (128 * len) 128 permR
  let slab := s.slabOperand x.die x.ctx (td.areg x.ctx (bits x.w 44 41)) (128 * len) 128 permW false
  match stk, slab with
  | some (o, way), some d =>
    let rep := if isNear way then len else 2 * len
    let (bs, links) := stackHold x way t len (2 * len) (2 * len)
    match s.hold x.die (⟨uVcls x.ctx, t, t + rep⟩ :: bs) links with
    | none => s.unitBusy x.die
    | some s1 =>
      let (dat, unc, poi, s2) := s1.streamLoad x way o (128 * len)
      let lat := if isNear way then 96 else 160 + 4 * wayHops way
      let f := { x.flight .vrd t with
        dst := d, lat := lat, len := rep, arg := [if isNear way then 128 else 64], bytes := dat }
      let reps := reportFlights x (t + lat + rep - 1) unc poi ++ loadDamage x way (stackLoc (s.share x.die) o).1 t
        (t + lat) rep
      (f :: reps).foldl (fun y g => y.launch x.die g) (s2.coreCycles x.die x.core 0x00A 1 len)
  | _, _ => s.windowFault x.die

/-- VWR (R128): the near vault only. -/
def State.issueVwr (s : State) (x : Slot) : State :=
  let td := s.td x.die
  let t := td.cycle
  let len := bits x.w 40 29 + 1
  let stk := s.stackOperand x.die x.logical (td.areg x.ctx (bits x.w 48 45)) (128 * len) 128 permW
  let slab := s.slabOperand x.die x.ctx (td.areg x.ctx (bits x.w 44 41)) (128 * len) 128 permR false
  match stk, slab with
  | some (o, .near v), some a =>
    match s.hold x.die [⟨uVcls x.ctx, t, t + len⟩, ⟨uVport x.ctx, t, t + len⟩, ⟨uVault v, t, t + len⟩] [] with
    | none => s.unitBusy x.die
    | some s1 =>
      (s1.coreCycles x.die x.core 0x00B 1 len).launch x.die { x.flight .vwr t with src := a, dst := o, len := len }
  | _, _ => s.windowFault x.die

/-- One refresh round starts where the vault's debt is above 0 (R85, R171). -/
def State.startRound (s : State) (die v : Nat) : State :=
  let d := s.fget die (MFS_STATUS.DEBT.unit v)
  if d = 0 then s
  else ((s.fset die (MFS_STATUS.DEBT.unit v) (d - 1)).updVault die v (fun x => { x with refreshing := true })).pmuEvent
    die 0x113 1

/-- Is a vault refreshed by its controller (R171, R173, R179)? -/
def State.refreshes (s : State) (die v : Nat) : Bool := s.vState die v = vUNINIT || s.vState die v = vACTIVE

/-- A round starts unless one is in progress. -/
def State.tryRound (s : State) (die v : Nat) : State :=
  if (s.vault die v).refreshing then s else s.startRound die v

/-- Every vault of a die that is in debt starts a round (R85, R171). -/
def State.tryRounds (s : State) (die : Nat) : State :=
  foldN 64 (fun t n => if t.refreshes die n then t.tryRound die n else t) s

/-- Is the die without a running work item, or in step 2 of an await (R85, R171)? -/
def State.selfPaced (s : State) (die : Nat) : Bool :=
  !s.running die || (s.seqState die = seqAWAITING && (s.td die).step2)

/-- Has a vault time for dynamic accesses: no stream access occupies it, and no refresh round, initialisation or self-refresh holds it
(R85, R161, R173, R175)? -/
def State.vaultFree (s : State) (die v : Nat) : Bool :=
  let x := s.vault die v
  let t := s.td die
  let streaming := s.running die && !s.selfPaced die && t.unfrozen && busyIn t.busy ⟨uVault v, t.cycle, t.cycle + 1⟩
  s.dieUp die && !x.refreshing && !x.initing && s.vState die v ≠ vSELFREF && !streaming

/-- Have all vaults that `n` bytes at a die offset touch time for dynamic accesses? -/
def State.vaultsFree (s : State) (die o n : Nat) : Bool := (s.vaultsOf die o n).all (s.vaultFree die)

/-- REFRESH (R85, R129): a placed refresh slot of 192 cycles. A Glaze command or atomic to the vault in the same cycle is UNIT_BUSY,
in a lower slot too. -/
def State.issueRefresh (s : State) (x : Slot) : State :=
  let t := (s.td x.die).cycle
  let v := x.logical
  if busyIn (s.td x.die).busy ⟨uGlzAt v, t, t + 192⟩ then s.unitBusy x.die
  else match s.hold x.die [⟨uVcls x.ctx, t, t + 192⟩, ⟨uVault v, t, t + 192⟩, ⟨uRefresh v, t, t + 192⟩] [] with
  | none => s.unitBusy x.die
  | some s1 => s1.startRound x.die v

/-- SSEND (R131). -/
def State.issueSsend (s : State) (x : Slot) : State :=
  let td := s.td x.die
  let t := td.cycle
  let len := bits x.w 32 21 + 1
  match ssendTarget x.w x.logical with
  | none => s.endItem x.die .format
  | some dest =>
    let (rcore, rctx) := s.placeOf x.die dest
    let src := s.slabOperand x.die x.ctx (td.areg x.ctx (bits x.w 48 45)) (64 * len) 64 permR false
    let dst := s.slabOperand x.die rctx (td.areg x.ctx (bits x.w 44 41)) (64 * len) 64 permW false
    match src, dst with
    | some a, some b =>
      let links := routeXY x.logical dest
      let h := hops x.logical dest
      let bs := ⟨uLocal x.ctx, t, t + len⟩ :: ⟨uLocal rctx, t + 4 + 4 * h, t + 4 + 4 * h + len⟩ :: routeBusy links t len
      match s.hold x.die bs links with
      | none => s.unitBusy x.die
      | some s1 =>
        let f := { x.flight .ssend t with
          src := a, dst := b, len := len, lat := 4 + 4 * h,
          arg := [rcore, b2n (isGuest rctx), x.damage.1, x.damage.2.1, x.damage.2.2] }
        (f :: damageReport x rcore (t + 4 + 4 * h) (entryPort links)).foldl
          (fun y g => y.launch x.die g) s1
    | _, _ => s.windowFault x.die

/-- The command port of a core and the limit of 32 commands between awaits (R132). DESIGN CHOICE (log entry 51): under folding the
host and its guest share the one command queue and the one count of their physical core; R87 gives a core a second register set and
buffers, and names no second command queue. -/
def State.holdCmd (s : State) (x : Slot) : Option State :=
  let td := s.td x.die
  if 32 ≤ mapGet 0 td.issued x.core then none
  else
    match s.hold x.die [⟨uCmd x.ctx, td.cycle, td.cycle + 1⟩] [] with
    | none => none
    | some s1 => some ((s1.updTd x.die (fun y =>
        { y with issued := mapSet y.issued x.core (mapGet 0 y.issued x.core + 1) })).coreEvent x.die x.core 0x00D 1)

/-- Is a stack address on this die's vaults in a refresh slot (R85)? -/
def State.inRefresh (s : State) (die addr : Nat) : Bool :=
  match regionOf addr with
  | .stack d o =>
    let (v, _) := stackLoc (s.share die) o
    let t := (s.td die).cycle
    d = die && busyIn (s.td die).busy ⟨uRefresh v, t, t + 1⟩
  | _ => false

/-- A Glaze command or atomic for a vault of the die marks its issue cycle, which no refresh slot of that vault may take in (R85). -/
def State.markGlz (s : State) (die addr : Nat) : State :=
  match regionOf addr with
  | .stack d o =>
    if d = die then
      let v := (stackLoc (s.share die) o).1
      s.updTd die (fun t => { t with busy := t.busy ++ [⟨uGlzAt v, t.cycle, t.cycle + 1⟩] })
    else s
  | _ => s

/-- The journal key of a die's stream commands (R208, R216). -/
def State.streamKey (s : State) (die : Nat) : Option (Nat × Nat) :=
  if s.fbit die GLZ_JOURNAL.ACTIVE then some (s.fget shDie PKG_ID.ID, s.fget die GLZ_JOURNAL.JID) else none

/-- A key among the numbers of a flight: a flag, the package and the JID. -/
def keyArgs (k : Option (Nat × Nat)) : List Nat :=
  match k with
  | some (p, j) => [1, p, j]
  | none => [0, 0, 0]

/-- GLZ (R133): the descriptor is read in the issue cycle, and the command enters the queue. It carries the journal key in force
(R208). -/
def State.issueGlz (s : State) (x : Slot) : State :=
  let td := s.td x.die
  let t := td.cycle
  let desc := s.slabOperand x.die x.ctx (td.areg x.ctx (bits x.w 44 41)) 64 64 permR false
  let tgt := s.window x.die (td.areg x.ctx (bits x.w 40 37)) 1 1 permG true
  match desc, tgt with
  | some o, some a =>
    if s.inRefresh x.die a then s.unitBusy x.die
    else match s.holdCmd x with
    | none => s.unitBusy x.die
    | some s1 =>
      (s1.markGlz x.die a).launch x.die { x.flight .glz t with
        src := o, len := 64,
        arg := [bits x.w 48 45, a, bits x.w 36 33, bits x.w 32 32, (td.areg x.ctx (bits x.w 40 37)).toNat] ++
          keyArgs (s.streamKey x.die) }
  | _, _ => s.windowFault x.die

/-- A command of DMA or RATOM enters the queue in its issue cycle (R132). -/
def State.enqueue (s : State) (x : Slot) (c : Cmd) : State :=
  s.updTd x.die (fun t =>
    { t with cmdq := t.cmdq ++ [{ c with id := t.nextCmd, core := x.core, ctx := x.ctx, held := t.replayable }],
             nextCmd := t.nextCmd + 1 })

def Cmd.blank : Cmd :=
  { id := 0, core := 0, ctx := 0, kind := .dma, op := 0, target := 0, source := 0, length := 0, operand := 0,
    compare := 0, desc := [], token := 0, tokEn := false, ret := 0, retEn := false, held := false, key := none }

/-- DMA (R134). -/
def State.issueDma (s : State) (x : Slot) : State :=
  let td := s.td x.die
  let len := bits (td.sreg x.ctx (bits x.w 40 37)) 31 0
  let src := s.window x.die (td.areg x.ctx (bits x.w 48 45)) len 1 permRG true
  let dst := s.window x.die (td.areg x.ctx (bits x.w 44 41)) len 1 permWG true
  match src, dst with
  | some a, some b =>
    match s.holdCmd x with
    | none => s.unitBusy x.die
    | some s1 =>
      s1.enqueue x { Cmd.blank with
        kind := .dma, source := a, target := b, length := len, token := bits x.w 36 33, tokEn := bitAt x.w 32 }
  | _, _ => s.windowFault x.die

/-- Operand bytes of an atomic operation (R135). -/
def atomBytes (aop : Nat) : Nat := if aop = 0 || aop = 2 then 4 else 8

/-- RATOM (R135). -/
def State.issueRatom (s : State) (x : Slot) : State :=
  let td := s.td x.die
  let aop := bits x.w 48 45
  let n := atomBytes aop
  let tgt := s.window x.die (td.areg x.ctx (bits x.w 44 41)) n n permG true
  let ret := if bitAt x.w 28 then s.slabOperand x.die x.ctx (td.areg x.ctx (bits x.w 32 29)) 8 8 permW false else some 0
  match tgt, ret with
  | some a, some r =>
    if s.inRefresh x.die a then s.unitBusy x.die
    else match s.holdCmd x with
    | none => s.unitBusy x.die
    | some s1 =>
      (s1.markGlz x.die a).enqueue x { Cmd.blank with
        key := s.streamKey x.die, kind := .ratom, op := aop, target := a, operand := (td.sreg x.ctx (bits x.w 40 37)).toNat,
        compare := (td.sreg x.ctx (bits x.w 36 33)).toNat, ret := r, retEn := bitAt x.w 28,
        token := bits x.w 27 24, tokEn := bitAt x.w 23 }
  | _, _ => s.windowFault x.die

/-- An operation of the scalar unit that writes a register after `lat` cycles. -/
def State.scalarWrite (s : State) (x : Slot) (lat d val : Nat) : State :=
  let t := (s.td x.die).cycle
  match s.hold x.die [⟨uScalar x.ctx, t, t + 1⟩] [] with
  | none => s.unitBusy x.die
  | some s1 => s1.launch x.die (regFlight x.core x.ctx (t + lat) (scalarReg d).1 (scalarReg d).2 val)

/-- SALU (R136). -/
def State.issueSalu (s : State) (x : Slot) : State :=
  let td := s.td x.die
  let a := (td.screg x.ctx (bits x.w 39 35)).toNat
  let b :=
    if bitAt x.w 29 then unsignedN 64 (signedN 29 (bits x.w 28 0)) else (td.screg x.ctx (bits x.w 34 30)).toNat
  s.scalarWrite x 1 (bits x.w 44 40) (saluOp (bits x.w 48 45) a b)

/-- SLI (R137). -/
def State.issueSli (s : State) (x : Slot) : State :=
  let d := bits x.w 44 40
  let val :=
    if bitAt x.w 39 then
      bits x.w 19 0 * 2 ^ 44 + bits ((s.td x.die).screg x.ctx d) 43 0
    else unsignedN 64 (signedN 39 (bits x.w 38 0))
  s.scalarWrite x 1 d val

/-- SLDS (R138). -/
def State.issueSlds (s : State) (x : Slot) : State :=
  let td := s.td x.die
  let t := td.cycle
  match s.slabOperand x.die x.ctx (td.areg x.ctx (bits x.w 39 36)) 8 8 permR false with
  | none => s.windowFault x.die
  | some o =>
    match s.hold x.die [⟨uScalar x.ctx, t, t + 1⟩] [] with
    | none => s.unitBusy x.die
    | some s1 => s1.launch x.die { x.flight .slds t with src := o, len := 8, arg := [bits x.w 44 40] }

/-- SSTS (R138). -/
def State.issueSsts (s : State) (x : Slot) : State :=
  let td := s.td x.die
  let t := td.cycle
  match s.slabOperand x.die x.ctx (td.areg x.ctx (bits x.w 39 36)) 8 8 permW false with
  | none => s.windowFault x.die
  | some o =>
    match s.hold x.die [⟨uScalar x.ctx, t, t + 1⟩] [] with
    | none => s.unitBusy x.die
    | some s1 =>
      s1.launch x.die
        { x.flight .ssts t with dst := o, bytes := leBytes 8 (td.screg x.ctx (bits x.w 44 40)).toNat }

/-- SFROMV (R138). -/
def State.issueSfromv (s : State) (x : Slot) : State :=
  let l := lane ((s.td x.die).vreg x.ctx (bits x.w 39 35)) (bits x.w 34 29)
  s.scalarWrite x 3 (bits x.w 44 40) (if bitAt x.w 28 then unsignedN 64 (signedN 32 l) else l)

/-- An increment of a token counter: it saturates at 0xFFFF and sets its overflow bit (R75). -/
def State.tokenAdd (s : State) (die n inc : Nat) : State :=
  let off := 0x050 + 8 * (n / 4)
  let lo := 16 * (n % 4)
  let v := bits (s.rd die 0 off) (lo + 15) lo + inc
  let s1 := s.wr die 0 off (setBits (s.rd die 0 off) (lo + 15) lo (min v 0xFFFF))
  if 0xFFFF < v then s1.wr die 0 0x070 (setBits (s1.rd die 0 0x070) n n 1) else s1

/-- A token counter (R102). -/
def State.token (s : State) (die n : Nat) : Nat :=
  bits (s.rd die 0 (0x050 + 8 * (n / 4))) (16 * (n % 4) + 15) (16 * (n % 4))

/-- SIGNAL (R139): the own die's counter at once, another die's by a message. -/
def State.issueSignal (s : State) (x : Slot) : State :=
  let t := (s.td x.die).cycle
  let die := bits x.w 44 42
  let inc := bits x.w 37 22
  match s.hold x.die [⟨uScalar x.ctx, t, t + 1⟩] [] with
  | none => s.unitBusy x.die
  | some s1 =>
    if die = x.die then s1.tokenAdd die (bits x.w 41 38) inc
    else { s1 with signals := s1.signals ++ [(die, bits x.w 41 38, inc, x.die)] }

/-- MARK (R140, R597). -/
def State.issueMark (s : State) (x : Slot) : State :=
  let td := s.td x.die
  match s.hold x.die [⟨uScalar x.ctx, td.cycle, td.cycle + 1⟩] [] with
  | none => s.unitBusy x.die
  | some s1 =>
    let step := s.fget x.die SEQ_STATUS.STEP
    s1.sbRecord x.die
      [BitVec.ofNat 64 (0x2 + step * 2 ^ 16 + bits x.w 44 29 * 2 ^ 32), BitVec.ofNat 64 (td.cycle - td.start), 0,
       BitVec.ofNat 64 (s.tmkNs x.die)]

/-- One operation issued on one core (R66). -/
def State.issueOn (s : State) (x : Slot) : State :=
  match slotCode x.w with
  | 0x00 => s.issueTload x
  | 0x01 => s.issueMpass x
  | 0x08 | 0x09 | 0x0A | 0x0B | 0x0C => s.issueVpu x
  | 0x10 => s.issueSld x
  | 0x11 => s.issueSst x
  | 0x12 => s.issueScopy x
  | 0x13 => s.issueSfill x
  | 0x18 => s.issueVrd x
  | 0x19 => s.issueVwr x
  | 0x1A => s.issueRefresh x
  | 0x20 => s.issueSsend x
  | 0x28 => s.issueGlz x
  | 0x29 => s.issueDma x
  | 0x2A => s.issueRatom x
  | 0x30 => s.issueSalu x
  | 0x31 => s.issueSli x
  | 0x32 => s.issueSlds x
  | 0x33 => s.issueSsts x
  | 0x34 => s.issueSfromv x
  | 0x35 => s.issueSignal x
  | 0x36 => s.issueMark x
  | _ => s.endItem x.die .format

/-- The CORE_MAP of the loaded image; every core where there is none. -/
def State.coreMap (s : State) (die : Nat) : Word :=
  match (s.td die).image with
  | some i => i.coreMap
  | none => BitVec.allOnes 64

/-- A slot issued on every core it selects (R66). A fenced core takes no operation (R50). -/
def State.issueSlot (s : State) (die : Nat) (w : Word) (damage : Nat × Nat × Nat) : State :=
  (mappedCores (s.coreMap die) w).foldl (fun t c =>
    let (core, ctx) := t.placeOf die c
    if t.fget die (TC_STATUS.STATE.unit core) = 3 then t
    else t.issueOn ⟨die, c, core, ctx, w, damage⟩) s

/-- May the sequencer of a die issue now: a work item runs, and nothing stops or freezes it (R54, R74, R83)? -/
def State.canIssue (s : State) (die : Nat) : Bool :=
  let t := s.td die
  isC die && (s.seqState die = seqRUNNING || s.seqState die = seqREPLAYING) && t.endCause = none && t.reports = [] && !t.restoring &&
  !t.freezeRefresh && !t.freezeFetch && !t.ending

/-- One slot operation as a command of its own: the slot is checked, issues on its cores in the present stream cycle,
and runs with what is in flight until all has completed. A slot whose code is not `code` is no such operation. -/
def State.runSlot (s : State) (die code : Nat) (w : Word) (damage : Nat × Nat × Nat) : State :=
  if !s.canIssue die || slotCode w ≠ code then s
  else if !slotOk (s.coreMap die) (s.td die).replayable w then s.endItem die .format
  else ((((s.pmuEvent die 0x10A 1).issueSlot die w damage).runCycle die).slotCycles die 1 0x102).drainAs die 0x109

end Sys2Proof.Machine
end

