-- ==== Sys2Proof/Machine/Sequencer.lean ====
section
/-!
DEFINITION. The sequencer of a C-die (chapter 03): fetching and checking bundles, issue, loops, branches, awaits,
checkpoints, replay, freezes, the drain and end of a work item, images, and the fold map.
-/
namespace Sys2Proof.Machine

/-! ## Bundles -/

/-- Header fields of a bundle (R62). -/
def bKind (ws : List Word) : Nat := bits (ws.headD 0) 63 60
def bHold (ws : List Word) : Nat := bits (ws.headD 0) 59 48
def bStep (ws : List Word) : Nat := bits (ws.headD 0) 47 32
def bReplayable (ws : List Word) : Bool := bitAt (ws.headD 0) 0
def bBallast (ws : List Word) : Bool := bitAt (ws.headD 0) 1

/-- Slot Sn, and whether it holds an operation (R62). -/
def bSlot (ws : List Word) (n : Nat) : Word := ws.getD n 0
def bValid (ws : List Word) (n : Nat) : Bool := bitAt (ws.headD 0) (16 + n)

/-- The valid slots in order. -/
def bOps (ws : List Word) : List Word := ((List.range 15).filter (fun i => bValid ws (i + 1))).map (fun i => bSlot ws (i + 1))

/-- Codes of R64. -/
def kNORMAL : Nat := 0
def kHOLD : Nat := 1
def kCKPT : Nat := 2
def kAWAIT : Nat := 3
def kBRANCH : Nat := 4
def kLOOP : Nat := 5
def kEND : Nat := 15

/-- Is the control word of an await well formed (R65, R73)? -/
def awaitOk (w : Word) : Bool :=
  bits w 61 52 = 0 && bits w 47 32 = 0 &&
  (match bits w 63 62 with
   | 0 => bits w 31 16 = 0 && bits w 15 0 ≠ 0
   | 1 => bits w 51 48 = 0
   | _ => false)

/-- Is the control word of a branch well formed (R65, R71)? -/
def branchOk (coreMap w : Word) : Bool := bits w 63 54 = 0 && bits w 41 24 = 0 && bitAt coreMap (bits w 53 48)

/-- The encoding rules of R64, R65, R79 and R80, for a bundle fetched in a step whose REPLAYABLE is `rep`. `entry` says
that the bundle is the entry of the image. -/
def bundleOk (coreMap : Word) (rep entry : Bool) (ws : List Word) : Bool :=
  let h := ws.headD 0
  let k := bKind ws
  let repHere := if k = kCKPT then bReplayable ws else rep
  let noOps := bits h 31 17 = 0
  let slots := (bOps ws).all (slotOk coreMap repHere)
  bits h 16 2 = 0 && (k = kCKPT || !bReplayable ws) && (k = kAWAIT || !bBallast ws) && (!entry || k = kCKPT) &&
  (if k = kNORMAL || k = kCKPT then slots
   else if k = kHOLD then noOps && bits (bSlot ws 15) 63 28 = 0
   else if k = kEND then noOps
   else if k = kAWAIT then slots && !bValid ws 15 && awaitOk (bSlot ws 15) && !rep
   else if k = kBRANCH then slots && !bValid ws 15 && branchOk coreMap (bSlot ws 15)
   else if k = kLOOP then slots && !bValid ws 15 && bits (bSlot ws 15) 63 50 = 0
   else false)

/-! ## The stream buffer -/

/-- Bundles in the buffer and in a chunk (R84). -/
def bufBundles : Nat := 131072
def chunkBundles : Nat := 65536

def imageRing (im : Image) : Bool := bufBundles < im.length

/-- The place of a bundle in the stream buffer memory. -/
def sbufKey (die b : Nat) : Nat := die * 2 ^ 24 + 128 * (b % bufBundles)

/-- The sixteen words of a bundle in the buffer. -/
def State.bufBundle (s : State) (die b : Nat) : List Word :=
  (chunksOf 8 16 (memReadN s.sbuf (sbufKey die b) 128)).map (fun c => BitVec.ofNat 64 (leNat c))

/-- Bytes of the die's stack read for the stream buffer. Bytes of a block that reads poisoned or uncorrectable are free
(R84 states no result; log entry 12). -/
def State.refillRead (s : State) (die o n : Nat) : List Byte × Bool × State :=
  let (bs, bad, t) := s.stackRead die o n srcRefill
  if bad then
    let (w, t1) := t.free
    ((List.range bs.length).map (fun i => BitVec.ofNat 8 (w.toNat / 2 ^ (8 * (i % 8)))), true, t1)
  else (bs, false, t)

/-- Bundles `b … b + n − 1` brought from the image into the buffer. -/
def State.fillBuffer (s : State) (die : Nat) (im : Image) (b n : Nat) : State :=
  let k := min n (im.length - b)
  let (bs, _, t) := s.refillRead die (im.base % 2 ^ 37 + 256 + 128 * b) (128 * k)
  let lo := sbufKey die b
  { t with sbuf := memWriteN (memClear t.sbuf lo (lo + 128 * n)) lo bs }

/-- The die offset and length of chunk `j` of an image (R84, R90). -/
def chunkRange (im : Image) (j : Nat) : Nat × Nat :=
  (im.base % 2 ^ 37 + 256 + 128 * (j * chunkBundles), 128 * min chunkBundles (im.length - j * chunkBundles))

/-- Chunk `j` is refilled: its half holds it. -/
def State.fillChunk (s : State) (die : Nat) (im : Image) (j : Nat) : State :=
  (s.fillBuffer die im (j * chunkBundles) chunkBundles).updTd die (fun t => { t with halves := mapSet t.halves (j % 2) j })

/-! ## Fetch -/

/-- The loop whose body has just run its last bundle (R69). -/
def TideDie.iterEnd (t : TideDie) : Option Loop :=
  match t.loops with
  | l :: _ => if l.last + 1 = t.pc then some l else none
  | [] => none

/-- A branch whose 24 cycles are over (R72). -/
def TideDie.branchDue (t : TideDie) : Bool :=
  match t.branch with
  | some b => b.at_ ≤ t.cycle
  | none => false

/-- Does START still refill chunk 0 or 1 of a ring image (R94)? -/
def TideDie.starting (t : TideDie) : Bool := t.refill = some 0 || t.refill = some 1

/-- May the next bundle be fetched? -/
def State.canFetch (s : State) (die : Nat) : Bool :=
  let t := s.td die
  s.canIssue die && t.fetched = none && t.iterEnd = none && !t.branchDue && !t.starting

/-- A fetched bundle that passed its checks. A branch shadow may hold only normal and hold bundles (R72). -/
def State.takeBundle (s : State) (die : Nat) (im : Image) : State :=
  let t := s.td die
  let ws := s.bufBundle die t.pc
  let entry := t.pc = im.entry && t.ckpt = none
  if t.branch ≠ none && bKind ws ≠ kNORMAL && bKind ws ≠ kHOLD then s.endItem die .branchShadow
  else if !bundleOk im.coreMap t.replayable entry ws then s.endItem die .format
  else s.updTd die (fun t => { t with fetched := some ws })

/-- BUNDLE_FETCH (R65, R84). `parity`: the stream buffer's copy has a parity error. -/
def effBundleFetch (die : Nat) (parity : Bool) (s : State) : State :=
  let t := s.td die
  match t.image with
  | none => s
  | some im =>
    if !s.canFetch die then s
    else if im.length ≤ t.pc then s.endItem die .fetch
    else if imageRing im && mapFind t.halves (t.pc / chunkBundles % 2) ≠ some (t.pc / chunkBundles) then
      if t.refill = some (t.pc / chunkBundles) then s.updTd die (fun t => { t with freezeFetch := true })
      else s.endItem die .fetch
    else if parity then s.updTd die (fun t => { t with freezeFetch := true })
    else s.takeBundle die im

/-- FREEZE_BEGIN (R83): FROZEN reads 1 while a cause stands. -/
def effFreezeBegin (die : Nat) (s : State) : State :=
  if (s.td die).unfrozen || !s.running die then s else s.fset die SEQ_STATUS.FROZEN 1

/-- FREEZE_END (R83, R85, R592): the 192 cycles of an inserted refresh are over; the freeze ends with its last cause. -/
def effFreezeEnd (die : Nat) (s : State) : State :=
  let s0 := if (s.td die).freezeRefresh then s.freezeCycles die 192 0x108 else s
  let s1 := s0.updTd die (fun t => { t with freezeRefresh := false })
  if (s1.td die).unfrozen then s1.fset die SEQ_STATUS.FROZEN 0 else s1

/-- A fetch freeze ends. How many cycles it was the only cause is a free number (R592; log entry 52). -/
def State.endFetchFreeze (s : State) (die : Nat) : State :=
  let (n, s0) := s.free
  let s1 := (s0.freezeCycles die n.toNat 0x106).updTd die (fun t => { t with freezeFetch := false })
  if (s1.td die).unfrozen then s1.fset die SEQ_STATUS.FROZEN 0 else s1

/-- REFETCH_ARRIVAL (R84, R161): the bundle at the fetch point arrives from the stack, whose vaults serve the read in time that the
stream leaves free, and its fetch freeze ends. -/
def effRefetchArrival (die : Nat) (s : State) : State :=
  let t := s.td die
  match t.image with
  | none => s
  | some im =>
    let o := im.base % 2 ^ 37 + 256 + 128 * t.pc
    if !t.freezeFetch || im.length ≤ t.pc || t.refill = some (t.pc / chunkBundles) || !s.vaultsFree die o 128 then s
    else
      let (bs, _, s1) := s.refillRead die o 128
      ({ s1 with sbuf := memWriteN s1.sbuf (sbufKey die t.pc) bs }).endFetchFreeze die

/-- CHUNK_REFILL_COMPLETE (R84, R94, R161): the chunk stands in its half; a fetch that waits for it goes on. A START that has refilled
chunk 0 refills chunk 1. -/
def effChunkRefillComplete (die : Nat) (s : State) : State :=
  let t := s.td die
  match t.image, t.refill with
  | some im, some j =>
    if !s.vaultsFree die (chunkRange im j).1 (chunkRange im j).2 then s else
    let s1 := (s.fillChunk die im j).updTd die (fun t => { t with refill := if j = 0 then some 1 else none })
    if t.freezeFetch && t.pc / chunkBundles = j then s1.endFetchFreeze die else s1
  | _, _ => s

/-! ## Issue -/

/-- The fetched bundle, where it is of kind `k` and may issue now. -/
def State.ready (s : State) (die k : Nat) : Option (List Word) :=
  match (s.td die).fetched with
  | some ws => if s.canIssue die && bKind ws = k then some ws else none
  | none => none

/-- The operations of a bundle issue, and its first cycle and `hold` more run (R63). The fetch point moves on. A branch
in its shadow needs a boundary at t + 24 (R72). DESIGN CHOICE (log entry 51): an operation that raises UNIT_BUSY is dropped and the
other slots of its bundle issue; R67 does not say what becomes of them. -/
def State.issueBundle (s : State) (die : Nat) (ws : List Word) (hold : Nat) : State :=
  let s0 := s.pmuEvent die 0x10A (bOps ws).length
  let s1 := (bOps ws).foldl (fun t w => t.issueSlot die w (0, 0, 0)) s0
  let s2 := ((s1.runCycle die).runCycles die hold).slotCycles die (1 + hold) 0x102
  let t := s2.td die
  let s3 := s2.updTd die (fun t => { t with fetched := none, pc := t.pc + 1 })
  match t.branch with
  | some b => if b.at_ < t.cycle && t.endCause = none then s3.endItem die .branchShadow else s3
  | none => s3

/-- BUNDLE_ISSUE (R63). -/
def effBundleIssue (die : Nat) (s : State) : State :=
  match s.ready die kNORMAL with
  | some ws => s.issueBundle die ws (bHold ws)
  | none => s

/-- HOLD_BUNDLE (R64): 1 + (S15[27:0], HOLD) cycles. -/
def effHoldBundle (die : Nat) (s : State) : State :=
  match s.ready die kHOLD with
  | some ws => s.issueBundle die [ws.headD 0] (bits (bSlot ws 15) 27 0 * 4096 + bHold ws)
  | none => s

/-- Held commands may be sent: their step closed without a fault (R132). -/
def releaseHeld (t : TideDie) : TideDie := { t with cmdq := t.cmdq.map (fun c => { c with held := false }) }

/-- A step closes: its wait has ended with no fault, and the commands it holds may leave (R132). -/
def State.closeStep (s : State) (die : Nat) : State :=
  if (s.td die).reports ≠ [] || (s.td die).endCause ≠ none then s else s.updTd die releaseHeld

/-- CHECKPOINT_FETCH (R79, R132): every operation issued before completes and its checks report; with no fault the held commands of
the closing step are released. -/
def effCheckpointFetch (die : Nat) (s : State) : State :=
  match s.ready die kCKPT with
  | some _ => (s.drainAs die 0x109).closeStep die
  | none => s

/-- Commands of the closing REPLAYABLE step that have not left for their engines (R132). -/
def TideDie.stepUnsent (t : TideDie) : Bool :=
  t.replayable &&
  (match t.ckpt with
   | some k => t.cmdq.any (fun c => k.cmd ≤ c.id)
   | none => false)

/-- The refill that the first checkpoint of a chunk starts (R84). -/
def State.startRefill (s : State) (die : Nat) (im : Image) : State :=
  let t := s.td die
  let j := t.pc / chunkBundles
  if imageRing im && 1 ≤ j && (j + 1) * chunkBundles < im.length && t.refill = none &&
      mapFind t.halves ((j + 1) % 2) ≠ some (j + 1) then
    s.updTd die (fun t => { t with refill := some (j + 1), halves := mapErase t.halves ((j + 1) % 2) })
  else s

/-- CHECKPOINT_ISSUE (R79, R132): once the held commands of the closing step have been sent, shadows and loop state are saved,
STEP and REPLAYABLE take effect, and the bundle's operations issue. The replays of a step count until another checkpoint
issues (R81). DESIGN CHOICE (log entry 51): STATE reads REPLAYING from the report of the fault until this bundle issues again; R92
names the code and not its end. -/
def effCheckpointIssue (die : Nat) (s : State) : State :=
  match s.ready die kCKPT, (s.td die).image with
  | some ws, some im =>
    if (s.td die).flights ≠ [] || (s.td die).cycle < horizon (s.td die) || (s.td die).stepUnsent then s
    else
      let again := s.seqState die = seqREPLAYING
      let s1 := (s.closeSlots die 0x102).updTd die (fun t => { releaseHeld t with
        shadow := t.regs, ckpt := some ⟨t.pc, t.loops, t.issued, t.nextCmd⟩, replayable := bReplayable ws,
        replays := if again then t.replays else 0 })
      (((s1.fset die SEQ_STATUS.STEP (bStep ws)).fset die SEQ_STATUS.STATE seqRUNNING).startRefill die im).issueBundle
        die ws (bHold ws)
  | _, _ => s

/-! ## Loops and branches -/

/-- Does the stream buffer hold a bundle of the image (R84)? -/
def TideDie.holds (t : TideDie) (im : Image) (b : Nat) : Bool :=
  !imageRing im || mapFind t.halves (b / chunkBundles % 2) = some (b / chunkBundles)

/-- The loop bodies of the bundles that the stream buffer holds, and those of the active loops: first and last bundle. -/
def State.bodies (s : State) (die : Nat) (im : Image) (near : Nat) : List (Nat × Nat) :=
  let lo := if imageRing im then (near / chunkBundles - 1) * chunkBundles else 0
  (s.td die).loops.map (fun l => (l.first, l.last)) ++
  (((List.range (min im.length (near + bufBundles) - lo)).map (· + lo)).filter ((s.td die).holds im)).filterMap (fun i =>
    let ws := s.bufBundle die i
    if bKind ws = kLOOP then some (i + 1, bits (bSlot ws 15) 23 0) else none)

/-- The innermost loop body that holds a bundle (R72). -/
def innermost (bodies : List (Nat × Nat)) (b : Nat) : Option (Nat × Nat) :=
  (bodies.filter (fun x => x.1 ≤ b && b ≤ x.2)).foldl (fun acc x =>
    match acc with
    | none => some x
    | some y => if x.2 - x.1 < y.2 - y.1 then some x else some y) none

/-- LOOP_ISSUE (R69, R70). DESIGN CHOICE (log entry 51): a loop bundle that raises LOOP issues none of its operations, nor does a
branch bundle that does; the spec does not say. -/
def effLoopIssue (die : Nat) (s : State) : State :=
  match s.ready die kLOOP with
  | none => s
  | some ws =>
    let t := s.td die
    let c := bSlot ws 15
    let lc := bits c 49 48
    let last := bits c 23 0
    let beyond : Bool :=
      match t.loops with
      | l :: _ => decide (l.last < last)
      | [] => false
    if last ≤ t.pc || t.loops.any (fun l => l.lc = lc) || beyond then s.endItem die .loop
    else
      let count := if bitAt c 47 then s.fget die (SEQ_PARAM.PARAM.plus (8 * bits c 46 44)) % 2 ^ 20 else bits c 43 24
      let s1 := s.issueBundle die ws (bHold ws)
      if count = 0 then s1.updTd die (fun t => { t with pc := last + 1 })
      else s1.updTd die (fun t => { t with loops := ⟨lc, t.pc, last, count⟩ :: t.loops })

/-- A jump in a ring image must go to the chunk it executes in, or the next (R84). -/
def jumpOk (im : Image) (src dst : Nat) : Bool :=
  !imageRing im || dst / chunkBundles = src / chunkBundles || dst / chunkBundles = src / chunkBundles + 1

/-- LOOP_ITERATION_END (R69): the body repeats, or the loop exits. -/
def effLoopIterationEnd (die : Nat) (s : State) : State :=
  let t := s.td die
  match t.iterEnd, t.image with
  | some l, some im =>
    if !s.canIssue die || t.branchDue then s
    else if l.left ≤ 1 then s.updTd die (fun t => { t with loops := t.loops.drop 1 })
    else if !jumpOk im (t.pc - 1) l.first then s.endItem die .fetch
    else s.updTd die (fun t => { t with pc := l.first, loops := { l with left := l.left - 1 } :: t.loops.drop 1 })
  | _, _ => s

/-- The condition of a branch on its scalar (R71). -/
def branchCond (cond : Nat) (v : Word) : Bool :=
  match cond with
  | 0 => v = 0
  | 1 => v ≠ 0
  | 2 => bitAt v 63
  | _ => v ≠ 0 && !bitAt v 63

/-- BRANCH_ISSUE (R72): the scalar is read in the issue cycle. -/
def effBranchIssue (die : Nat) (s : State) : State :=
  match s.ready die kBRANCH, (s.td die).image with
  | some ws, some im =>
    let t := s.td die
    let c := bSlot ws 15
    let target := bits c 23 0
    let bodies := s.bodies die im t.pc
    if innermost bodies t.pc ≠ innermost bodies target then s.endItem die .loop
    else
      let v := t.sreg (s.placeOf die (bits c 53 48)).2 (bits c 47 44)
      (s.updTd die (fun t => { t with branch := some ⟨t.cycle + 24, t.pc, target, branchCond (bits c 43 42) v⟩ })).issueBundle
        die ws (bHold ws)
  | _, _ => s

/-- BRANCH_RESOLVE (R72, R84): at t + 24 the target or the next bundle follows. -/
def effBranchResolve (die : Nat) (s : State) : State :=
  let t := s.td die
  match t.branch, t.image with
  | some b, some im =>
    if !s.canIssue die || t.cycle ≠ b.at_ then s
    else if !b.taken then s.updTd die (fun t => { t with branch := none })
    else if !jumpOk im b.src b.target then s.endItem die .fetch
    else s.updTd die (fun t => { t with branch := none, pc := b.target })
  | _, _ => s

/-! ## Awaits -/

/-- TICK_SHIFT as it acts (R411, R427). -/
def State.tickShift (s : State) : Nat := max 6 (min 20 (s.fget shDie TMK_CTRL.TICK_SHIFT))

/-- The tick count of a die's Tidemark copy (R411). -/
def State.tickCount (s : State) (die : Nat) : Nat := s.tmkNs die / 2 ^ s.tickShift

/-- Step 2 of an await begins once every operation has completed and the command queues are empty (R73, R132): the vaults in debt
refresh (R85), and with BALLAST_OK ballast starts at L0, the cores whose matrix pass was in progress in the 1,024 cycles before the
await was fetched (R424). -/
def State.enterStep2 (s : State) (die : Nat) : State :=
  let t := s.td die
  match t.fetched with
  | none => s
  | some ws =>
    if t.step2 || s.vwrInv.any (fun a => a / 2 ^ 37 = die) || s.seqState die ≠ seqAWAITING || t.cmdq ≠ [] || t.flights ≠ [] || t.endCause ≠ none || t.reports ≠ []
    then s
    else
      let s1 := (s.updTd die (fun t => { t with step2 := true })).tryRounds die
      if bBallast ws then s1.fset die SEQ_BALLAST.LEVEL t.ballastTop else s1

/-- AWAIT_FETCH (R73, R132): every operation issued before completes, and the command queues empty. -/
def effAwaitFetch (die : Nat) (s : State) : State :=
  match s.ready die kAWAIT with
  | none => s
  | some _ =>
    let t := s.td die
    let top := ((t.passEnd.filter (fun p => t.cycle < p.2 + 1024)).length)
    let s1 := s.updTd die (fun t => { t with ballastTop := top, ballastUp := false, step2 := false })
    ((s1.fset die SEQ_STATUS.STATE seqAWAITING).drainAs die 0x107).enterStep2 die

/-- Has the condition of an await come true (R73)? -/
def State.awaitMet (s : State) (die : Nat) (c : Word) : Bool :=
  match bits c 63 62 with
  | 0 => bits c 15 0 ≤ s.token die (bits c 51 48)
  | _ => s.fget die SEQ_TICKBASE.TICKBASE + bits c 31 0 ≤ s.tickCount die

/-- A token counter lowered (R73). -/
def State.tokenSub (s : State) (die n k : Nat) : State :=
  let off := 0x050 + 8 * (n / 4)
  let lo := 16 * (n % 4)
  s.wr die 0 off (setBits (s.rd die 0 off) (lo + 15) lo (s.token die n - k))

/-- AWAIT_RELEASE (R73, R77, R592): the condition holds, the count is subtracted, ballast ends, and the bundle issues in the
release cycle, `wait` stream cycles after the wait began. Those cycles count as ballast where ballast runs at the release (log entry
52). -/
def effAwaitRelease (die wait : Nat) (s : State) : State :=
  let t := s.td die
  match t.fetched with
  | none => s
  | some ws =>
    let c := bSlot ws 15
    if s.seqState die ≠ seqAWAITING || !t.step2 || t.endCause ≠ none || t.reports ≠ [] || !t.unfrozen ||
        !s.awaitMet die c then s
    else
      let s0 := s.slotCycles die wait (if s.fget die SEQ_BALLAST.LEVEL = 0 then 0x107 else 0x103)
      let s1 := if bits c 63 62 = 0 then s0.tokenSub die (bits c 51 48) (bits c 15 0) else s0
      let s2 := s1.fsets die [(SEQ_STATUS.STATE, seqRUNNING), (SEQ_BALLAST.LEVEL, 0)]
      (s2.updTd die (fun t => { t with cycle := t.cycle + wait, issued := [], step2 := false })).issueBundle die ws
        (bHold ws)

/-- May a fault end the work item: nothing ends it yet, or only an ABORT of the present cycle (R93)? -/
def TideDie.takesFault (t : TideDie) : Bool :=
  t.endCause = none || (t.endCause = some .aborted && t.abortAt = t.cycle + 1)

/-- AWAIT_TIMEOUT (R76): the wait has lasted longer than TIMEOUT_US; 0 disables it (R100). -/
def effAwaitTimeout (die : Nat) (s : State) : State :=
  let t := s.td die
  if s.seqState die = seqAWAITING && t.step2 && t.takesFault && s.fget die SEQ_AWAIT_TIMEOUT.TIMEOUT_US ≠ 0 then
    s.endItem die .awaitTimeout
  else s

/-! ## Fencing and folding -/

/-- East, west, north and south neighbours of a core (R86). -/
def neighbours (n : Nat) : List Nat :=
  (if n % 8 < 7 then [n + 1] else []) ++ (if 0 < n % 8 then [n - 1] else []) ++ (if 8 ≤ n then [n - 8] else []) ++
  (if n < 56 then [n + 8] else [])

/-- The fold map entry of a logical core. -/
def State.setFold (s : State) (die logical : Nat) (folded : Bool) (host : Nat) : State :=
  let off := 0x100 + logical / 8 * 8
  let b := 8 * (logical % 8)
  s.wr die 0 off (setBits (s.rd die 0 off) (b + 7) b (b2n folded * 128 + host))

/-- Is a logical core folded? -/
def State.isFolded (s : State) (die logical : Nat) : Bool :=
  bitAt (s.rd die 0 (0x100 + logical / 8 * 8)) (8 * (logical % 8) + 7)

/-- Does a core map include a folded logical core (R88)? -/
def State.halfRate (s : State) (die : Nat) (coreMap : Word) : Bool :=
  (List.range 64).any (fun c => bitAt coreMap c && s.isFolded die c)

/-- HALF_RATE follows the fold map while an image is loaded (R88, R92). -/
def State.setHalfRate (s : State) (die : Nat) : State :=
  match (s.td die).image with
  | some im => s.fset die SEQ_STATUS.HALF_RATE (b2n (s.halfRate die im.coreMap))
  | none => s

/-- A logical core placed on the first neighbour of its own core that is neither fenced nor hosting (R86). -/
def State.placeFold (s : State) (die logical : Nat) : State :=
  match (neighbours logical).find? (fun n => !s.isFenced die n && !s.fbit die (TC_STATUS.HOSTING.unit n)) with
  | none => s.setFold die logical false logical
  | some h =>
    (s.setFold die logical true h).fsets die [(TC_STATUS.HOSTING.unit h, 1), (TC_STATUS.FOLDED_FROM.unit h, logical)]

/-- The fold map set for a fenced core: its own logical core, then a guest that it hosted (R86). HALF_RATE follows (R88). -/
def State.foldCore (s : State) (die core : Nat) : State :=
  let hosting := s.fbit die (TC_STATUS.HOSTING.unit core)
  let guest := s.fget die (TC_STATUS.FOLDED_FROM.unit core)
  let s1 := s.fsets die [(TC_STATUS.HOSTING.unit core, 0), (TC_STATUS.FOLDED_FROM.unit core, 0)]
  let s2 := s1.placeFold die core
  let s3 := (if hosting then s2.placeFold die guest else s2).setHalfRate die
  let s4 := s3.logErr die 3 0x01 core 0x10 (s.fget die (TC_FAULT.FIRST_STEP.unit core))
  if s4.fget die ERR_FENCE.CORE = core then s4.fset die ERR_FENCE.GO 0 else s4

/-- Every fold that is due. -/
def State.foldAll (s : State) (die : Nat) : State :=
  ((s.td die).foldDue.foldl (fun t c => t.foldCore die c) s).updTd die (fun t => { t with foldDue := [] })

/-- A core is fenced (R532): it stops, a running work item ends with FENCED, and the fold map is set once the die has
drained. -/
def State.fenceCore (s : State) (die core : Nat) : State :=
  if s.isFenced die core then s
  else
    let s1 := (s.fset die (TC_STATUS.STATE.unit core) 3).updTd die (fun t => { t with foldDue := t.foldDue ++ [core] })
    if s1.running die then
      if (s1.td die).takesFault then s1.endItem die .fenced else s1
    else s1.foldAll die

/-- The fault score of a core (R531, R549). -/
def State.score (s : State) (die n : Nat) : Nat :=
  bits (s.rd die (errBlk die) (0x040 + 8 * (n / 8))) (8 * (n % 8) + 7) (8 * (n % 8))

def State.setScore (s : State) (die n v : Nat) : State :=
  let off := 0x040 + 8 * (n / 8)
  s.wr die (errBlk die) off (setBits (s.rd die (errBlk die) off) (8 * (n % 8) + 7) (8 * (n % 8)) v)

/-- The limit of R547. -/
def State.scoreLimit (s : State) (die : Nat) : Nat := s.fget die (ERR_POLICY.LIMIT.inBlk (errBlk die))

/-- A counted fault of a core (R531). -/
def State.countFault (s : State) (die core : Nat) : State :=
  let v := min 255 (s.score die core + 1)
  let s1 := s.setScore die core v
  if s1.scoreLimit die ≠ 0 && s1.scoreLimit die ≤ v then s1.fenceCore die core else s1

/-! ## Arithmetic faults and replay -/

/-- The count of faults waiting at the sequencer, each scored. -/
def State.scoreReports (s : State) (die : Nat) : State :=
  let rs := (s.td die).reports
  (rs.foldl (fun t r => if r.counted then t.countFault die r.core else t) s).updTd die (fun t => { t with reports := [] })

/-- The cores whose faults cause a replay are counted, each once for the replay in progress (R58, R81). -/
def State.countReplays (s : State) (die : Nat) (rs : List ArithFault) : State :=
  let new := (rs.map (·.core)).dedup.filter (fun c => !(s.td die).replayCores.contains c)
  (new.foldl (fun t c => t.finc die (TC_ERRCNT.REPLAY_CNT.unit c)) s).updTd die
    (fun t => { t with replayCores := t.replayCores ++ new })

/-- Does a ballast pass run (R77)? -/
def State.ballastRuns (s : State) (die : Nat) : Bool :=
  s.seqState die = seqAWAITING && (s.td die).step2 && s.fget die SEQ_BALLAST.LEVEL ≠ 0

/-- A residue mismatch that the silicon meets: in a ballast pass it is recorded and counted without a replay (R77). -/
def State.siliconResidue (s : State) (die core row col : Nat) : State :=
  let s1 := s.captureResidue die core row col
  if s.ballastRuns die then
    ((s1.tcFault die core tcRESIDUE).finc die (TC_ERRCNT.RESIDUE_CNT.unit core)).countFault die core
  else s1.arithFault die core tcRESIDUE true

/-- ARITHMETIC_FAULT_REPORT (R42, R81, R82, R531): the reports that wait, and with `silicon` a residue mismatch of
(core, row, column), reach the sequencer: a REPLAYABLE step begins a replay, another step ends the work item. With an ABORT of the
same cycle the fault ends the work item in either step (R93). -/
def effArithmeticFaultReport (die : Nat) (silicon : Option (Nat × Nat × Nat)) (s : State) : State :=
  if !isC die || !s.running die then s
  else
    let s0 :=
      match silicon with
      | some f => if f.1 < 64 && !s.isFenced die f.1 then s.siliconResidue die f.1 f.2.1 f.2.2 else s
      | none => s
    let t := s0.td die
    if t.reports = [] then s0
    else
      let s1 := s0.scoreReports die
      let t1 := s1.td die
      if t1.endCause ≠ none then (if t1.takesFault then s1.endItem die .arith else s1)
      else if t1.restoring then s1.countReplays die t.reports
      else if !t1.replayable then s1.endItem die .arith
      else if s1.fget die SEQ_REPLAY.LIMIT ≤ t1.replays then s1.endItem die .replayLimit
      else
        (((s1.fset die SEQ_STATUS.STATE seqREPLAYING).finc die SEQ_REPLAY.REPLAY_CNT).updTd die (fun t =>
          { t with restoring := true, replays := t.replays + 1, fetched := none, replayCores := [] })).countReplays die
          t.reports

/-- REPLAY_RESTORE (R81, R83, R132): everything in flight completes, once no freeze stands; registers, loops and issue counts return
to the checkpoint, held commands are discarded, and the checkpoint bundle follows again. The slots of the step count as replayed
(R592). -/
def effReplayRestore (die : Nat) (s : State) : State :=
  if !(s.td die).restoring || (s.td die).endCause ≠ none || !(s.td die).unfrozen then s
  else
    let s1 := (s.drainAs die 0x104).closeSlots die 0x104
    let s2 := (s1.countReplays die (s1.td die).reports).scoreReports die
    match (s2.td die).ckpt with
    | none => s2
    | some k =>
      if (s2.td die).endCause ≠ none then s2
      else s2.updTd die (fun t =>
        { t with regs := t.shadow, loops := k.loops, issued := k.issued, branch := none, pc := k.pc, fetched := none,
                 restoring := false, cmdq := t.cmdq.filter (fun c => !c.held) })

/-! ## The end of a work item -/

/-- The cores of the image's core map that are not fenced take a state (R55). -/
def State.setCoreStates (s : State) (die v : Nat) : State :=
  let cores := ((List.range 64).filter (fun c => bitAt (s.coreMap die) c)).map (fun c => (s.placeOf die c).1)
  cores.dedup.foldl (fun t c => if t.isFenced die c then t else t.fset die (TC_STATUS.STATE.unit c) v) s

/-- Cores left at 0b10 return to 0b00 (R94). -/
def State.coresReady (s : State) (die : Nat) : State :=
  (List.range 64).foldl (fun t c =>
    if t.fget die (TC_STATUS.STATE.unit c) = 2 then t.fset die (TC_STATUS.STATE.unit c) 0 else t) s

/-- What both ends of a work item leave (R72, R93, R94). The slots of its last step are counted (R592), and the vaults in debt refresh
by themselves (R171). DESIGN CHOICE (log entry 51): the commands that a REPLAYABLE step still holds when the item ends by a fault or
an ABORT are discarded; R132 states their release and the discard of a rollback only. -/
def State.finishItem (s : State) (die state core : Nat) (cause : Option EndCause) : State :=
  let t := s.td die
  let s1 := (s.closeSlots die 0x102).fsets die [(SEQ_STATUS.STATE, state), (SEQ_STATUS.FROZEN, 0), (SEQ_CTRL.ABORT, 0), (SEQ_BALLAST.LEVEL, 0)]
  ((s1.setCoreStates die core).updTd die (fun u =>
    { u with fetched := none, branch := none, loops := [], ending := false, endCause := none, restoring := false,
             step2 := false, freezeRefresh := false, freezeFetch := false, reports := [],
             cmdq := u.cmdq.filter (fun c => !c.held),
             results := u.results ++ [⟨cause, t.failCode, t.failHome⟩] })).tryRounds die

/-- Commands of the work item that have neither completed nor failed (R72, R132). -/
def TideDie.outstanding (t : TideDie) : Bool := (t.cmdq ++ t.sent).any (fun c => t.itemCmd ≤ c.id)

/-- DRAIN_COMPLETE (R54, R83, R86, R94): after a fault, ABORT or fence the die has drained, once no freeze stands; the fold map is set,
and the sequencer enters STOPPED. In the drain of an end bundle every command completes or fails first (R72). -/
def effDrainComplete (die : Nat) (s : State) : State :=
  match (s.td die).endCause with
  | none => s
  | some c =>
    if !s.running die || !(s.td die).unfrozen || ((s.td die).ending && (s.td die).outstanding) then s
    else
      let s1 := ((s.drainAs die 0x109).scoreReports die).foldAll die
      let s2 := if c = .aborted then s1
        else s1.logErr die 2 0x02 0 (c.bit + 1) (s1.fget die SEQ_STATUS.STEP)
      s2.finishItem die seqSTOPPED 2 (some c)

/-- END_FETCH (R72): fetching stops, every operation completes, and the commands of a REPLAYABLE last step are sent
on. -/
def effEndFetch (die : Nat) (s : State) : State :=
  match s.ready die kEND with
  | none => s
  | some _ =>
    let s1 := s.drainAs die 0x109
    if (s1.td die).reports ≠ [] || (s1.td die).endCause ≠ none then s1
    else s1.updTd die (fun t => { releaseHeld t with ending := true })

/-- WORK_ITEM_COMPLETE (R72, R132): every command has completed or failed; one failure ends the item with ABORTED. -/
def effWorkItemComplete (die : Nat) (s : State) : State :=
  let t := s.td die
  if !s.running die || !t.ending || s.vwrInv.any (fun a => a / 2 ^ 37 = die) || t.outstanding then s
  else if t.endCause ≠ none then s
  else if t.failed then (s.foldAll die).finishItem die seqSTOPPED 2 (some .aborted)
  else s.finishItem die seqREADY 0 none

/-- SEQ_ABORT (R93). -/
def effSeqAbort (die : Nat) (s : State) : State :=
  if s.running die then (s.fset die SEQ_CTRL.ABORT 1).endItem die .aborted else s

/-! ## Images -/

/-- Is a core map admissible (R86, R89)? -/
def State.admissible (s : State) (die : Nat) (coreMap : Word) (foldable : Bool) : Bool :=
  (List.range 64).all (fun c =>
    !bitAt coreMap c || (if s.isFolded die c then foldable else !s.isFenced die c))

/-- SEQ_LOAD (R91, R93, R94). -/
def effSeqLoad (die : Nat) (s : State) : State :=
  let st := s.seqState die
  if isC die && s.dieUp die && (st = seqIDLE || st = seqREADY || st = seqSTOPPED) then
    ((s.coresReady die).fset die SEQ_STATUS.STATE seqLOADING).updTd die (fun t => { t with loading := true })
  else s

/-- The checks of R91 before the CRC, in order: a code, or the image. -/
def State.checkHeader (s : State) (die base : Nat) (h : List Byte) : Nat × Image :=
  let f := fun o n => leNat ((h.drop o).take n)
  let len := f 0x10 4
  let im : Image :=
    { base := base, coreMap := BitVec.ofNat 64 (f 0x08 8), length := len, entry := f 0x14 4, foldable := f 7 1 % 2 = 1,
      revlevel := f 6 1 }
  let code :=
    if len < 1 ∨ 0x1000000 < len ∨ 2 ^ 37 < base % 2 ^ 37 + 256 + 128 * len then 1
    else if f 0 4 ≠ 0x54444C4E ∨ f 4 2 ≠ 1 then 2
    else if len ≤ im.entry ∨ f 7 1 / 2 ≠ 0 ∨ f 0x1C 4 ≠ 0 ∨ f 0x28 216 ≠ 0 then 7
    else if s.fget shDie PKG_FEATLEVEL.EFFECTIVE < im.revlevel then 3
    else if !s.admissible die im.coreMap im.foldable then 4
    else 0
  (code, im)

/-- The end of a load (R84, R91, R96): with code 0 the image is held, and of its bundles `bs` chunks 0 and 1 or all stand in the
buffer; with another the die is IDLE with no image. -/
def State.endLoad (s : State) (die code : Nat) (im : Image) (bs : List Byte) : State :=
  let lo := die * 2 ^ 24
  let s1 := ({ s with sbuf := memClear s.sbuf lo (lo + 2 ^ 24) }).fset die SEQ_LOAD_RESULT.CODE code
  if code = 0 then
    let s2 := s1.fsets die [(SEQ_STATUS.STATE, seqREADY), (SEQ_STATUS.RING, b2n (imageRing im)),
      (SEQ_STATUS.HALF_RATE, b2n (s1.halfRate die im.coreMap))]
    let s3 := s2.updTd die (fun t =>
      { t with image := some im, loading := false, refill := none, halves := if imageRing im then [(0, 0), (1, 1)] else [],
               regs := .zero, shadow := .zero, bufs := [] })
    { s3 with sbuf := memWriteN s3.sbuf lo (bs.take (128 * bufBundles)) }
  else
    (s1.fsets die [(SEQ_STATUS.STATE, seqIDLE), (SEQ_STATUS.RING, 0), (SEQ_STATUS.HALF_RATE, 0)]).updTd die (fun t =>
      { t with image := none, loading := false, halves := [], refill := none })

/-- The last check of R91, on the bundles of an image whose header `h` has passed. They are read in vault time that the stream leaves
free (R161). -/
def State.loadBundles (s t : State) (die o : Nat) (im : Image) (h : List Byte) : State :=
  if !s.vaultsFree die o (128 * im.length) then s
  else
    let (bs, bad, u) := t.stackRead die o (128 * im.length) srcRefill
    if bad then u.endLoad die 6 im []
    else if crc32 (bs.map BitVec.toNat) ≠ leNat ((h.drop 0x18).take 4) then u.endLoad die 5 im []
    else u.endLoad die 0 im bs

/-- The checks of a load from an image base, in the order of R91. -/
def State.loadFrom (s : State) (die base : Nat) : State :=
  let none0 : Image := ⟨base, 0, 0, 0, false, 0⟩
  let o := base % 2 ^ 37
  if base / 2 ^ 37 ≠ die then s.endLoad die 1 none0 []
  else if !s.vaultsFree die o 256 then s
  else
    let (h, bad, s1) := s.stackRead die o 256 srcRefill
    if bad then s1.endLoad die 6 none0 []
    else
      let s2 := s1.fset die SEQ_LOAD_RESULT.REQ_LEVEL (h.getD 6 0).toNat
      let (code, im) := s2.checkHeader die base h
      if code ≠ 0 then s2.endLoad die code im [] else s.loadBundles s2 die (o + 256) im h

/-- IMAGE_LOAD_DONE (R91, R96, R161): the header and the bundles are read once their vaults are free for dynamic accesses. -/
def effImageLoadDone (die : Nat) (s : State) : State :=
  if s.seqState die ≠ seqLOADING then s else s.loadFrom die (s.fget die SEQ_IMAGE_BASE.BASE * 4096)

/-- SEQ_START (R32, R75, R94): CORE_MAP is checked again; registers and tokens read 0; the item starts at ENTRY, once chunks 0 and 1 of
a ring image have been refilled. -/
def effSeqStart (die : Nat) (s : State) : State :=
  let st := s.seqState die
  match (s.td die).image with
  | none => s
  | some im =>
    if !(st = seqREADY || st = seqSTOPPED) || !s.dieUp die then s
    else if !s.admissible die im.coreMap im.foldable then s.fset die SEQ_LOAD_RESULT.CODE 4
    else
      let s1 := s.coresReady die
      let s3 := (List.range 4).foldl (fun t i => t.wr die 0 (0x050 + 8 * i) 0) s1
      let s4 := s3.fsets die [(SEQ_STATUS.STATE, seqRUNNING), (SEQ_STATUS.HALF_RATE, b2n (s3.halfRate die im.coreMap))]
      (s4.setCoreStates die 1).updTd die (fun t =>
        { t with regs := .zero, shadow := .zero, bufs := [], abortAt := 0, replayCores := [], stepCycles := 0, dynWrites := [],
                 pc := im.entry, fetched := none, loops := [], ckpt := none,
                 replayable := false, replays := 0, restoring := false, branch := none, ending := false, endCause := none,
                 failCode := 0, failHome := false, failed := false, issued := [], reports := [],
                 refill := if imageRing im then some 0 else none, halves := if imageRing im then [] else t.halves,
                 flights := [], busy := [], start := t.cycle, itemCmd := t.nextCmd, passEnd := [], step2 := false, freezeRefresh := false,
                 freezeFetch := false })

/-! ## Tokens, signals, injection -/

/-- SEQ_TOKEN_ADD (R101): a write of the register. -/
def effSeqTokenAdd (die index inc : Nat) (s : State) : State :=
  if isC die then s.tokenAdd die (index % 16) (inc % 2 ^ 16) else s

/-- A message toward a stopped die discarded and counted at the sending end (R256, R265). -/
def State.countDiscard (s : State) (src dst : Nat) : State :=
  match linkHome src (nextDie src dst 0) with
  | some (d, k) => s.finc d (JTY_CNT.DISCARD_CNT.inBlk k)
  | none => s

/-- SIGNAL_ARRIVAL (R139): the oldest increment on its way to a die arrives; a stopped die discards it (R256). -/
def effSignalArrival (die : Nat) (s : State) : State :=
  match takeFirst (fun (x : Nat × Nat × Nat × Nat) => x.1 = die) s.signals with
  | none => s
  | some (x, rest) =>
    if s.dieUp die then ({ s with signals := rest }).tokenAdd die x.2.1 x.2.2.1
    else ({ s with signals := rest }).countDiscard x.2.2.2 die

/-- TC_INJECT_SLAB_PARITY (R61). -/
def effTcInjectSlabParity (die core : Nat) (s : State) : State :=
  if isC die && core < 64 then s.fset die (TC_INJECT.SLAB_PARITY.unit core) 1 else s

/-- TC_INJECT_RESIDUE (R61). -/
def effTcInjectResidue (die core : Nat) (s : State) : State :=
  if isC die && core < 64 then s.fset die (TC_INJECT.RESIDUE.unit core) 1 else s

/-- TC_FAULT_CLEAR (R56, R57): ones clear fault bits; once all read 0, the first fault may be captured anew. -/
def effTcFaultClear (die core : Nat) (w : Word) (s : State) : State :=
  if isC die && core < 64 then
    let b := 0x100 + core
    let v := s.rd die b 0x008
    s.wr die b 0x008 (clearFirst (setBits v 6 0 (bits (v &&& ~~~w) 6 0)) 7)
  else s

/-! ## The slot operations as commands -/

/-- TLOAD (R112). -/
def effTload (die : Nat) (w : Word) (d : Nat × Nat × Nat) (s : State) : State := s.runSlot die 0x00 w d

/-- MPASS (R116). -/
def effMpass (die : Nat) (w : Word) (s : State) : State := s.runSlot die 0x01 w (0, 0, 0)

/-- VFP (R118). -/
def effVfp (die : Nat) (w : Word) (s : State) : State := s.runSlot die 0x08 w (0, 0, 0)

/-- VINT (R119). -/
def effVint (die : Nat) (w : Word) (s : State) : State := s.runSlot die 0x09 w (0, 0, 0)

/-- VCMP (R120). -/
def effVcmp (die : Nat) (w : Word) (s : State) : State := s.runSlot die 0x0A w (0, 0, 0)

/-- VCVT (R121). -/
def effVcvt (die : Nat) (w : Word) (s : State) : State := s.runSlot die 0x0B w (0, 0, 0)

/-- VTRN (R122). -/
def effVtrn (die : Nat) (w : Word) (s : State) : State := s.runSlot die 0x0C w (0, 0, 0)

/-- SLD (R124). -/
def effSld (die : Nat) (w : Word) (s : State) : State := s.runSlot die 0x10 w (0, 0, 0)

/-- SST (R124). -/
def effSst (die : Nat) (w : Word) (s : State) : State := s.runSlot die 0x11 w (0, 0, 0)

/-- SCOPY (R126). -/
def effScopy (die : Nat) (w : Word) (s : State) : State := s.runSlot die 0x12 w (0, 0, 0)

/-- SFILL (R126). -/
def effSfill (die : Nat) (w : Word) (s : State) : State := s.runSlot die 0x13 w (0, 0, 0)

/-- VRD (R127). -/
def effVrd (die : Nat) (w : Word) (d : Nat × Nat × Nat) (s : State) : State := s.runSlot die 0x18 w d

/-- VWR (R128). -/
def effVwr (die : Nat) (w : Word) (s : State) : State := s.runSlot die 0x19 w (0, 0, 0)

/-- REFRESH (R85, R129). -/
def effRefresh (die : Nat) (w : Word) (s : State) : State := s.runSlot die 0x1A w (0, 0, 0)

/-- SSEND (R131). -/
def effSsend (die : Nat) (w : Word) (d : Nat × Nat × Nat) (s : State) : State := s.runSlot die 0x20 w d

/-- GLZ (R133). -/
def effGlz (die : Nat) (w : Word) (s : State) : State := s.runSlot die 0x28 w (0, 0, 0)

/-- DMA (R134). -/
def effDma (die : Nat) (w : Word) (s : State) : State := s.runSlot die 0x29 w (0, 0, 0)

/-- RATOM (R135). -/
def effRatom (die : Nat) (w : Word) (s : State) : State := s.runSlot die 0x2A w (0, 0, 0)

/-- SALU (R136). -/
def effSalu (die : Nat) (w : Word) (s : State) : State := s.runSlot die 0x30 w (0, 0, 0)

/-- SLI (R137). -/
def effSli (die : Nat) (w : Word) (s : State) : State := s.runSlot die 0x31 w (0, 0, 0)

/-- SLDS (R138). -/
def effSlds (die : Nat) (w : Word) (s : State) : State := s.runSlot die 0x32 w (0, 0, 0)

/-- SSTS (R138). -/
def effSsts (die : Nat) (w : Word) (s : State) : State := s.runSlot die 0x33 w (0, 0, 0)

/-- SFROMV (R138). -/
def effSfromv (die : Nat) (w : Word) (s : State) : State := s.runSlot die 0x34 w (0, 0, 0)

/-- SIGNAL (R139). -/
def effSignal (die : Nat) (w : Word) (s : State) : State := s.runSlot die 0x35 w (0, 0, 0)

/-- MARK (R140). -/
def effMark (die : Nat) (w : Word) (s : State) : State := s.runSlot die 0x36 w (0, 0, 0)

/-! ## The commands of this file: each one's effect, committed -/

/-- BUNDLE_FETCH (R65). -/
def execBundleFetch (die : Nat) (parity : Bool) (s : State) : Host.Outcome State Fault Refusal :=
  s.commit (effBundleFetch die parity s)

/-- REFETCH_ARRIVAL (R84). -/
def execRefetchArrival (die : Nat) (s : State) : Host.Outcome State Fault Refusal :=
  s.commit (effRefetchArrival die s)

/-- BUNDLE_ISSUE (R63). -/
def execBundleIssue (die : Nat) (s : State) : Host.Outcome State Fault Refusal :=
  s.commit (effBundleIssue die s)

/-- HOLD_BUNDLE (R64). -/
def execHoldBundle (die : Nat) (s : State) : Host.Outcome State Fault Refusal :=
  s.commit (effHoldBundle die s)

/-- CHECKPOINT_FETCH (R79). -/
def execCheckpointFetch (die : Nat) (s : State) : Host.Outcome State Fault Refusal :=
  s.commit (effCheckpointFetch die s)

/-- CHECKPOINT_ISSUE (R79). -/
def execCheckpointIssue (die : Nat) (s : State) : Host.Outcome State Fault Refusal :=
  s.commit (effCheckpointIssue die s)

/-- CHUNK_REFILL_COMPLETE (R84). -/
def execChunkRefillComplete (die : Nat) (s : State) : Host.Outcome State Fault Refusal :=
  s.commit (effChunkRefillComplete die s)

/-- AWAIT_FETCH (R73). -/
def execAwaitFetch (die : Nat) (s : State) : Host.Outcome State Fault Refusal :=
  s.commit (effAwaitFetch die s)

/-- AWAIT_RELEASE (R73). -/
def execAwaitRelease (die wait : Nat) (s : State) : Host.Outcome State Fault Refusal :=
  s.commit (effAwaitRelease die wait s)

/-- AWAIT_TIMEOUT (R76). -/
def execAwaitTimeout (die : Nat) (s : State) : Host.Outcome State Fault Refusal :=
  s.commit (effAwaitTimeout die s)

/-- BRANCH_ISSUE (R72). -/
def execBranchIssue (die : Nat) (s : State) : Host.Outcome State Fault Refusal :=
  s.commit (effBranchIssue die s)

/-- BRANCH_RESOLVE (R72). -/
def execBranchResolve (die : Nat) (s : State) : Host.Outcome State Fault Refusal :=
  s.commit (effBranchResolve die s)

/-- LOOP_ISSUE (R69). -/
def execLoopIssue (die : Nat) (s : State) : Host.Outcome State Fault Refusal :=
  s.commit (effLoopIssue die s)

/-- LOOP_ITERATION_END (R69). -/
def execLoopIterationEnd (die : Nat) (s : State) : Host.Outcome State Fault Refusal :=
  s.commit (effLoopIterationEnd die s)

/-- END_FETCH (R72). -/
def execEndFetch (die : Nat) (s : State) : Host.Outcome State Fault Refusal :=
  s.commit (effEndFetch die s)

/-- WORK_ITEM_COMPLETE (R72). -/
def execWorkItemComplete (die : Nat) (s : State) : Host.Outcome State Fault Refusal :=
  s.commit (effWorkItemComplete die s)

/-- DRAIN_COMPLETE (R94). -/
def execDrainComplete (die : Nat) (s : State) : Host.Outcome State Fault Refusal :=
  s.commit (effDrainComplete die s)

/-- ARITHMETIC_FAULT_REPORT (R81). -/
def execArithmeticFaultReport (die : Nat) (silicon : Option (Nat × Nat × Nat)) (s : State) : Host.Outcome State Fault Refusal :=
  s.commit (effArithmeticFaultReport die silicon s)

/-- REPLAY_RESTORE (R81). -/
def execReplayRestore (die : Nat) (s : State) : Host.Outcome State Fault Refusal :=
  s.commit (effReplayRestore die s)

/-- FREEZE_BEGIN (R83). -/
def execFreezeBegin (die : Nat) (s : State) : Host.Outcome State Fault Refusal :=
  s.commit (effFreezeBegin die s)

/-- FREEZE_END (R83). -/
def execFreezeEnd (die : Nat) (s : State) : Host.Outcome State Fault Refusal :=
  s.commit (effFreezeEnd die s)

/-- TLOAD (R112). -/
def execTload (die : Nat) (w : Word) (d : Nat × Nat × Nat) (s : State) : Host.Outcome State Fault Refusal :=
  s.commit (effTload die w d s)

/-- MPASS (R116). -/
def execMpass (die : Nat) (w : Word) (s : State) : Host.Outcome State Fault Refusal :=
  s.commit (effMpass die w s)

/-- VFP (R118). -/
def execVfp (die : Nat) (w : Word) (s : State) : Host.Outcome State Fault Refusal :=
  s.commit (effVfp die w s)

/-- VINT (R119). -/
def execVint (die : Nat) (w : Word) (s : State) : Host.Outcome State Fault Refusal :=
  s.commit (effVint die w s)

/-- VCMP (R120). -/
def execVcmp (die : Nat) (w : Word) (s : State) : Host.Outcome State Fault Refusal :=
  s.commit (effVcmp die w s)

/-- VCVT (R121). -/
def execVcvt (die : Nat) (w : Word) (s : State) : Host.Outcome State Fault Refusal :=
  s.commit (effVcvt die w s)

/-- VTRN (R122). -/
def execVtrn (die : Nat) (w : Word) (s : State) : Host.Outcome State Fault Refusal :=
  s.commit (effVtrn die w s)

/-- SLD (R124). -/
def execSld (die : Nat) (w : Word) (s : State) : Host.Outcome State Fault Refusal :=
  s.commit (effSld die w s)

/-- SST (R124). -/
def execSst (die : Nat) (w : Word) (s : State) : Host.Outcome State Fault Refusal :=
  s.commit (effSst die w s)

/-- SCOPY (R126). -/
def execScopy (die : Nat) (w : Word) (s : State) : Host.Outcome State Fault Refusal :=
  s.commit (effScopy die w s)

/-- SFILL (R126). -/
def execSfill (die : Nat) (w : Word) (s : State) : Host.Outcome State Fault Refusal :=
  s.commit (effSfill die w s)

/-- VRD (R127). -/
def execVrd (die : Nat) (w : Word) (d : Nat × Nat × Nat) (s : State) : Host.Outcome State Fault Refusal :=
  s.commit (effVrd die w d s)

/-- VWR (R128). -/
def execVwr (die : Nat) (w : Word) (s : State) : Host.Outcome State Fault Refusal :=
  s.commit (effVwr die w s)

/-- REFRESH (R85). -/
def execRefresh (die : Nat) (w : Word) (s : State) : Host.Outcome State Fault Refusal :=
  s.commit (effRefresh die w s)

/-- SSEND (R131). -/
def execSsend (die : Nat) (w : Word) (d : Nat × Nat × Nat) (s : State) : Host.Outcome State Fault Refusal :=
  s.commit (effSsend die w d s)

/-- GLZ (R133). -/
def execGlz (die : Nat) (w : Word) (s : State) : Host.Outcome State Fault Refusal :=
  s.commit (effGlz die w s)

/-- DMA (R134). -/
def execDma (die : Nat) (w : Word) (s : State) : Host.Outcome State Fault Refusal :=
  s.commit (effDma die w s)

/-- RATOM (R135). -/
def execRatom (die : Nat) (w : Word) (s : State) : Host.Outcome State Fault Refusal :=
  s.commit (effRatom die w s)

/-- SALU (R136). -/
def execSalu (die : Nat) (w : Word) (s : State) : Host.Outcome State Fault Refusal :=
  s.commit (effSalu die w s)

/-- SLI (R137). -/
def execSli (die : Nat) (w : Word) (s : State) : Host.Outcome State Fault Refusal :=
  s.commit (effSli die w s)

/-- SLDS (R138). -/
def execSlds (die : Nat) (w : Word) (s : State) : Host.Outcome State Fault Refusal :=
  s.commit (effSlds die w s)

/-- SSTS (R138). -/
def execSsts (die : Nat) (w : Word) (s : State) : Host.Outcome State Fault Refusal :=
  s.commit (effSsts die w s)

/-- SFROMV (R138). -/
def execSfromv (die : Nat) (w : Word) (s : State) : Host.Outcome State Fault Refusal :=
  s.commit (effSfromv die w s)

/-- SIGNAL (R139). -/
def execSignal (die : Nat) (w : Word) (s : State) : Host.Outcome State Fault Refusal :=
  s.commit (effSignal die w s)

/-- SIGNAL_ARRIVAL (R139). -/
def execSignalArrival (die : Nat) (s : State) : Host.Outcome State Fault Refusal :=
  s.commit (effSignalArrival die s)

/-- MARK (R140). -/
def execMark (die : Nat) (w : Word) (s : State) : Host.Outcome State Fault Refusal :=
  s.commit (effMark die w s)

/-- SEQ_LOAD (R91). -/
def execSeqLoad (die : Nat) (s : State) : Host.Outcome State Fault Refusal :=
  s.commit (effSeqLoad die s)

/-- IMAGE_LOAD_DONE (R91). -/
def execImageLoadDone (die : Nat) (s : State) : Host.Outcome State Fault Refusal :=
  s.commit (effImageLoadDone die s)

/-- SEQ_START (R94). -/
def execSeqStart (die : Nat) (s : State) : Host.Outcome State Fault Refusal :=
  s.commit (effSeqStart die s)

/-- SEQ_ABORT (R93). -/
def execSeqAbort (die : Nat) (s : State) : Host.Outcome State Fault Refusal :=
  s.commit (effSeqAbort die s)

/-- SEQ_TOKEN_ADD (R101). -/
def execSeqTokenAdd (die index inc : Nat) (s : State) : Host.Outcome State Fault Refusal :=
  s.commit (effSeqTokenAdd die index inc s)

/-- TC_INJECT_SLAB_PARITY (R61). -/
def execTcInjectSlabParity (die core : Nat) (s : State) : Host.Outcome State Fault Refusal :=
  s.commit (effTcInjectSlabParity die core s)

/-- TC_INJECT_RESIDUE (R61). -/
def execTcInjectResidue (die core : Nat) (s : State) : Host.Outcome State Fault Refusal :=
  s.commit (effTcInjectResidue die core s)

/-- TC_FAULT_CLEAR (R57). -/
def execTcFaultClear (die core : Nat) (w : Word) (s : State) : Host.Outcome State Fault Refusal :=
  s.commit (effTcFaultClear die core w s)

end Sys2Proof.Machine
end

