-- ==== Sys2Proof/Machine/Vaults.lean ====
section
/-!
DEFINITION. Dynamic slab accesses (R46, R47, R50) and the vault controllers: refresh (R85, R171), dynamic accesses (R161,
R162), poison rewrites (R165), scrub (R177), initialisation (R175), injection (R185), temperature (R172) and self-refresh
(R173).
-/
namespace Sys2Proof.Machine

/-! ## Dynamic slab accesses -/

/-- DYNAMIC_SLAB_ACCESS (R46, R50): a load or store through the slab window arrives; a fenced core refuses it. -/
def effDynamicSlabAccess (agent : Agent) (addr len : Nat) (write : Bool) (data : List Byte) (s : State) : State :=
  match regionOf addr with
  | .slab die core off =>
    if s.isFenced die core || 2 ^ 22 < off + len then s.emit (.refused agent addr)
    else { s with slabWait := s.slabWait ++ [⟨agent, addr, write, len, data.take len⟩] }
  | _ => s

/-- A dynamic read of a slab: a parity error poisons the data and is recorded (R47, R58, R59). -/
def State.slabDynRead (s : State) (die core off n : Nat) : List Byte × Bool × State :=
  let bad := s.badWord die core off n
  let s1 :=
    match bad with
    | some o => (s.captureSlabErr die core o true).finc die (TC_ERRCNT.SLAB_PAR_CNT.unit core)
    | none => s
  (s.slabBytes die core off n, bad.isSome, s1)

/-- One dynamic slab access performed. -/
def State.slabServe (s : State) (r : DynReq) : State :=
  match regionOf r.addr with
  | .slab die core off =>
    if s.isFenced die core then s.emit (.refused r.agent r.addr)
    else if r.write then
      ((s.coreEvent die core 0x008 1).dynSlabPut die core off r.data (fullMask r.data.length)).emit (.done r.agent r.addr)
    else
      let (d, bad, s1) := (s.coreEvent die core 0x008 1).slabDynRead die core off r.len
      s1.emit (.data r.agent r.addr d bad)
  | _ => s

/-- May a waiting slab access be served now? -/
def State.slabFree (s : State) (die : Nat) (r : DynReq) : Bool :=
  match regionOf r.addr with
  | .slab d core off => d = die && s.dieUp die && !s.slabPortBusy die core off r.len r.write
  | _ => false

/-- DYNAMIC_SLAB_SERVED (R46, R47): the oldest access whose bank ports are free. -/
def effDynamicSlabServed (die : Nat) (s : State) : State :=
  match takeFirst (s.slabFree die) s.slabWait with
  | none => s
  | some (r, rest) => ({ s with slabWait := rest }).slabServe r

/-! ## Refresh -/

/-- DEBT_LIMIT (R99): 0 and values above 8 act as 8. -/
def State.debtLimit (s : State) (die : Nat) : Nat :=
  let x := s.fget die SEQ_REFRESH.DEBT_LIMIT
  if x = 0 ∨ 8 < x then 8 else x

/-- An inserted refresh (R85): the die freezes, and every vault in debt performs one round. -/
def State.insertRefresh (s : State) (die : Nat) : State :=
  ((s.updTd die (fun t => { t with freezeRefresh := true })).finc die SEQ_REFRESH.INSERTED_CNT).tryRounds die

/-- REFRESH_DEBT_RISE (R85, R99, R171; DESIGN CHOICE, log entry 51: a debt that stands when PEAK_DEBT is read counts again only at a
later rise): the debt rises; a vault that paces itself starts a round; at DEBT_LIMIT an inserted
refresh freezes the die, and every vault in debt performs one round. -/
def effRefreshDebtRise (die v : Nat) (s : State) : State :=
  if !isC die || 64 ≤ v || !s.dieUp die || !s.refreshes die v then s
  else
    let d := min 8 (s.fget die (MFS_STATUS.DEBT.unit v) + 1)
    let s1 := (s.fset die (MFS_STATUS.DEBT.unit v) d).fset die SEQ_REFRESH.PEAK_DEBT
      (max d (s.fget die SEQ_REFRESH.PEAK_DEBT))
    if s1.selfPaced die then s1.tryRound die v
    else if s1.debtLimit die ≤ d && !(s1.td die).freezeRefresh then s1.insertRefresh die
    else s1

/-- REFRESH_ROUND_DONE (R171, R173): the round ends, and waiting dynamic accesses may proceed; the round that ends self-refresh makes the
vault active. A vault that paces itself and is still in debt starts the next round. -/
def effRefreshRoundDone (die v : Nat) (s : State) : State :=
  if !(s.vault die v).refreshing then s
  else
    let s0 := s.updVault die v (fun x => { x with refreshing := false })
    let s1 := if s0.vState die v = vSELFREF then s0.fset die (MFS_STATUS.STATE.unit v) vACTIVE else s0
    if s1.selfPaced die && s1.refreshes die v then s1.tryRound die v else s1

/-! ## Dynamic vault accesses -/

/-- Is an operation of a Glaze unit shadowed (R206)? -/
def glzShadowed (gop : Nat) : Bool := gop = 2 || gop = 3 || gop = 4 || gop = 5 || gop = 8

/-- Does the home of a vault hold a line for the stroke that its Glaze unit has computed and not yet written (R203)? -/
def State.glzHolds (s : State) (die v line : Nat) : Bool :=
  match mapFind s.glz (vaultKey die v) with
  | some u =>
    match u.cmds.head? with
    | some c => c.held && c.ready && c.writes.any (fun w => w.1 < line * 64 + 64 && line * 64 < w.1 + w.2.length)
    | none => false
  | none => false

/-- Does a home hold any of the lines of `n` bytes at a die offset (R203)? -/
def State.glzHoldsAny (s : State) (die o n : Nat) : Bool :=
  (List.range ((o + n + 63) / 64 - o / 64)).any (fun i =>
    let a := (o / 64 + i) * 64
    s.glzHolds die (stackLoc (s.share die) a).1 (die * 2 ^ 31 + o / 64 + i))

/-- VAULT_DYNAMIC_REQUEST (R161): an access to a stack address of this die arrives. -/
def effVaultDynamicRequest (agent : Agent) (addr len : Nat) (write : Bool) (data : List Byte) (s : State) : State :=
  match regionOf addr with
  | .stack die o =>
    s.updVault die (stackLoc (s.share die) o).1 (fun x =>
      { x with waiting := x.waiting ++ [⟨agent, addr, write, len, data.take len⟩] })
  | _ => s

/-- VAULT_DYNAMIC_SERVED (R161, R162, R165, R203): the oldest access of the vault is performed. -/
def effVaultDynamicServed (die v : Nat) (s : State) : State :=
  match (s.vault die v).waiting with
  | [] => s
  | r :: rest =>
    if !s.vaultFree die v || !s.vaultsFree die (r.addr % 2 ^ 37) r.len || s.glzHoldsAny die (r.addr % 2 ^ 37) r.len then s
    else
      let s1 := s.updVault die v (fun x => { x with waiting := rest })
      let o := r.addr % 2 ^ 37
      if r.write then (s1.stackWrite die o r.data false srcDynamic).emit (.done r.agent r.addr)
      else
        let (bs, bad, s2) := s1.stackRead die o r.len srcDynamic
        s2.emit (.data r.agent r.addr bs bad)

/-- The block with some of its codewords in poisoned form, and the others as stored (R165 to R167). -/
def State.poisonBlock (s : State) (die v block : Nat) (qs : List Nat) : State :=
  let raw := s.rawBlock die v block
  if s.isCrumb die v block then
    let enc := encodeBlock true (raw.take 128) ((List.range 4).map (fun q => qs.contains q))
    s.storeRaw die v block (qs.foldl (fun (acc : List Nat) q =>
      ((codeWires true q).foldl (fun a i => a.set i (enc.getD i 0)) acc).set (144 + q) (markOf true)) raw)
  else s.writeBlock die v block ((raw.take 128).map (BitVec.ofNat 8)) [true, true, true, true]

/-- A block that the patrol read is rewritten where a corrected encoding differs from what is stored (R177). -/
def State.scrubBack (s : State) (die v block : Nat) (b : BlockRead) : State :=
  if b.uncorr.any id || encodeBlock (s.isCrumb die v block) (b.bytes.map BitVec.toNat) b.poison =
    (s.rawBlock die v block).take 144 then s
  else s.writeBlock die v block b.bytes b.poison

/-- SCRUB_READ (R177): the next block of the patrol is read; corrected codewords are rewritten corrected. -/
def effScrubRead (die v : Nat) (s : State) : State :=
  if !isC die || 64 ≤ v || !s.fbit die (MFS_CTRL.SCRUB_EN.unit v) || s.vState die v ≠ vACTIVE || !s.vaultFree die v then s
  else
    let block := (s.vault die v).scrub
    let (b, s1) := s.readBlock die v block srcScrub
    (s1.scrubBack die v block b).updVault die v (fun x => { x with scrub := (block + 1) % 0x1000000 })

/-! ## Initialisation, injection, temperature, self-refresh -/

/-- VAULT_INIT (R175): accepted while not initialised, or active with the sequencer IDLE. -/
def effVaultInit (die v : Nat) (s : State) : State :=
  if !isC die || 64 ≤ v || !s.dieUp die then s
  else
    let st := s.vState die v
    if st = vUNINIT || (st = vACTIVE && s.seqState die = seqIDLE) then
      (s.fset die (MFS_CTRL.INIT.unit v) 1).updVault die v (fun x => { x with initing := true })
    else s

/-- Every wire byte of a vault's blocks as zero, under the code in force (R169, R175). -/
def State.clearVault (s : State) (die v : Nat) : State :=
  { s with stack := memClear s.stack (rawKey die v 0 0) (rawKey die v 0 0 + 2 ^ 32) }.updVault die v (fun x =>
    { x with rewrite := [], code := s.codeOf die, dirOn := false })

/-- The staging records of a vault's Glaze area, and what a reset left there, zeroed with the vault; a held command computes its stroke
anew (R175, R205; DESIGN CHOICE, log entry 54). -/
def State.clearRecords (s : State) (die v : Nat) : State :=
  match mapFind s.glz (vaultKey die v) with
  | none => s
  | some u =>
    let cs := u.cmds.map (fun c => { c with ready := false, writes := [], held := false })
    ({ s with glz := mapSet s.glz (vaultKey die v) { u with cmds := cs, staging := [], kept := [], keptStage := [] } }).fsets die
      [(GLZ_STATUS.KEYS.unit v, 0), (GLZ_STATUS.STAGE_USED.unit v, 0)]

/-- VAULT_INIT_DONE (R175, R185, R205): every block holds zeros with all-zero check bytes, the records of the Glaze area are gone, and
waiting accesses may proceed. An armed injection strikes the first block of its channel (DESIGN CHOICE, log entry 54: the order in which
INIT writes the blocks is not stated). -/
def effVaultInitDone (die v : Nat) (s : State) : State :=
  if !(s.vault die v).initing then s
  else
    let s1 := s.clearVault die v
    let ch := s.fget die (MFS_INJECT.CHANNEL.unit v)
    let s2 := if s.fbit die (MFS_INJECT.ARM.unit v) then s1.storeRaw die v ch (List.replicate rawBytes 0) else s1
    ((s2.clearRecords die v).fsets die [(MFS_CTRL.INIT.unit v, 0), (MFS_STATUS.STATE.unit v, vACTIVE)]).updVault die v (fun x =>
      { x with initing := false })

/-- VAULT_INJECT_ARM (R185). -/
def effVaultInjectArm (die v channel wire : Nat) (s : State) : State :=
  if isC die && v < 64 then
    s.fsets die [(MFS_INJECT.CHANNEL.unit v, channel), (MFS_INJECT.WIRE.unit v, wire), (MFS_INJECT.ARM.unit v, 1)]
  else s

/-- STACK_THERM_SAMPLE (R172, R188, R189): the hottest reading of each layer. The die-wide time since which every layer
has read 81 °C or less is kept with vault V00, as that time plus 1. -/
def effStackThermSample (die : Nat) (temps : List Nat) (s : State) : State :=
  if !isC die || !s.dieUp die then s
  else
    let ts := (List.range 8).map (fun i => temps.getD i 0 % 256)
    let hot := ts.foldl max 0
    let s1 := s.wr die 0x200 0x110 (BitVec.ofNat 64 (ts.foldr (fun b acc => b + 256 * acc) 0))
    let s2 := s1.fsets die [(MFS_DIESTAT.MAX_TEMP, hot), (MFS_DIESTAT.HOT_LAYER, (ts.findIdx? (· = hot)).getD 0)]
    let since := (s2.vault die 0).coolSince
    let since' := if hot ≤ 81 then (if since = 0 then s.now + 1 else since) else 0
    let s3 := s2.updVault die 0 (fun x => { x with coolSince := since' })
    let s4 :=
      if 84 ≤ hot then s3.fset die MFS_DIESTAT.REF2X 1
      else if since' ≠ 0 && since' - 1 + 10 ^ 8 ≤ s.now then s3.fset die MFS_DIESTAT.REF2X 0
      else s3
    if 95 ≤ hot then (s4.fset die MFS_DIESTAT.TRIP 1).raise ⟨2, die, 3, hot⟩ else s4

/-- SELF_REFRESH_EXIT (R173): the debt is 0, and one round runs before any access; at its end STATE returns to active. -/
def effSelfRefreshExit (die v : Nat) (s : State) : State :=
  if !isC die || 64 ≤ v || !s.dieUp die || s.vState die v ≠ vSELFREF then s
  else
    (s.fset die (MFS_STATUS.DEBT.unit v) 0).updVault die v (fun x => { x with refreshing := true })

/-! ## The commands of this file: each one's effect, committed -/

/-- DYNAMIC_SLAB_ACCESS (R46). -/
def execDynamicSlabAccess (agent : Agent) (addr len : Nat) (write : Bool) (data : List Byte) (s : State) :
    Host.Outcome State Fault Refusal :=
  s.commit (effDynamicSlabAccess agent addr len write data s)

/-- DYNAMIC_SLAB_SERVED (R46). -/
def execDynamicSlabServed (die : Nat) (s : State) : Host.Outcome State Fault Refusal :=
  s.commit (effDynamicSlabServed die s)

/-- REFRESH_DEBT_RISE (R171). -/
def execRefreshDebtRise (die v : Nat) (s : State) : Host.Outcome State Fault Refusal :=
  s.commit (effRefreshDebtRise die v s)

/-- REFRESH_ROUND_DONE (R171). -/
def execRefreshRoundDone (die v : Nat) (s : State) : Host.Outcome State Fault Refusal :=
  s.commit (effRefreshRoundDone die v s)

/-- VAULT_DYNAMIC_REQUEST (R161). -/
def execVaultDynamicRequest (agent : Agent) (addr len : Nat) (write : Bool) (data : List Byte) (s : State) :
    Host.Outcome State Fault Refusal :=
  s.commit (effVaultDynamicRequest agent addr len write data s)

/-- VAULT_DYNAMIC_SERVED (R161). -/
def execVaultDynamicServed (die v : Nat) (s : State) : Host.Outcome State Fault Refusal :=
  s.commit (effVaultDynamicServed die v s)

/-- SCRUB_READ (R177). -/
def execScrubRead (die v : Nat) (s : State) : Host.Outcome State Fault Refusal :=
  s.commit (effScrubRead die v s)

/-- VAULT_INIT (R175). -/
def execVaultInit (die v : Nat) (s : State) : Host.Outcome State Fault Refusal :=
  s.commit (effVaultInit die v s)

/-- VAULT_INIT_DONE (R175). -/
def execVaultInitDone (die v : Nat) (s : State) : Host.Outcome State Fault Refusal :=
  s.commit (effVaultInitDone die v s)

/-- VAULT_INJECT_ARM (R185). -/
def execVaultInjectArm (die v channel wire : Nat) (s : State) : Host.Outcome State Fault Refusal :=
  s.commit (effVaultInjectArm die v channel wire s)

/-- STACK_THERM_SAMPLE (R172). -/
def execStackThermSample (die : Nat) (temps : List Nat) (s : State) : Host.Outcome State Fault Refusal :=
  s.commit (effStackThermSample die temps s)

/-- SELF_REFRESH_EXIT (R173). -/
def execSelfRefreshExit (die v : Nat) (s : State) : Host.Outcome State Fault Refusal :=
  s.commit (effSelfRefreshExit die v s)

end Sys2Proof.Machine
end

