-- ==== Sys2Proof/Machine/ShelfMem.lean ====
section
/-!
DEFINITION. The Shelf's inline code (R344 to R346), the placement of direct-window lines, pool slots and reserve slots
(R347 to R350), and the memory that stands behind a line at its home (R270).
-/
namespace Sys2Proof.Machine

/-! ## The inline code -/

/-- Symbol of pin `p` of a 32 B burst (R344). -/
def pinSym (bs : List Nat) (p : Nat) : Nat :=
  (List.range 16).foldr (fun t acc => bs.getD (2 * t + p / 8) 0 / 2 ^ (p % 8) % 2 + 2 * acc) 0

/-- A 32 B burst from its sixteen pins. -/
def burstOf (syms : List Nat) : List Nat :=
  (List.range 32).map (fun i =>
    (List.range 8).foldr (fun j acc => syms.getD (8 * (i % 2) + j) 0 / 2 ^ (i / 2) % 2 + 2 * acc) 0)

/-- The 32 data symbols of a line. -/
def lineSyms (bs : List Nat) : List Nat :=
  (List.range 16).map (pinSym (bs.take 32)) ++ (List.range 16).map (pinSym (bs.drop 32))

/-- The 64 bytes of 32 data symbols. -/
def symsLine (syms : List Nat) : List Nat := burstOf (syms.take 16) ++ burstOf (syms.drop 16)

/-- The poison mask of the Shelf's code (R345). -/
def shelfMask : Nat := 0x5A5A

/-- The place of channel byte `o`: data below 0x4_0000_0000, check bursts above (R343). -/
def shelfKey (ch o : Nat) : Nat := ch * 2 ^ 35 + o

/-- The check burst of the chunk that holds a data offset (R344). -/
def checkOff (coff : Nat) : Nat := 2 ^ 34 + coff / 256 * 32

def State.shelfBytes (s : State) (ch o n : Nat) : List Nat := (memReadN s.shelf (shelfKey ch o) n).map BitVec.toNat

/-- The 36 symbols stored for the line at a channel data offset. -/
def State.shelfWord (s : State) (ch coff : Nat) : List Nat :=
  let l := coff / 64 % 4
  let chk := s.shelfBytes ch (checkOff coff) 32
  lineSyms (s.shelfBytes ch coff 64) ++ (List.range 4).map (fun i => pinSym chk (4 * l + i))

/-- The Q-die, SHF_ block and register offset of a channel (R358). -/
def shfDie (ch : Nat) : Nat := 4 + ch / 32
def shfRef (ch : Nat) (f : FieldRef) : FieldRef := (f.unit (ch % 32 / 2)).plus (0x40 * (ch % 2))

def State.chState (s : State) (ch : Nat) : Nat := s.fget (shfDie ch) (shfRef ch SHF_CH_STATUS.STATE)

/-- The pin erased on a channel (R345). -/
def State.erasedPin (s : State) (ch : Nat) : Option Nat :=
  if s.fbit (shfDie ch) (shfRef ch SHF_CH_STATUS.ERASED) then some (s.fget (shfDie ch) (shfRef ch SHF_CH_STATUS.PIN))
  else none

/-- The pin that carries position `p` of a codeword of line `l` of its chunk. -/
def symPin (l p : Nat) : Nat := if p < 32 then p % 16 else 4 * l + (p - 32)

/-- A line stored, with its check symbols, poisoned or not (R344, R345). -/
def State.shelfStore (s : State) (ch coff : Nat) (dat : List Byte) (poison : Bool) : State :=
  let d := lineSyms (dat.map BitVec.toNat)
  let w := maskChecks 4 (if poison then shelfMask else 0) (d ++ rsEncode gf16 4 d)
  let l := coff / 64 % 4
  let chk := s.shelfBytes ch (checkOff coff) 32
  let pins := (List.range 16).map (fun p => if p / 4 = l then w.getD (32 + p % 4) 0 else pinSym chk p)
  let m1 := memWriteN s.shelf (shelfKey ch coff) dat
  { s with
    shelf := memWriteN m1 (shelfKey ch (checkOff coff)) ((burstOf pins).map (BitVec.ofNat 8)),
    shelfRewrite := s.shelfRewrite.filter (· ≠ shelfKey ch coff) }

/-- One corrected symbol counted toward the erasure of its pin: 16 codewords of the channel within 1 ms (R345). -/
def State.notePin (s : State) (ch pin : Nat) : State :=
  let k := ch * 16 + pin
  let times := ((mapGet [] s.shelfHits k).filter (fun t => s.now < t + 10 ^ 7)) ++ [s.now]
  let s1 := { s with shelfHits := mapSet s.shelfHits k times }
  if 16 ≤ times.length then
    match s.erasedPin ch with
    | none =>
      ((s1.fsets (shfDie ch) [(shfRef ch SHF_CH_STATUS.ERASED, 1), (shfRef ch SHF_CH_STATUS.PIN, pin)]).logErr (shfDie ch)
        0 0x09 ch 0x3 pin)
    | some p =>
      -- a second pin that meets the condition takes the channel down (R538)
      if p = pin then s1
      else (s1.fset (shfDie ch) (shfRef ch SHF_CH_STATUS.STATE) 3).logErr (shfDie ch) 3 0x09 ch 0x5 pin
  else s1

/-- SHF_CH_ERR takes the first uncorrectable or poisoned read (R360). -/
def State.captureShf (s : State) (ch coff : Nat) (poisoned : Bool) : State :=
  if s.fbit (shfDie ch) (shfRef ch SHF_CH_ERR.VALID) then s
  else s.fsets (shfDie ch)
    [(shfRef ch SHF_CH_ERR.VALID, 1), (shfRef ch SHF_CH_ERR.POISONED, b2n poisoned), (shfRef ch SHF_CH_ERR.LINE, coff / 64)]

/-- May a channel serve: initialised, and not down (R346, R361)? -/
def State.chOpen (s : State) (ch : Nat) : Bool := s.chState ch = 1

/-- A line read from a channel: its bytes, and whether they are poisoned (R345, R346). -/
def State.shelfRead (s : State) (ch coff : Nat) : List Byte × Bool × State :=
  if !s.chOpen ch then (List.replicate 64 0, true, s)
  else
    let l := coff / 64 % 4
    let gone := (List.range 36).filter (fun p => s.erasedPin ch = some (symPin l p))
    let (w, o) := readCodeword gf16 4 shelfMask (s.shelfWord ch coff) gone
    let s := s.pmuEvent (shfDie ch) 0x206 1
    let bs := (symsLine (w.take 32)).map (BitVec.ofNat 8)
    match o with
    | .clean => (bs, false, s)
    | .corrected ps =>
      (bs, false, ((ps.map (symPin l)).dedup).foldl (fun t p => t.notePin ch p)
        (s.finc (shfDie ch) (shfRef ch SHF_CH_CNT.CORR_CNT)))
    | .poisoned =>
      (bs, true, ((s.finc (shfDie ch) (shfRef ch SHF_CH_CNT.POISON_CNT)).captureShf ch coff true).logErr (shfDie ch) 2 0x09
        ch 0x2 coff)
    | .uncorrectable =>
      -- until the rewrite completes, a further read is reported and not counted again (R165)
      if s.shelfRewrite.contains (shelfKey ch coff) then (bs, true, s.captureShf ch coff false)
      else
        let s1 := ((s.finc (shfDie ch) (shfRef ch SHF_CH_CNT.UNCORR_CNT)).captureShf ch coff false).logErr (shfDie ch) 2
          0x09 ch 0x1 coff
        (bs, true, { s1 with shelfRewrite := s1.shelfRewrite ++ [shelfKey ch coff] })

/-- Bytes merged under a mask. -/
def mergeMask (old new : List Byte) (mask : Nat) : List Byte :=
  old.zipIdx.map (fun p => if mask / 2 ^ p.2 % 2 = 1 then new.getD p.2 0 else p.1)

def fullLine : Nat := 2 ^ 64 - 1

/-- The oldest line that a read of a Q-die's channel found uncorrectable is rewritten in poisoned form (R165, R345). -/
def State.shelfPoison (s : State) (ch : Nat) : State :=
  match s.shelfRewrite.find? (fun k => k / 2 ^ 35 = ch) with
  | none => s
  | some k => if s.chOpen ch then s.shelfStore ch (k % 2 ^ 35) (memReadN s.shelf k 64) true else s

/-- A line written to a channel under a byte mask (R345, R346). Before its first initialisation a channel discards the write (R361); a channel
that is down records that it does. -/
def State.shelfWrite (s : State) (ch coff : Nat) (dat : List Byte) (mask : Nat) (poison : Bool) : State :=
  if !s.chOpen ch then (if s.chState ch = 3 then s.logErr (shfDie ch) 2 0x09 ch 0x6 coff else s)
  else if mask = fullLine then (s.pmuEvent (shfDie ch) 0x207 1).shelfStore ch coff dat poison
  else
    let (old, bad, t) := s.shelfRead ch coff
    (t.pmuEvent (shfDie ch) 0x207 1).shelfStore ch coff (mergeMask old dat mask) (bad || poison)

/-! ## Placement -/

/-- d of R347. -/
def State.direct (s : State) : Nat := s.fget shDie SHF_SPLIT.DIRECT

/-- r of R349. -/
def State.reserve (s : State) : Nat := s.fget shDie TDL_CFG.RESERVE

/-- Channel and offset of a direct-window offset (R347). -/
def directPlace (d x : Nat) : Nat × Nat :=
  let half := d * 0x800000000
  let q := if x < half then 0 else 1
  let dq := x - q * half
  (32 * q + dq / 256 % 32, dq / 8192 * 256 + dq % 256)

/-- Channel and offset of byte `b` of pool slot `n` (R348). -/
def poolPlace (d n b : Nat) : Nat × Nat := (b / 256 % 64, d * 2 ^ 30 + n * 2 ^ 15 + b / 2 ^ 14 * 256 + b % 256)

/-- Die and die offset of reserve slot `n`; slot 2,048r is the spare (R349; the order of the slots is log entry 14). -/
def reservePlace (r n : Nat) : Nat × Nat :=
  if n < 2048 * r then (n / (512 * r), 2 ^ 37 - r * 2 ^ 30 + n % (512 * r) * 2 ^ 21)
  else (0, 2 ^ 37 - r * 2 ^ 30 - 2 ^ 21)

/-- First die offset of a die's share of the reserve. -/
def reserveBase (r die : Nat) : Nat :=
  if r = 0 then 2 ^ 37 else 2 ^ 37 - r * 2 ^ 30 - (if die = 0 then 2 ^ 21 else 0)

/-- Where the memory of a line stands. -/
inductive Place where
  | stack (die off : Nat)
  | shelf (ch coff : Nat)
  | host (q : Nat)
  | nowhere
  deriving DecidableEq, Repr

def slotPlace (d r : Nat) (sl : Slot2M) (b : Nat) : Place :=
  match sl with
  | .pool n => let p := poolPlace d n b; .shelf p.1 p.2
  | .reserve n => let p := reservePlace r n; .stack p.1 (p.2 + b)

/-- Pages that exist (R350). -/
def State.pageCount (s : State) : Nat := (16 - s.direct) * 32768 + 2048 * s.reserve

/-- Where a local address of a coherent or non-coherent class stands (R270, R347 to R350); `nowhere` for reserved and
unpopulated addresses (R220). -/
def State.placeOfAddr (s : State) (a : Nat) : Place :=
  match regionOf a with
  | .stack die o => if o < reserveBase s.reserve die then .stack die o else .nowhere
  | .shelf x => if x < s.direct * 2 ^ 36 then (let p := directPlace s.direct x; .shelf p.1 p.2) else .nowhere
  | .tidal x =>
    match mapFind s.remap (x / 2 ^ 21) with
    | some p => if x / 2 ^ 21 < s.pageCount then slotPlace s.direct s.reserve p.slot (x % 2 ^ 21) else .nowhere
    | none => .nowhere
  | .host q _ => if s.fbit (4 + q) HPU_STATUS.IN_SERVICE then .host q else .nowhere
  | _ => .nowhere

/-- A home: a vault, a Shelf channel group, the proxy of a host port, or none (R270). -/
inductive Home where
  | vault (die v : Nat)
  | group (g : Nat)
  | proxy (q : Nat)
  | none
  deriving DecidableEq, Repr

def State.homeOf (s : State) (line : Nat) : Home :=
  match s.placeOfAddr (line * 64) with
  | .stack die o => .vault die (stackLoc (s.share die) o).1
  | .shelf ch _ => .group (ch / 8)
  | .host q => .proxy q
  | .nowhere => .none

/-- The die that holds a home. -/
def Home.die : Home → Nat
  | .vault d _ => d
  | .group g => 4 + g / 4
  | .proxy q => 4 + q
  | .none => 4

/-! ## Lines at their home -/

/-- A line read at its home. -/
def State.memLine (s : State) (line src : Nat) : List Byte × Bool × State :=
  match s.placeOfAddr (line * 64) with
  | .stack die o => s.stackRead die o 64 src
  | .shelf ch coff => s.shelfRead ch coff
  | .host _ =>
    match mapFind s.hostLines line with
    | some h => (h.data, h.poison, s)
    | none => (List.replicate 64 0, true, s)
  | .nowhere => (List.replicate 64 0, true, s)

/-- A line written at its home under a byte mask. A host line of which no copy is kept goes straight to the host (R438). -/
def State.memPut (s : State) (line : Nat) (dat : List Byte) (mask : Nat) (poison : Bool) (src : Nat) : State :=
  if mask = 0 then s
  else match s.placeOfAddr (line * 64) with
  | .stack die o =>
    let (v, voff) := stackLoc (s.share die) o
    s.dynWriteM die v (voff / 128) (voff % 128) dat ((List.range 64).map (fun i => mask / 2 ^ i % 2 = 1)) poison src
  | .shelf ch coff => s.shelfWrite ch coff dat mask poison
  | .host _ =>
    match mapFind s.hostLines line with
    | some h =>
      if h.lent then
        ({ s with hostLines := mapErase s.hostLines line }).emit (.hostData line dat mask)
      else
        let h' : HostLine :=
          { h with data := mergeMask h.data dat mask, poison := poison || (h.poison && mask ≠ fullLine), dirty := true }
        { s with hostLines := mapSet s.hostLines line h' }
    | none => s
  | .nowhere => s

/-! ## Poisoned rewrites -/

/-- POISON_REWRITE (R165, R345): the oldest block that a read found uncorrectable is rewritten in poisoned form; of a Q-die, the oldest line of
one of its Shelf channels. -/
def effPoisonRewrite (die v : Nat) (s : State) : State :=
  if isQ die then (if v < 32 && s.dieUp die then s.shelfPoison (32 * (die - 4) + v) else s)
  else
    match (s.vault die v).rewrite with
    | [] => s
    | b :: _ =>
      if !s.vaultFree die v then s
      else
        let qs := ((s.vault die v).rewrite.filter (fun x => x / 4 = b / 4)).map (· % 4)
        s.poisonBlock die v (b / 4) qs

/-- POISON_REWRITE (R165). -/
def execPoisonRewrite (die v : Nat) (s : State) : Host.Outcome State Fault Refusal :=
  s.commit (effPoisonRewrite die v s)

end Sys2Proof.Machine
end

