-- ==== Sys2Proof/Machine/Routes.lean ====
section
/-!
DEFINITION. The ways of dynamic messages: the state of Jetty links, paths between dies (R17, R252), the sub-channel and the edge
routers of a message (R247), its XY or YX route in each C-die (R242), and its arrival port (R190).
-/
namespace Sys2Proof.Machine

/-! ## Links -/

/-- JTY_STATUS.STATE codes (R263). -/
def jDOWN : Nat := 0
def jALIGNING : Nat := 1
def jUP : Nat := 2
def jFAILED : Nat := 3

/-- The state of a link, seen from a die's own block, or from the C-die's where the die has none. -/
def State.linkState (s : State) (a b : Nat) : Nat :=
  match linkHome a b with
  | some (d, k) => s.fget d (JTY_STATUS.STATE.inBlk k)
  | none => jDOWN

/-- Does a link carry messages: both its dies run, and it is up? Before Lighthouse starts the package no link has come up yet,
and a link that is DOWN carries what the dies send (DESIGN CHOICE, log entry 56). -/
def State.linkCarries (s : State) (a b : Nat) : Bool :=
  (linkHome a b).isSome && s.dieUp a && s.dieUp b &&
  (s.linkState a b = jUP || (s.linkState a b = jDOWN && s.power.phase ≠ .started))

/-! ## Paths between dies (R17, R252) -/

/-- The path bit of an address (R252). -/
def pathBit (a : Nat) : Nat :=
  ((List.range 6).filter (fun i => a / 2 ^ (8 + i) % 2 = 1)).length % 2

/-- The minimal path from a die to another with a path bit, both ends in it (R17, R252). -/
def minPath (b path : Nat) : Nat → Nat → List Nat
  | 0, a => [a]
  | k + 1, a => if a = b then [a] else a :: minPath b path k (nextDie a b path)

/-- Does every link of a path carry messages? -/
def State.pathUp (s : State) : List Nat → Bool
  | a :: b :: rest => s.linkCarries a b && s.pathUp (b :: rest)
  | _ => true

/-- Paths one link longer than those given, each without a die twice. -/
def longerPaths (ps : List (List Nat)) : List (List Nat) :=
  ps.flatMap (fun p => ((jtyPeers (p.getLast?.getD 0)).filter (fun d => !p.contains d)).map (fun d => p ++ [d]))

/-- The shortest path that survives, of at most `k` links more; of several of one length, the one through the dies with the lower
numbers (DESIGN CHOICE, log entry 56). -/
def State.shortest (s : State) (b : Nat) : Nat → List (List Nat) → Option (List Nat)
  | 0, _ => none
  | k + 1, ps =>
    let live := ps.filter s.pathUp
    match live.find? (fun p => p.getLast? = some b) with
    | some p => some p
    | none => s.shortest b k (longerPaths live)

/-- The path of a message from a die to another: the minimal path that its path bit chooses, else the other minimal one, else the
shortest that survives; none where the dies are cut off from each other (R252). -/
def State.diePath (s : State) (a b path : Nat) : Option (List Nat) :=
  if a = b then some [a]
  else
    let p := minPath b path 4 a
    let p' := minPath b (1 - path) 4 a
    if s.pathUp p then some p
    else if p'.length = p.length && s.pathUp p' then some p'
    else s.shortest b 6 [[a]]

/-! ## Through the C-dies (R242, R247) -/

/-- The edge of a C-die that faces another die: 0 north, 1 east, 2 south, 3 west (R247). -/
def edgeTo (a b : Nat) : Nat :=
  match a, b with
  | 0, 4 | 1, 4 | 2, 0 | 3, 1 => 0
  | 0, 1 | 2, 3 => 1
  | 0, 2 | 1, 3 | 2, 5 | 3, 5 => 2
  | _, _ => 3

/-- The edge router at a position (R247). -/
def edgeRouter (edge pos : Nat) : Nat :=
  match edge with
  | 0 => pos
  | 1 => 8 * pos + 7
  | 2 => 56 + pos
  | _ => 8 * pos

/-- The position of a router on an edge of its die (R247). -/
def edgePos (edge router : Nat) : Nat := if edge = 0 || edge = 2 then router % 8 else router / 8

/-- The sub-channel of a message from router `ra` of the first die of its path to router `rb` of the last (R247). The spec gives none
for a message from one Q-die to the other. -/
def subChannel (path : List Nat) (ra rb : Nat) : Nat :=
  match path, path.getLast? with
  | a :: b :: _, some z => if isC a then edgePos (edgeTo a b) ra else if isC z then rb % 8 else Config.qSub a z % 8
  | _, _ => 0

/-- What a message crosses of one C-die: the die, the router at which it enters or starts, and the one at which it leaves or ends. -/
abbrev Leg := Nat × Nat × Nat

/-- The legs of a path, from router `r` of its first die to router `rb` of its last (R247). -/
def pathLegs (sub rb : Nat) : Nat → List Nat → List Leg
  | r, d :: n :: rest =>
    (if isC d then [(d, r, edgeRouter (edgeTo d n) sub)] else []) ++ pathLegs sub rb (edgeRouter (edgeTo n d) sub) (n :: rest)
  | r, [d] => if isC d then [(d, r, rb)] else []
  | _, [] => []

/-- The link directions of a YX route: along the column to the row, then along the row (R242). -/
def routeYX (a b : Nat) : List (Nat × Nat) :=
  let corner := 8 * (b / 8) + a % 8
  routeXY a corner ++ routeXY corner b

/-- Is some link direction of a die down (R262)? -/
def State.anyDown (s : State) (die : Nat) : Bool := (List.range 4).any (fun i => s.rd die 0x280 (0x020 + 8 * i) ≠ 0)

/-- Must a message turn from the XY route of a leg (R242)? -/
def State.legTurns (s : State) (l : Leg) : Bool := s.anyDown l.1 && (routeXY l.2.1 l.2.2).any (s.linkDown l.1)

/-- Do both routes of a leg cross a link direction that is down (R242)? -/
def State.legCut (s : State) (l : Leg) : Bool := s.legTurns l && (routeYX l.2.1 l.2.2).any (s.linkDown l.1)

/-- The route that a message takes through a leg (R242). -/
def State.legRoute (s : State) (l : Leg) : List (Nat × Nat) :=
  if s.legTurns l then routeYX l.2.1 l.2.2 else routeXY l.2.1 l.2.2

/-- The legs of a message from router `ra` of a die to router `rb` of another; none where no path is left (R247, R252). -/
def State.way (s : State) (a ra b rb path : Nat) : Option (List Leg) :=
  (s.diePath a b path).map (fun p => pathLegs (subChannel p ra rb) rb ra p)

/-- Is a message refused on its way, since a leg is cut (R242)? -/
def State.wayCut (s : State) (w : Option (List Leg)) : Bool := (w.getD []).any s.legCut

/-- Does a message get through: a path is left, and no leg is cut? -/
def State.wayOpen (s : State) (w : Option (List Leg)) : Bool := w.isSome && !s.wayCut w

/-- A message sent on a way counts in REROUTE_CNT of each die where it takes its YX route, or is not sent (R242, R260). -/
def State.countWay (s : State) (w : Option (List Leg)) : State :=
  ((w.getD []).filter s.legTurns).foldl (fun t l => t.finc l.1 SWL_CNT.REROUTE_CNT) s

/-- The port by which a message enters its last router: 1 north, 2 east, 3 south, 4 west; 0 where it starts there. A message that
enters its die at that router comes by the off-grid port that faces the link (R190, R247). -/
def State.arrivalPort (s : State) (a ra b rb path : Nat) : Nat :=
  match s.diePath a b path with
  | none => 0
  | some p =>
    let legs := pathLegs (subChannel p ra rb) rb ra p
    match legs.getLast? with
    | none => 0
    | some l =>
      match (s.legRoute l).getLast?, p.dropLast.getLast? with
      | some x, _ => 1 + (x.2 + 2) % 4
      | none, some prev => 1 + edgeTo b prev
      | none, none => 0

/-! ## Messages about a line -/

/-- The die and the router of an agent of R269 that asks for a line of a home: the caches of the C-dies have no stated router. The
host and the companions enter at the Q-die of the home's half (DESIGN CHOICE, log entry 56). -/
def agentSeat (agent : Nat) (h : Home) : Nat × Nat :=
  if agent < 2 then (4 + agent, 0)
  else if agent < 6 then (agent - 2, Config.rlcRouter (agent - 2) % 64)
  else if isC h.die then (qOf h.die, 0)
  else (h.die, 0)

/-- The die and the router of a home. -/
def Home.seat : Home → Nat × Nat
  | .vault d v => (d, v)
  | h => (h.die, 0)

/-- The way of a message about a line between an agent and its home. -/
def State.lineWay (s : State) (agent line : Nat) (toAgent : Bool) : Option (List Leg) :=
  let h := s.homeOf line
  let a := agentSeat agent h
  let b := h.seat
  if toAgent then s.way b.1 b.2 a.1 a.2 (pathBit (line * 64)) else s.way a.1 a.2 b.1 b.2 (pathBit (line * 64))

/-- The way of an engine at a die and router to the home of a local address, or to a slab or stream buffer. -/
def State.engineWay (s : State) (die router a : Nat) : Option (List Leg) :=
  match regionOf a with
  | .slab d core _ => s.way die router d core (pathBit a)
  | .sbuf d _ => s.way die router d 0 (pathBit a)
  | .stack .. | .shelf _ | .tidal _ | .host .. =>
    let b := (s.homeOf (a / 64)).seat
    s.way die router b.1 b.2 (pathBit a)
  | _ => some []

/-- An engine's request toward a local address: none where no path is left and it waits, else whether it is sent, counted where it turns or
is not (R242, R252, R256). -/
def State.engineReach (s : State) (die router a : Nat) : Option (Bool × State) :=
  let w := s.engineWay die router a
  if w.isNone then none else some (!s.wayCut w, s.countWay w)

end Sys2Proof.Machine
end

