-- ==== Sys2Proof/Machine/Coherence.lean ====
section
/-!
DEFINITION. The coherence protocol (chapter 10): homes and their directory, the messages of R279, caches that answer
snoops and take data, and the accesses of engines, which take their snoops at once.
-/
namespace Sys2Proof.Machine

/-! ## Messages -/

/-- A message with no data. -/
def mkMsg (k : MsgKind) (agent line : Nat) : Msg :=
  { kind := k, agent := agent, line := line, data := [], mask := 0, poison := false, keepS := false, tag := 0 }

/-- The place of a message's class in the order DAT, RSP, WBK, SNP, REQ (R280). -/
def MsgKind.rank : MsgKind → Nat
  | .datS | .datE | .datNc => 0
  | .grantE | .cmp | .wback | .rspI | .rspS | .rspIWb => 1
  | .wb | .wbSnp | .evict => 2
  | .snpDown | .snpInv => 3
  | .rdS | .rdE | .rdNc | .wrInv | .wrWt => 4

/-- Does a message go from a home to an agent (R279)? -/
def MsgKind.toAgent : MsgKind → Bool
  | .datS | .datE | .datNc | .grantE | .cmp | .wback | .snpDown | .snpInv => true
  | _ => false

/-- A message leaves; one that takes a YX route, or finds no route, is counted (R242). -/
def State.send (s : State) (m : Msg) : State :=
  { s with net := s.net ++ [m], regs := (s.countWay (s.lineWay m.agent m.line m.kind.toAgent)).regs }

/-- Do an agent and the home of a line reach each other, in both directions (R242, R252)? -/
def State.lineReach (s : State) (agent line : Nat) : Bool :=
  s.wayOpen (s.lineWay agent line false) && s.wayOpen (s.lineWay agent line true)

/-- The oldest message of a kind, agent and line on its way. -/
def State.anyMsg (s : State) (k : MsgKind) (agent line : Nat) : Option (Msg × State) :=
  match takeFirst (fun m => m.kind = k && m.agent = agent && m.line = line) s.net with
  | some (m, rest) => some (m, { s with net := rest })
  | none => none

/-- Must what is written back to a line wait for its vault (R85, R161, R173, R175)? -/
def State.vaultWait (s : State) (line : Nat) : Bool :=
  match s.homeOf line with
  | .vault d v => s.dieUp d && !s.vaultFree d v
  | _ => false

/-- Does an earlier message about the line hold a message back: one between the same two parties, of the same class or of a
class that R280 lists before it? It may overtake the others (R252, R280, R284; log entry 23). Data for a stack home also wait until
the vault takes a dynamic access (R161), and any message until it finds its way (R252). -/
def State.heldBack (s : State) (k : MsgKind) (agent line : Nat) : Bool :=
  ((s.net.filter (fun m => m.agent = agent && m.line = line && m.kind.toAgent = k.toAgent)).takeWhile
    (fun m => m.kind ≠ k)).any (fun m => m.kind.rank ≤ k.rank) || ((k = .wb || k = .wbSnp) && s.vaultWait line) ||
  !s.wayOpen (s.lineWay agent line k.toAgent)

/-- The oldest message of a kind, agent and line, where nothing holds it back. -/
def State.takeMsg (s : State) (k : MsgKind) (agent line : Nat) : Option (Msg × State) :=
  if s.heldBack k agent line then none else s.anyMsg k agent line

/-- The agent number of an engine whose snoops are taken at once; a home answers it with nothing. -/
def engAgent : Nat := 9

/-- Is an agent of R269 modelled here (SLC or RLC), rather than the host or a companion? -/
def isCacheAgent (a : Nat) : Bool := a < 6

/-- The die of a cache: 4 and 5 for the SLCs, 0 to 3 for the RLCs (R287). -/
def cacheDie (agent : Nat) : Nat := if agent < 2 then 4 + agent else agent - 2

/-- The agent of a die's cache. -/
def dieAgent (die : Nat) : Nat := if isC die then die + 2 else die - 4

def Cache.empty : Cache := { lines := [], side := [], merge := [], wb := [], streams := [], tick := 0, rng := none, outs := [] }

def State.cache (s : State) (a : Nat) : Cache := mapGet Cache.empty s.caches a

def State.updCache (s : State) (a : Nat) (f : Cache → Cache) : State :=
  { s with caches := mapSet s.caches a (f (s.cache a)) }

def State.cacheRef (_ : State) (a : Nat) (f : FieldRef) : FieldRef := f.inBlk (cacheBlk (cacheDie a))

def State.cacheOn (s : State) (a : Nat) : Bool := s.fbit (cacheDie a) (s.cacheRef a CACHE_CTRL.ENABLE)

/-! ## The directory -/

def bitOf (v a : Nat) : Bool := v / 2 ^ a % 2 = 1
def setBit (v a : Nat) : Nat := if bitOf v a then v else v + 2 ^ a
def clrBit (v a : Nat) : Nat := if bitOf v a then v - 2 ^ a else v
def agentsOf (v : Nat) : List Nat := (List.range 9).filter (bitOf v)

/-- The set of a line at its home (R273, R275). -/
def State.dirSet (s : State) (line : Nat) : Nat :=
  match s.placeOfAddr (line * 64) with
  | .stack die o => (stackLoc (s.share die) o).2 / 64 % 32768
  | .shelf _ _ => line % 16384
  | .host _ => line % 4096
  | .nowhere => 0

/-- The generation that an area's header holds (R274). -/
def State.areaGen (s : State) (die v : Nat) : Nat :=
  leNat ((s.readBlock die v ((s.areaBase die v + 0x8000) / 128) srcDynamic).1.bytes.take 8)

/-- The directory generation of the package (R305). -/
def State.dirGen (s : State) : Nat := (s.rd shDie 0x180 0x038).toNat

/-- A home's directory is in use: it grants caching (R274, R179). -/
def State.grants (s : State) (h : Home) : Bool :=
  s.dirGen ≠ 0 &&
  (match h with
   | .vault die v => s.hasDir die v && s.vState die v ≠ vFENCED && s.vState die v ≠ vUNINIT && !(s.vault die v).walking
   | .none => false
   | _ => true)

/-- The entries of one home. -/
def State.dirOf (s : State) (h : Home) : List (Nat × DirEnt) := s.dir.filter (fun e => s.homeOf e.1 = h)

/-- GEN_OK (R306): the header matches PKG_DIRGEN, and the home grants caching. -/
def State.genOk (s : State) (die v : Nat) : Bool := s.grants (.vault die v) && s.areaGen die v = s.dirGen

/-- An entry as its 8 B word (R272). -/
def DirEnt.word (e : DirEnt) (tag : Nat) : Nat := 2 ^ 63 + b2n e.owned * 2 ^ 62 + e.sharers % 512 * 2 ^ 32 + tag % 2 ^ 32

/-- The TAG of a line at its home (R272, R273, R275). -/
def State.dirTag (s : State) (line : Nat) : Nat :=
  match s.placeOfAddr (line * 64) with
  | .stack die o => (stackLoc (s.share die) o).2 / 2 ^ 21 % 2 ^ 10
  | .shelf _ _ => line / 16384
  | .host _ => line / 4096
  | .nowhere => 0

/-- The block of a vault that holds a set of its directory (R273). -/
def State.dirBlock (s : State) (die v set : Nat) : Nat := (s.areaBase die v - 4 * 2 ^ 20) / 128 + set

/-- The entries that the area of a vault holds in a set: line and entry (R272, R273). -/
def State.dirSetOf (s : State) (die v set : Nat) : List (Nat × DirEnt) :=
  let bs := (s.readBlock die v (s.dirBlock die v set) srcDynamic).1.bytes
  (List.range 16).filterMap (fun w =>
    let x := leNat ((bs.drop (8 * w)).take 8)
    if x / 2 ^ 63 = 0 then none
    else some ((die * 2 ^ 37 + stackOff (s.share die) v (x % 2 ^ 10 * 2 ^ 21 + set * 64)) / 64,
      ⟨x / 2 ^ 62 % 2 = 1, x / 2 ^ 32 % 512, w⟩))

/-- Do the entries of State stand for a home's directory? A vault's do from its first coherent request on (R274). -/
def State.dirLive (s : State) : Home → Bool
  | .vault die v => (s.vault die v).dirOn && s.hasDir die v
  | _ => true

/-- Before a home serves the first coherent request after its area was set, the header is compared: the entries of an area of this
generation are used, and another area is cleared by ROWFILL and headed anew (R274). -/
def State.dirPrepare (s : State) (h : Home) : State :=
  match h with
  | .vault die v =>
    if !s.grants h || s.dirLive h then s
    else
      let s0 := ({ s with dir := s.dir.filter (fun e => s.homeOf e.1 ≠ h) }).updVault die v (fun x => { x with dirOn := true })
      if s.areaGen die v = s.dirGen then
        foldN 32768 (fun t set =>
          (s.dirSetOf die v set).foldl (fun u e => { u with dir := mapSet u.dir e.1 e.2 }) t) s0
      else
        let s1 := s0.zeroBlocks die v (s0.dirBlock die v 0) 32768
        let head := leBytes 8 s1.dirGen ++ List.replicate 120 (0 : Byte)
        s1.writeBlock die v ((s1.areaBase die v + 0x8000) / 128) head (List.replicate 4 false)
  | _ => s

/-- A directory lookup counted: a stack home reads the set from its area unless it is one of the 1,024 sets that its SRAM
used last (R273, R306); a Shelf group and a home proxy
count every lookup (R362, R458). -/
def State.countLookup (s : State) (h : Home) (line : Nat) : State :=
  match h with
  | .vault die v =>
    let k := vaultKey die v
    let set := s.dirSet line
    let held := mapGet [] s.dirSram k
    let s1 := { s with dirSram := mapSet s.dirSram k ((set :: held.filter (· ≠ set)).take 1024) }
    if held.contains set then s1 else s1.finc die (MFS_DIR_CNT.LOOKUP_MISS.unit v)
  | .group g => (s.finc (4 + g / 4) (SHF_DIR_CNT.LOOKUP_CNT.plus (8 * (g % 4)))).pmuEvent (4 + g / 4) 0x205 1
  | .proxy q => s.finc (4 + q) HPU_DIR_CNT.LOOKUP_CNT
  | .none => s

/-- A directory eviction counted (R276). -/
def State.countDirEvict (s : State) (h : Home) : State :=
  match h with
  | .vault die v => s.finc die (MFS_DIR_CNT.EVICT_CNT.unit v)
  | .group g => s.finc (4 + g / 4) (SHF_DIR_CNT.EVICT_CNT.plus (8 * (g % 4)))
  | .proxy q => s.finc (4 + q) HPU_DIR_CNT.EVICT_CNT
  | .none => s

/-- The ways of a line's set in use: line and entry. -/
def State.setEntries (s : State) (h : Home) (line : Nat) : List (Nat × DirEnt) :=
  (s.dirOf h).filter (fun e => s.dirSet e.1 = s.dirSet line)

/-- The entry to evict from a full set: the lowest way that is not owned, else the lowest way (R276). -/
def dirVictim (es : List (Nat × DirEnt)) : Option Nat :=
  let low := fun (l : List (Nat × DirEnt)) => l.foldl (fun acc e =>
    match acc with
    | none => some e
    | some x => if e.2.way < x.2.way then some e else some x) (none : Option (Nat × DirEnt))
  match low (es.filter (fun e => !e.2.owned)) with
  | some e => some e.1
  | none => (low es).map (·.1)

/-- A set of a vault's directory written through to its area (R273). -/
def State.dirThrough (s : State) (line : Nat) : State :=
  match s.homeOf line with
  | .vault die v =>
    if !s.dirLive (.vault die v) then s
    else
      let es := s.setEntries (.vault die v) line
      let word := fun (w : Nat) =>
        match es.find? (fun e => e.2.way = w) with
        | some e => leBytes 8 (e.2.word (s.dirTag e.1))
        | none => List.replicate 8 (0 : Byte)
      s.writeBlock die v (s.dirBlock die v (s.dirSet line)) ((List.range 16).flatMap word) (List.replicate 4 false)
  | _ => s

/-- The lowest free way of a line's set; a request that fills a set finds one, since it keeps a way from its start on (R276). -/
def State.freeWay (s : State) (line : Nat) : Nat :=
  let used := (s.setEntries (s.homeOf line) line).map (fun e => e.2.way)
  ((List.range 16).find? (fun w => !used.contains w)).getD 0

/-- An entry set, in its own way or the lowest free one; an entry without sharers is removed. A home without a directory keeps none
(R274). -/
def State.setDir (s : State) (line : Nat) (owned : Bool) (sharers : Nat) : State :=
  if sharers = 0 then
    (if (mapFind s.dir line).isSome then ({ s with dir := mapErase s.dir line }).dirThrough line else s)
  else if !s.dirLive (s.homeOf line) then s
  else
    let way :=
      match mapFind s.dir line with
      | some e => e.way
      | none => s.freeWay line
    let e : DirEnt := ⟨owned, sharers, way⟩
    ({ s with dir := mapSet s.dir line e }).dirThrough line

/-- An agent removed from an entry (WB, EVICT, R282). -/
def State.dropSharer (s : State) (line agent : Nat) : State :=
  if !s.dirLive (s.homeOf line) then s
  else match mapFind s.dir line with
  | some e => if bitOf e.sharers agent then s.setDir line false (clrBit e.sharers agent) else s
  | none => s

/-! ## Hart copies -/

/-- The key of a line's hart copies on a Q-die. -/
def l1Key (agent line : Nat) : Nat := agent * 2 ^ 40 + line

def Hart.reset : Hart :=
  { stores := [], nt := [], nextId := 0, resv := none, deferring := false, fence := none, mdrain := false, failed := 0,
    irq16 := false, mtip := false, stopping := 0, wbWait := [], failing := [], hpmEvent := [], hpm := [], irq13 := false }

def State.hart (s : State) (h : Nat) : Hart := mapGet Hart.reset s.harts h
def State.updHart (s : State) (h : Nat) (f : Hart → Hart) : State := { s with harts := mapSet s.harts h (f (s.hart h)) }

/-- What a write to mhpmevent3 to mhpmevent10 leaves (R593): EVENT, THRESH, THRESH_EN and the fields of Sscofpmf in bits 63 to 58; every
other bit is WARL and reads 0. -/
def hpmWarl (w : Word) : Word := w &&& 0xFC0001FFFF00FFFF

/-- A write to mhpmevent `n` of a hart (R327, R593): those of 3 to 10 hold a selection, the others read 0. No command of the table is such a
write: instructions of a hart are beyond the package (log entry 62). -/
def State.hpmSelect (s : State) (h n : Nat) (w : Word) : State :=
  if 3 ≤ n && n ≤ 10 then s.updHart h (fun x => { x with hpmEvent := mapSet x.hpmEvent n (hpmWarl w) }) else s

/-- An event of a hart with a value (R595), counted by the Headland counters that select it: under THRESH_EN as one where the value exceeds
THRESH (R588). They do not chain; a wrap sets OF, and raises local interrupt 13 where OF was clear (R335, R593). -/
def State.hartEvent (s : State) (h code inc : Nat) : State :=
  (s.hart h).hpmEvent.foldl (fun t e =>
    let n := if bitAt e.2 40 then (if bits e.2 39 24 < inc then 1 else 0) else inc
    if bits e.2 15 0 ≠ code || code = 0 then t
    else t.updHart h (fun x =>
      let v := mapGet 0 x.hpm e.1 + n
      let wraps := decide (2 ^ 64 ≤ v)
      { x with hpm := mapSet x.hpm e.1 (v % 2 ^ 64),
               hpmEvent := if wraps then mapSet x.hpmEvent e.1 (setBits e.2 63 63 1) else x.hpmEvent,
               irq13 := x.irq13 || (wraps && !bitAt e.2 63) })) s

/-- Reservations on a line lost by the harts that `p` selects (R312). -/
def State.loseResv (s : State) (line : Nat) (p : Nat → Bool) : State :=
  { s with harts := s.harts.map (fun h =>
      if p h.1 && h.2.resv = some line then (h.1, { h.2 with resv := none, deferring := false }) else h) }

/-- A line leaves the L1 caches of a Q-die's harts: their reservations on it are lost (R312). -/
def State.dropL1 (s : State) (agent line : Nat) : State :=
  ({ s with l1 := mapErase s.l1 (l1Key agent line) }).loseResv line (fun h => h / 32 = agent)

/-- Hart copies of a line may no longer be written. -/
def State.downL1 (s : State) (agent line : Nat) : State :=
  match mapFind s.l1 (l1Key agent line) with
  | some hs => { s with l1 := mapSet s.l1 (l1Key agent line) (hs.map (fun h => (h.1, false))) }
  | none => s

/-! ## Lines held by a cache -/

/-- A line as a cache holds it, in its ways or its side buffer. -/
def State.held (s : State) (a line : Nat) : Option CLine :=
  let c := s.cache a
  match mapFind c.lines line with
  | some l => some l
  | none => (c.side.find? (fun e => e.1 = line)).map (·.2)

/-- A held line replaced; `none` drops it. -/
def State.setHeld (s : State) (a line : Nat) (l : Option CLine) : State :=
  let s1 := s.updCache a (fun c =>
    match l with
    | some x =>
      if (mapFind c.lines line).isSome then { c with lines := mapSet c.lines line x }
      else { c with side := c.side.map (fun e => if e.1 = line then (line, x) else e) }
    | none => { c with lines := mapErase c.lines line, side := c.side.filter (fun e => e.1 ≠ line) })
  s1.fset (cacheDie a) (s1.cacheRef a CACHE_STATUS.SIDE_USED) (s1.cache a).side.length

/-- A WB sent: the line stands in the write-back buffer until RSP_WBACK (R281, R284). -/
def State.sendWb (s : State) (a line : Nat) (l : CLine) : State :=
  (s.updCache a (fun c => { c with wb := mapSet c.wb line l })).send
    { mkMsg .wb a line with data := l.data, poison := l.poison, mask := fullLine }

/-- A line dropped from a cache: WB for a dirty line, EVICT for a clean one (R278). -/
def State.dropLine (s : State) (a line : Nat) : State :=
  match s.held a line with
  | none => s
  | some l =>
    let s1 := (s.setHeld a line none).dropL1 a line
    if l.st = .m then s1.sendWb a line l else s1.send (mkMsg .evict a line)

/-! ## Merging buffer -/

def State.setMerge (s : State) (a : Nat) (es : List MergeEnt) : State :=
  (s.updCache a (fun c => { c with merge := es })).fset (cacheDie a) (s.cacheRef a CACHE_STATUS.MERGE_USED) es.length

/-- Any copy that a cache holds takes a written-through store, and stands in S (R283, R290). -/
def State.updateCopy (s : State) (a line : Nat) (d : List Byte) (mask : Nat) : State :=
  match s.held a line with
  | some l =>
    let st := if l.st = .m then .m else .s
    (s.setHeld a line (some { l with st := st, data := mergeMask l.data d mask })).downL1 a line
  | none => s

/-- A write of a line sent by a cache, with the stores that its RSP_CMP performs and the harts whose merged stores it holds: what the home
grants for a request sent before it lacks its bytes. -/
def State.sendWrite (s : State) (m : Msg) (stores : List (Nat × Nat)) (harts : List Nat) : State :=
  let s1 : State := { s with mshrs := s.mshrs.map (fun (r : Mshr) =>
      if r.agent = m.agent && r.line = m.line && r.sent && !r.nc then { r with stale := true } else r) }
  let out : WriteOut := ⟨m.line, stores, harts⟩
  (s1.updCache m.agent (fun (c : Cache) => { c with outs := c.outs ++ [out] })).send m

/-- Entries that `p` selects drain oldest first, each as one WR_WT (R291). One whose line has a WB in flight stays until RSP_WBACK, since
no request for the line may leave before (R281; DESIGN CHOICE, log entry 58). -/
def State.drainMerge (s : State) (a : Nat) (p : MergeEnt → Bool) : State :=
  let es := (s.cache a).merge
  let held := fun (e : MergeEnt) => (mapFind (s.cache a).wb e.line).isSome
  let s1 := s.setMerge a ((es.filter (fun e => !p e || held e)).map (fun e => if p e then { e with due := true } else e))
  (es.filter (fun e => p e && !held e)).foldl (fun t e =>
    (t.updateCopy a e.line e.data e.mask).sendWrite { mkMsg .wrWt a e.line with data := e.data, mask := e.mask } [] e.harts) s1

/-! ## Snoops -/

/-- A cache answers a snoop (R279, R284): what it holds decides, and every hart copy follows. -/
def State.answerSnoop (s : State) (a line : Nat) (inv : Bool) : State :=
  let s0 := s.drainMerge a (fun e => e.line = line)
  if (mapFind (s0.cache a).wb line).isSome then
    (if (s0.held a line).isSome then (s0.setHeld a line none).dropL1 a line else s0).send (mkMsg .rspIWb a line)
  else match s0.held a line with
  | none => s0.send (mkMsg .rspI a line)
  | some l =>
    let s1 := if inv then (s0.setHeld a line none).dropL1 a line
      else (s0.setHeld a line (some { l with st := .s })).downL1 a line
    if l.st = .m then
      s1.send { mkMsg .wbSnp a line with data := l.data, poison := l.poison, mask := fullLine, keepS := !inv }
    else s1.send (mkMsg (if inv then .rspI else .rspS) a line)

/-- A snoop is deferred while a hart of the cache runs a constrained LR/SC loop on the line (R312). -/
def State.deferred (s : State) (a line : Nat) : Bool :=
  a < 2 && s.harts.any (fun h => h.1 / 32 = a && h.2.deferring && h.2.resv = some line)

/-! ## The attribute of an access (R225, R228) -/

/-- Marks the table of the home's own die, for a request that carries no attribute. -/
def homeTable : Nat := 7

/-- Is a line non-coherent by the table in force on a die, or on its home's (R227, R228)? -/
def State.nonCoh (s : State) (tb line : Nat) : Bool :=
  (attrIn (mapGet [] s.rat (if tb < 6 then tb else (s.homeOf line).die)) (line * 64)).1 ≠ .coherent

/-- The table that gives the attribute of an agent's requests: its die's, or its Q-die's for a companion; the host's requests carry
none (R228, R232). -/
def agentTable (agent : Nat) : Nat :=
  if agent < 6 then cacheDie agent else if agent = 7 || agent = 8 then agent - 3 else homeTable

/-- A request with the attribute that it carries. -/
def State.withClass (s : State) (tb : Nat) (m : Msg) : Msg := { m with nc := s.nonCoh tb m.line }

/-! ## Serving a request -/

/-- The answer of a home to a requester; an engine takes none. -/
def State.answer (s : State) (m : Msg) : State := if m.agent = engAgent then s else s.send m

/-- A request for a line, the least entry (R282). -/
def entryOf (s : State) (line : Nat) : DirEnt :=
  if s.dirLive (s.homeOf line) then (mapFind s.dir line).getD ⟨false, 0, 0⟩ else ⟨false, 0, 0⟩

/-- Which agents a request snoops, and whether it takes the line away (R277, R282). -/
def snoopsFor (k : MsgKind) (e : DirEnt) (agent : Nat) : List Nat × Bool :=
  let others := (agentsOf e.sharers).filter (· ≠ agent)
  match k with
  | .rdS | .rdNc => (if e.owned then others else [], false)
  | .rdE | .wrInv | .wrWt => (others, true)
  | _ => ([], true)

/-- Does a request by an agent end in a copy that the agent holds: its line is coherent, and its home grants caching (R225, R269,
R282)? -/
def State.caches_ (s : State) (m : Msg) : Bool :=
  !m.nc && s.grants (s.homeOf m.line) && (isCacheAgent m.agent || (6 ≤ m.agent && m.agent ≤ 8))

/-- Is the answer to a request an E answer, or a write (R282, R438)? -/
def State.wantsOwn (s : State) (t : Txn) : Bool :=
  let e := entryOf s t.req.line
  match t.req.kind with
  | .rdE => s.caches_ t.req
  | .wrInv | .wrWt => true
  | .rdS => s.caches_ t.req && ((agentsOf e.sharers).filter (· ≠ t.req.agent) = [] || (e.owned && !t.kept))
  | _ => false

/-- The D2H request of a proxy for a request it serves, and whether the proxy holds the line after it (R438). -/
def State.hostOp (s : State) (t : Txn) : Nat × Bool :=
  match t.req.kind with
  | .rdS | .rdE => if !s.caches_ t.req then (2, false) else if s.wantsOwn t then (1, true) else (0, true)
  | .wrInv | .wrWt =>
    if bitOf (entryOf s t.req.line).sharers t.req.agent then (1, true)
    else if t.req.mask = fullLine then (3, false) else (4, false)
  | _ => (2, false)

/-- Host data that a proxy line still needs (R270, R438): every read needs the line, an E answer or a write needs
ownership, and a copy that the proxy holds needs more than one access. -/
def State.needsHost (s : State) (line : Nat) (write hold : Bool) : Bool :=
  match s.homeOf line with
  | .proxy _ =>
    (match mapFind s.hostLines line with
     | some h => (write && !h.owned) || (hold && h.lent)
     | none => true)
  | _ => false

/-- The proxy's last agent has given a line up: it goes back to the host (R438). -/
def State.hostSettle (s : State) (line : Nat) : State :=
  match s.homeOf line, mapFind s.hostLines line with
  | .proxy _, some h =>
    if h.leaving || (mapFind s.txns line).isSome || (entryOf s line).sharers ≠ 0 then s
    else if h.lent then { s with hostLines := mapErase s.hostLines line }
    else if h.dirty then
      ({ s with hostLines := mapSet s.hostLines line { h with leaving := true } }).emit (.d2h line 5)
    else ({ s with hostLines := mapErase s.hostLines line }).emit (.d2h line 6)
  | _, _ => s

/-- A write with a package copy kept: the merged line goes to the host, and is asked for again (R438). -/
def State.hostMerged (s : State) (line : Nat) : State :=
  match s.homeOf line, mapFind s.hostLines line with
  | .proxy _, some h =>
    if h.dirty && !h.leaving && !h.lent then
      ((({ s with hostLines := mapSet s.hostLines line { h with owned := false, dirty := false } }).emit (.d2h line 5)).emit
        (.hostData line h.data fullLine)).emit (.d2h line 0)
    else s
  | _, _ => s

/-- A served request: memory is read or written, the answer leaves, and the entry is set (R282, R283). A non-coherent access changes
no entry (R229). -/
def State.serveReq (s : State) (t : Txn) : State :=
  let m := t.req
  let line := m.line
  let e := entryOf s line
  let named := bitOf e.sharers m.agent
  let caching := s.caches_ m
  match m.kind with
  | .rdS | .rdE | .rdNc =>
    let (d, p, s1) := s.memLine line srcDynamic
    let dat := fun k => { mkMsg k m.agent line with data := d, poison := p, tag := m.tag }
    let owner := (agentsOf e.sharers).filter (· ≠ m.agent)
    if m.kind = .rdNc || !caching then
      let s2 := s1.answer (dat .datNc)
      if !m.nc && m.kind = .rdNc && e.owned && owner ≠ [] then
        (if t.kept then s2.setDir line false e.sharers else s2.setDir line false 0) else s2
    else if m.kind = .rdS then
      if owner = [] || (e.owned && !t.kept) then (s1.answer (dat .datE)).setDir line true (2 ^ m.agent)
      else (s1.answer (dat .datS)).setDir line false (setBit e.sharers m.agent)
    else
      let ans := if named && !e.owned then mkMsg .grantE m.agent line else dat .datE
      (s1.answer { ans with tag := m.tag }).setDir line true (2 ^ m.agent)
  | .wrInv | .wrWt =>
    let s1 := (s.memPut line m.data m.mask m.poison srcDynamic).answer { mkMsg .cmp m.agent line with tag := m.tag }
    let s2 := s1.loseResv line (fun x => x / 32 ≠ m.agent || m.kind = .wrInv)
    if m.nc then s2
    else if named then s2.setDir line (m.kind = .wrInv && e.owned) (2 ^ m.agent) else s2.setDir line false 0
  | _ => s.setDir line false 0

/-- Does a request write at the home? -/
def isWriteKind (k : MsgKind) : Bool := k = .wrInv || k = .wrWt

/-- The end of a served request. What a proxy has for one access of an engine waits for that access. -/
def State.finishReq (s : State) (t : Txn) : State :=
  let s1 := s.serveReq t
  if t.req.agent = engAgent then s1
  else if isWriteKind t.req.kind then (s1.hostMerged t.req.line).hostSettle t.req.line else s1.hostSettle t.req.line

/-- A transaction proceeds: it ends once no snoop response and no WB is awaited and the host's data are there. -/
def State.advance (s : State) (line : Nat) : State :=
  match mapFind s.txns line with
  | none => s
  | some t =>
    if t.snoops ≠ [] || t.wbp ≠ [] then s
    else if t.evicts then (({ s with txns := mapErase s.txns line }).setDir line false 0).hostSettle line
    else if s.needsHost line (s.wantsOwn t) (s.hostOp t).2 then
      if t.hostWait then s
      else ({ s with txns := mapSet s.txns line { t with hostWait := true } }).emit (.d2h line (s.hostOp t).1)
    else ({ s with txns := mapErase s.txns line }).finishReq t

/-- Snoops sent for a transaction (R282): the host is reached by back-invalidate, a companion by its protocol. -/
def State.sendSnoops (s : State) (line : Nat) (as : List Nat) (inv : Bool) : State :=
  as.foldl (fun t a => t.send (mkMsg (if inv then .snpInv else .snpDown) a line)) s

/-- A request refused for its address (R220). -/
def State.noHome (s : State) (m : Msg) : State := s.emit (.noHome m.agent (m.line * 64))

/-- A home takes up a request for a line that no other request holds (R274, R276, R281, R282). A non-coherent request neither looks the
line up nor snoops for it (R225). -/
def State.startReq (s : State) (m : Msg) : State :=
  let h := s.homeOf m.line
  match h with
  | .none => s.noHome m
  | _ =>
    let s1 := if m.nc then s else (s.dirPrepare h).countLookup h m.line
    let e := entryOf s1 m.line
    let fills := (m.kind = .rdS || m.kind = .rdE) && s1.caches_ m
    -- a request in progress that fills the set keeps one of its ways
    let kept := s1.txns.filter (fun t => !t.2.evicts && (t.2.req.kind = .rdS || t.2.req.kind = .rdE) && s1.caches_ t.2.req &&
      (entryOf s1 t.1).sharers = 0 && s1.homeOf t.1 = h && s1.dirSet t.1 = s1.dirSet m.line)
    if fills && e.sharers = 0 && 16 ≤ (s1.setEntries h m.line).length + kept.length then
      -- a full set: its victim is recalled first, and the request waits (R276)
      match dirVictim (s1.setEntries h m.line) with
      | none => { s1 with waitq := m :: s1.waitq }
      | some vl =>
        let s2 := { s1 with waitq := m :: s1.waitq }
        if (mapFind s2.txns vl).isSome then s2
        else
          let as := agentsOf (entryOf s2 vl).sharers
          let tx : Txn := ⟨mkMsg .evict engAgent vl, as, [], [], false, true, false⟩
          (({ s2 with txns := mapSet s2.txns vl tx }).countDirEvict h).sendSnoops vl as true
    else
      let (as, inv) := if m.nc then ([], false) else snoopsFor m.kind e m.agent
      let tx : Txn := ⟨m, as, [], [], false, false, false⟩
      (({ s1 with txns := mapSet s1.txns m.line tx }).sendSnoops m.line as inv).advance m.line

/-- Does a host port carry CXL.cache requests: its die runs, and its link is up with CXL.cache enabled and no self-reset
(R440, R447)? -/
def State.hostUp (s : State) (q : Nat) : Bool :=
  s.dieUp (4 + q) && s.fget (4 + q) HPU_STATUS.LINK = 2 && s.fbit (4 + q) HPU_STATUS.CACHE_EN &&
  !s.fbit (4 + q) HPU_STATUS.RESETTING

/-- Does a home answer: its die runs, and a proxy reaches its host with the line not on its way there? -/
def State.homeUp (s : State) (line : Nat) : Bool :=
  match s.homeOf line with
  | .proxy q => s.hostUp q &&
    (match mapFind s.hostLines line with
     | some h => !h.leaving
     | none => true)
  | h => s.dieUp h.die

/-- Is a line's home out of reach: its die is stopped, or its host port's link is down or in reset (R256, R440)? -/
def State.homeStopped (s : State) (line : Nat) : Bool :=
  match s.homeOf line with
  | .proxy q => !s.hostUp q
  | h => !s.dieUp h.die

/-- May a home take a request up now: its die runs and the requester reaches it, its vault has time for it, no request holds the line, no walk, sweep or migration
holds it back, and no stroke of a Glaze unit holds it (R161, R179, R203, R281, R353, R536)? -/
def State.homeReady (s : State) (m : Msg) : Bool :=
  let h := s.homeOf m.line
  let walking : Bool :=
    match h with
    | .vault d v => (s.vault d v).walking || !s.vaultFree d v || s.glzHolds d v m.line
    | _ => false
  let moving : Bool :=
    match regionOf (m.line * 64) with
    | .tidal x =>
      (match mapFind s.remap (x / 2 ^ 21) with
       | some p => p.migrating
       | none => false)
    | _ => false
  s.homeUp m.line && (m.agent = engAgent || s.lineReach m.agent m.line) && !walking && !moving && (mapFind s.txns m.line).isNone &&
  !s.sweeps.any (fun w => w.1 = h.die && w.2 = m.agent)

/-- The age of a tidal page falls to 0 when a REQ-class request for one of its lines reaches its home (R356). -/
def State.touchPage (s : State) (line : Nat) : State :=
  match regionOf (line * 64) with
  | .tidal x =>
    match mapFind s.remap (x / 2 ^ 21) with
    | some p => { s with remap := mapSet s.remap (x / 2 ^ 21) { p with age := 0 } }
    | none => s
  | _ => s

/-- Requests that waited are taken up in order, each at most once, and none before an earlier one for its line (R281). -/
def State.wake (s : State) : State :=
  let q := s.waitq
  q.foldl (fun t m => if t.homeReady m && !t.waitq.any (fun x => x.line = m.line) then t.startReq m else { t with waitq := t.waitq ++ [m] }) { s with waitq := [] }

/-- A request reaches its home (R281). A request of an agent that is held up waits. -/
def State.recvReq (s : State) (m : Msg) : State :=
  let s0 := s.touchPage m.line
  if s0.homeReady m && !s0.waitq.any (fun x => x.line = m.line) then s0.startReq m
  else { s0 with waitq := s0.waitq ++ [m] }

/-! ## Receiving -/

/-- A request as its command gives it, with the attribute of its issuer's table, or as it stands on its way (R228, R279); none where
it is held back. -/
def State.request (s : State) (k : MsgKind) (agent line : Nat) (data : List Byte) (mask : Nat) (poison : Bool) :
    Option (Msg × State) :=
  if (s.anyMsg k agent line).isSome then s.takeMsg k agent line
  else
    some (s.withClass (agentTable agent)
      { mkMsg k agent line with data := (data ++ List.replicate 64 (0 : Byte)).take 64, mask := mask % 2 ^ 64, poison := poison }, s)

/-- A request that has reached its home is taken up. -/
def State.takeReq (s : State) (k : MsgKind) (agent line : Nat) (data : List Byte) (mask : Nat) (poison : Bool) : State :=
  match s.request k agent line data mask poison with
  | some (m, t) => t.recvReq m
  | none => s

/-- The entry after a WB: the requester is removed, unless the WB cleans a line that stays cached (R257, R282, R293). -/
def State.wbEntry (s : State) (m : Msg) : State := if m.keepS then s else s.dropSharer m.line m.agent

/-- Does the walk of a vault that is being fenced discard what is written back to a line (R179)? -/
def State.walked (s : State) (line : Nat) : Bool :=
  match s.homeOf line with
  | .vault d v => (s.vault d v).walking
  | _ => false

/-- Is a line's home a fenced vault (R179)? -/
def State.fencedHome (s : State) (line : Nat) : Bool :=
  match s.homeOf line with
  | .vault d v => s.vState d v = vFENCED
  | _ => false

/-- A home receives a WB or the data of a snoop (R280, R282, R284). A fenced home answers both (R179). -/
def State.recvWb (s : State) (m : Msg) : State :=
  let s1 := if s.walked m.line then s else s.memPut m.line m.data fullLine m.poison srcDynamic
  match mapFind s1.txns m.line with
  | none =>
    if m.kind = .wb then
      let s2 := s1.wbEntry m
      match s2.homeOf m.line with
      | .proxy _ =>
        let s3 := s2.hostSettle m.line
        (match mapFind s3.hostLines m.line with
         | some h =>
           if h.leaving then { s3 with hostWbs := s3.hostWbs ++ [(m.agent, m.line)] }
           else s3.send (mkMsg .wback m.agent m.line)
         | none => s3.send (mkMsg .wback m.agent m.line))
      | _ => s2.send (mkMsg .wback m.agent m.line)
    else if s1.fencedHome m.line then s1.send (mkMsg .wback m.agent m.line)
    else s1.hostSettle m.line
  | some t =>
    let s2 :=
      if m.kind = .wb then
        let t1 := { t with
          gotWb := if t.snoops.contains m.agent then t.gotWb ++ [m.agent] else t.gotWb,
          wbp := t.wbp.filter (· ≠ m.agent) }
        (({ s1 with txns := mapSet s1.txns m.line t1 }).wbEntry m).send (mkMsg .wback m.agent m.line)
      else
        let t1 := { t with snoops := t.snoops.filter (· ≠ m.agent), kept := t.kept || m.keepS }
        { s1 with txns := mapSet s1.txns m.line t1 }
    (s2.advance m.line).wake

/-- A home receives a snoop response (R284). -/
def State.recvRsp (s : State) (k : MsgKind) (agent line : Nat) : State :=
  match mapFind s.txns line with
  | none => s
  | some t =>
    if !t.snoops.contains agent then s
    else
      let t1 := { t with
        snoops := t.snoops.filter (· ≠ agent),
        kept := t.kept || k = .rspS,
        wbp := if k = .rspIWb && !t.gotWb.contains agent then t.wbp ++ [agent] else t.wbp }
      (({ s with txns := mapSet s.txns line t1 }).advance line).wake

/-! ## Engines -/

/-- Does an operation need the line in E or M? -/
def HartOp.writes : HartOp → Bool
  | .load | .lr => false
  | _ => true

/-- Does a message grant a line to an agent? -/
def MsgKind.isGrant : MsgKind → Bool
  | .datS | .datE | .grantE => true
  | _ => false

/-- Is a line on its way to a cache that was granted it? -/
def State.granting (s : State) (line : Nat) : Bool :=
  s.net.any (fun m => m.line = line && isCacheAgent m.agent && m.kind.isGrant)

/-- What waits for a line in a cache asks for it anew: its place is after the requests that have left since. -/
def State.reask (s : State) (a line : Nat) : State :=
  let mine := fun (r : Mshr) => r.agent = a && r.line = line && r.sent && !r.nc
  match s.mshrs.filter mine with
  | [] => s
  | rs =>
    ({ s with mshrs := s.mshrs.filter (fun r => !mine r) ++ rs.map (fun (r : Mshr) => { r with stale := false }) }).send
      (mkMsg (if rs.any (fun r => r.op.writes) then .rdE else .rdS) a line)

/-- A grant on its way to a cache is taken back, and its request stands as not yet served: the home serves first what snoops at
once. -/
def State.ungrant (s : State) (a line : Nat) : State :=
  if s.net.any (fun m => m.agent = a && m.line = line && m.kind.isGrant) then
    ({ s with net := s.net.filter (fun m => !(m.agent = a && m.line = line && m.kind.isGrant)) }).reask a line
  else s

/-- An internal agent snooped at once for an engine: its dirty data reach memory, also from a WB on its way. -/
def State.snoopNow (s : State) (a line : Nat) (inv : Bool) : State :=
  let s0 :=
    match s.anyMsg .wb a line with
    | some (m, t) => t.recvWb m
    | none => s.ungrant a line
  match s0.held a line with
  | none => s0.dropSharer line a
  | some l =>
    let s1 := if l.st = .m then s0.memPut line l.data fullLine l.poison srcDynamic else s0
    if inv then ((s1.setHeld a line none).dropL1 a line).dropSharer line a
    else
      let s2 := (s1.setHeld a line (some { l with st := .s })).downL1 a line
      match mapFind s2.dir line with
      | some e => s2.setDir line false e.sharers
      | none => s2

/-- By whose attributes an engine's access goes, the agent that its home does not snoop, that of the cache that asks for the engine, and
the requester ID of its reads at that cache (R228, R277, R288). -/
structure EngCtx where
  tb : Nat
  self : Nat
  via : Option Nat
  deriving DecidableEq, Repr

/-- No agent. -/
def noAgent : Nat := 10

/-- An engine of a die; one whose requests carry no attribute (R228). -/
def engOf (die : Nat) : EngCtx := ⟨die, noAgent, none⟩
def engHome : EngCtx := ⟨homeTable, noAgent, none⟩

/-- The agents an engine's access must snoop: the owner for a read, every holder for a write. -/
def engSnoops (e : DirEnt) (write : Bool) (self : Nat) : List Nat :=
  if write || e.owned then (agentsOf e.sharers).filter (· ≠ self) else []

/-- May an engine access a line now? It comes after the requests that wait for the line (R281). -/
def State.engReady (s : State) (g : EngCtx) (write : Bool) (line : Nat) : Bool :=
  s.homeReady (mkMsg .rdNc engAgent line) && !s.waitq.any (fun m => m.line = line && m.agent ≠ engAgent) &&
  (s.nonCoh g.tb line ||
   (!s.granting line && !s.needsHost line write false && (engSnoops (entryOf s line) write g.self).all isCacheAgent))

/-- What an engine sends for a line that is not ready: a recall by the home, answered to nobody. -/
def State.engRecall (s : State) (write : Bool) (line : Nat) : State :=
  if (mapFind s.txns line).isSome || s.waitq.any (fun m => m.line = line && m.agent = engAgent) then s
  else s.recvReq (mkMsg (if write then .wrInv else .rdNc) engAgent line)

/-- The lines of a byte range. -/
def linesOf (a n : Nat) : List Nat := (List.range ((a + n + 63) / 64 - a / 64)).map (· + a / 64)

/-- Lines are ready for an engine, or the recalls that make them so are sent: `none` says ready. -/
def State.engWaitLines (s : State) (g : EngCtx) (write : Bool) (lines : List Nat) : Option State :=
  match (lines.filter (fun l => s.homeOf l ≠ .none)).filter (fun l => !s.engReady g write l) with
  | [] => none
  | bad => some (bad.foldl (fun t l => if t.engReady g write l || t.nonCoh g.tb l then t else t.engRecall write l) s)

/-- A range of coherent or non-coherent memory is ready for an engine, or the recalls that make it so are sent. -/
def State.engWait (s : State) (g : EngCtx) (write : Bool) (a n : Nat) : Option State := s.engWaitLines g write (linesOf a n)

/-- A range cut at 128 B blocks. -/
def cutBlocks (a n : Nat) : List (Nat × Nat) :=
  (List.range ((a + n + 127) / 128 - a / 128)).map (fun i =>
    let lo := max a ((a / 128 + i) * 128)
    let hi := min (a + n) ((a / 128 + i + 1) * 128)
    (lo, hi - lo))

/-- The copies that an engine's access to lines must snoop give way, and their pages are touched. A non-coherent access snoops nothing
(R225). -/
def State.engSnoop (s : State) (g : EngCtx) (write : Bool) (ls : List Nat) : State :=
  ls.foldl (fun t l =>
    if t.nonCoh g.tb l then t.touchPage l
    else
      let t1 := t.dirPrepare (t.homeOf l)
      (engSnoops (entryOf t1 l) write g.self).foldl (fun u ag => u.snoopNow ag l write) (t1.touchPage l)) s

/-- Bytes of lines read one by one at their homes. -/
def State.linesRead (s : State) (a n src : Nat) : List Byte × Bool × State :=
  (linesOf a n).foldl (fun (acc : List Byte × Bool × State) l =>
    let (d, p, t) := acc.2.2.memLine l src
    let lo := max a (l * 64) - l * 64
    let hi := min (a + n) (l * 64 + 64) - l * 64
    (acc.1 ++ (d.drop lo).take (hi - lo), acc.2.1 || p, t.hostSettle l)) ([], false, s)

/-- Bytes of lines written one by one at their homes. -/
def State.linesWrite (s : State) (a : Nat) (dat : List Byte) (poison : Bool) (src : Nat) : State :=
  (linesOf a dat.length).foldl (fun t l =>
    let lo := max a (l * 64) - l * 64
    let hi := min (a + dat.length) (l * 64 + 64) - l * 64
    let bytes := List.replicate lo (0 : Byte) ++ (dat.drop (l * 64 + lo - a)).take (hi - lo) ++
      List.replicate (64 - hi) (0 : Byte)
    (t.memPut l bytes (2 ^ hi - 2 ^ lo) poison src).hostSettle l) s

/-- Bytes read by an engine as RD_NC would read them, and their poison; a block of a stack is read once. `nowhere` reads poisoned
zeros; callers check R220 first. -/
def State.engRead (s : State) (g : EngCtx) (a n src : Nat) : List Byte × Bool × State :=
  (cutBlocks a n).foldl (fun (acc : List Byte × Bool × State) p =>
    let t := acc.2.2.engSnoop g false (linesOf p.1 p.2)
    let (d, bad, u) :=
      match t.placeOfAddr p.1 with
      | .stack die o => t.stackRead die o p.2 src
      | _ => t.linesRead p.1 p.2 src
    (acc.1 ++ d, acc.2.1 || bad, u)) ([], false, s)

/-- Bytes written by an engine as invalidating writes (R283), a block of a stack at once (R162, R166); reservations on the lines
are lost (R312). -/
def State.engWrite (s : State) (g : EngCtx) (a : Nat) (dat : List Byte) (poison : Bool) (src : Nat) : State :=
  (cutBlocks a dat.length).foldl (fun s0 p =>
    let t := s0.engSnoop g true (linesOf p.1 p.2)
    let bytes := (dat.drop (p.1 - a)).take p.2
    let u :=
      match t.placeOfAddr p.1 with
      | .stack die o => t.stackWrite die o bytes poison src
      | _ => t.linesWrite p.1 bytes poison src
    (linesOf p.1 p.2).foldl (fun x l => x.loseResv l (fun _ => true)) u) s

/-- The copies of a line that a stream VWR invalidates once its home takes the write up (R128, R317): a dirty copy's data
reach memory after the VWR's. -/
def State.vwrInvalidate (s : State) (line : Nat) : State :=
  ((agentsOf (entryOf s line).sharers).filter isCacheAgent).foldl (fun t a => t.snoopNow a line true) s

end Sys2Proof.Machine
end

