-- ==== Sys2Proof/Machine/Caches.lean ====
section
/-!
DEFINITION. The messages of the coherence protocol as commands, and the SLC and RLC: allocation (R288, R289), what the
hart operations do in a held line (R308, R312, R313), the merging buffer (R291), prefetch (R292), range operations (R293,
R294) enabling and disabling (R295), and the reads of engines through a cache (R287, R288).
-/
namespace Sys2Proof.Machine

/-! ## Requests and write-backs at a home -/

/-- RD_S (R282). -/
def effRdS (agent line : Nat) (s : State) : State :=
  s.takeReq .rdS agent line [] 0 false

/-- RD_E (R282). -/
def effRdE (agent line : Nat) (s : State) : State :=
  s.takeReq .rdE agent line [] 0 false

/-- RD_NC (R282). -/
def effRdNc (agent line : Nat) (s : State) : State :=
  s.takeReq .rdNc agent line [] 0 false

/-- WR_INV (R283); for a line that a stream VWR wrote, the invalidation that follows it (R128, R317); an await that waited for it enters its step 2
(R73). -/
def effWrInv (agent line : Nat) (data : List Byte) (mask : Nat) (poison : Bool) (s : State) : State :=
  if s.vwrInv.contains (line * 64) then
    (({ s with vwrInv := s.vwrInv.filter (· ≠ line * 64) }).recvReq (mkMsg .wrInv engAgent line)).enterStep2 (line * 64 / 2 ^ 37)
  else
    s.takeReq .wrInv agent line data mask poison

/-- WR_WT (R283). -/
def effWrWt (agent line : Nat) (data : List Byte) (mask : Nat) (poison : Bool) (s : State) : State :=
  s.takeReq .wrWt agent line data mask poison

/-- A message that a cache of the package must have sent, and that another agent may bring. -/
def State.brought (s : State) (k : MsgKind) (agent line : Nat) (data : List Byte) (poison keepS : Bool) :
    Option (Msg × State) :=
  if (s.anyMsg k agent line).isSome then s.takeMsg k agent line
  else if isCacheAgent agent then none
    else some ({ mkMsg k agent line with
      data := (data ++ List.replicate 64 (0 : Byte)).take 64, mask := fullLine, poison := poison, keepS := keepS }, s)

/-- WB (R282, R284). -/
def effWb (agent line : Nat) (data : List Byte) (poison : Bool) (s : State) : State :=
  match s.brought .wb agent line data poison false with
  | some (m, t) => if t.dieUp (t.homeOf line).die then t.recvWb m else s
  | none => s

/-- WB_SNP (R284). -/
def effWbSnp (agent line : Nat) (data : List Byte) (poison keepS : Bool) (s : State) : State :=
  match s.brought .wbSnp agent line data poison keepS with
  | some (m, t) => if t.dieUp (t.homeOf line).die then t.recvWb m else s
  | none => s

/-- EVICT (R282). -/
def effEvict (agent line : Nat) (s : State) : State :=
  match s.brought .evict agent line [] false false with
  | some (m, t) => if t.dieUp (t.homeOf line).die then (t.dropSharer m.line m.agent).hostSettle m.line else s
  | none => s

/-- RSP_I (R284). -/
def effRspI (agent line : Nat) (s : State) : State :=
  match s.brought .rspI agent line [] false false with
  | some (_, t) => t.recvRsp .rspI agent line
  | none => s

/-- RSP_S (R284). -/
def effRspS (agent line : Nat) (s : State) : State :=
  match s.brought .rspS agent line [] false false with
  | some (_, t) => t.recvRsp .rspS agent line
  | none => s

/-- RSP_I_WBPEND (R284). -/
def effRspIWbpend (agent line : Nat) (s : State) : State :=
  match s.brought .rspIWb agent line [] false false with
  | some (_, t) => t.recvRsp .rspIWb agent line
  | none => s

/-! ## Snoops at an agent -/

/-- A snoop that reaches an agent: a cache answers it, unless a hart defers it (R312); another agent is told. -/
def State.recvSnoop (s : State) (agent line : Nat) (inv : Bool) : State :=
  match s.takeMsg (if inv then .snpInv else .snpDown) agent line with
  | none => s
  | some (_, t) =>
    if !isCacheAgent agent then t.emit (.snoop agent line inv)
    else if !t.dieUp (cacheDie agent) then s
    else if inv && t.deferred agent line then s
    else t.answerSnoop agent line inv

/-- SNP_DOWN (R279). -/
def effSnpDown (agent line : Nat) (s : State) : State := s.recvSnoop agent line false

/-- SNP_INV (R279, R312). -/
def effSnpInv (agent line : Nat) (s : State) : State := s.recvSnoop agent line true

/-! ## Allocation -/

/-- Sets and ways of a cache (R287); the set of a line is log entry 15. -/
def cacheSet (a line : Nat) : Nat := if a < 2 then line % 98304 else line % 32768

/-- The class of a requester ID (R288, R301). -/
def State.classOf (s : State) (a id : Nat) : Nat :=
  bits (s.rd (cacheDie a) (cacheBlk (cacheDie a)) (0x040 + 8 * (id / 16))) (4 * (id % 16) + 3) (4 * (id % 16))

def State.waymask (s : State) (a c : Nat) : Word := s.rd (cacheDie a) (cacheBlk (cacheDie a)) (0x080 + 8 * c)

/-- The owning class of a locked way: the lowest class that locks it (R289). -/
def State.lockOwner (s : State) (a w : Nat) : Option Nat :=
  (List.range 16).find? (fun c => bitAt (s.waymask a c) (16 + w))

/-- The ways in which a class may allocate (R289). -/
def State.waysOf (s : State) (a c : Nat) : List Nat :=
  (List.range 16).filter (fun w => bitAt (s.waymask a c) w &&
    (match s.lockOwner a w with
     | some o => decide (o = c)
     | none => true))

/-- May a held line be a victim: a dirty line homed on a stopped die is not (R256)? -/
def State.evictable (s : State) (e : Nat × CLine) : Bool :=
  !(e.2.st = .m && !s.dieUp (s.homeOf e.1).die)

/-- The way for a new line: an invalid permitted way, else the least recently used; none where no way is permitted
(R289). The victim's line is given with it. -/
def State.chooseWay (s : State) (a c line : Nat) : Option (Nat × Option Nat) :=
  let set := (s.cache a).lines.filter (fun e => cacheSet a e.1 = cacheSet a line)
  let ways := s.waysOf a c
  match ways.find? (fun w => !set.any (fun e => e.2.way = w)) with
  | some w => some (w, none)
  | none =>
    let cands := set.filter (fun e => ways.contains e.2.way && s.evictable e)
    (cands.foldl (fun acc e =>
      match acc with
      | none => some e
      | some x => if e.2.used < x.2.used then some e else some x) (none : Option (Nat × CLine))).map
      (fun e => (e.2.way, some e.1))

/-- A line brought into a cache for a class: its victim leaves with WB or EVICT (R278); false where nothing could be
allocated. -/
def State.allocate (s : State) (a c line : Nat) (st : LineSt) (d : List Byte) (p : Bool) : State × Bool :=
  match s.chooseWay a c line with
  | none => (s, false)
  | some (w, victim) =>
    let s1 :=
      match victim with
      | some v => s.dropLine a v
      | none => s
    (s1.updCache a (fun q =>
      let l : CLine := ⟨st, d, p, w, q.tick⟩
      { q with lines := mapSet q.lines line l, tick := q.tick + 1 }), true)

/-- A line put into the prefetch side buffer: a 513th entry replaces the oldest, which sends EVICT (R292). -/
def State.sideFill (s : State) (a line : Nat) (st : LineSt) (d : List Byte) (p : Bool) : State :=
  let full := 512 ≤ (s.cache a).side.length
  let s1 :=
    match (s.cache a).side with
    | old :: _ => if full then s.dropLine a old.1 else s
    | [] => s
  let s2 := s1.updCache a (fun q => { q with side := q.side ++ [(line, ⟨st, d, p, 0, 0⟩)] })
  s2.fset (cacheDie a) (s2.cacheRef a CACHE_STATUS.SIDE_USED) (s2.cache a).side.length

/-- A demand access uses a side-buffer line: it moves into a way of the requester's class. One that finds no way is served where it is and
dropped (R292). -/
def State.promote (s : State) (a c line : Nat) : State :=
  match (s.cache a).side.find? (fun e => e.1 = line) with
  | none => s
  | some e =>
    if (s.chooseWay a c line).isSome then
      ((s.setHeld a line none).allocate a c line e.2.st e.2.data e.2.poison).1
    else s

/-- The POLICY of a line by the table of a cache's die (R226, R228). -/
def State.policy (s : State) (a line : Nat) : Nat := (attrIn (mapGet [] s.rat (cacheDie a)) (line * 64)).2

/-- Does a cache keep lines that a class brings: it is enabled, the class may allocate, and POLICY lets it (R289, R290, R295)? -/
def State.keeps (s : State) (a cls line : Nat) : Bool := s.cacheOn a && s.policy a line ≠ 2 && s.waysOf a cls ≠ []

/-- The use stamp of a line (R289: least recently used). -/
def State.touchLine (s : State) (a line : Nat) : State :=
  s.updCache a (fun q =>
    match mapFind q.lines line with
    | some l => { q with lines := mapSet q.lines line { l with used := q.tick }, tick := q.tick + 1 }
    | none => q)

/-! ## A hart's operation in a held line -/

/-- The result of an atomic memory operation on `n` bytes, by the operation of the ISA: 0 swap, 1 add, 2 xor, 3 and,
4 or, 5 min, 6 max, 7 minu, 8 maxu. -/
def amoResult (code n old v : Nat) : Nat :=
  let w := 8 * n
  match code with
  | 0 => v % 2 ^ w
  | 1 => (old + v) % 2 ^ w
  | 2 => old ^^^ (v % 2 ^ w)
  | 3 => old &&& v
  | 4 => old ||| (v % 2 ^ w)
  | 5 => if signedN w old ≤ signedN w v then old else v % 2 ^ w
  | 6 => if signedN w old ≤ signedN w v then v % 2 ^ w else old
  | 7 => min old (v % 2 ^ w)
  | _ => max old (v % 2 ^ w)

/-- A hart takes an exception: its reservation is lost (R312). -/
def State.hartTrap (s : State) (h code tval : Nat) : State :=
  (s.updHart h (fun x => { x with resv := none, deferring := false })).emit (.trap h code tval)

/-- Poison consumed by a hart: a precise hardware-error exception, code 19, and its record (R530, R542). -/
def State.consumePoison (s : State) (h addr : Nat) : State :=
  (s.logErr (4 + h / 32) 2 0x08 h 0x2 addr).hartTrap h 19 addr

/-- A line's bytes with some of them replaced. -/
def putBytes (d : List Byte) (off : Nat) (new : List Byte) : List Byte := d.take off ++ new ++ d.drop (off + new.length)

/-- A hart takes a copy of a line into its L1; a writable copy is its only one. -/
def State.holdL1 (s : State) (a line h : Nat) (write : Bool) : State :=
  let k := l1Key a line
  let hs := mapGet [] s.l1 k
  if write then
    ({ s with l1 := mapSet s.l1 k [(h, true)] }).loseResv line (fun x => x ≠ h)
  else { s with l1 := mapSet s.l1 k ((hs.filter (fun x => x.1 ≠ h)).map (fun x => (x.1, false)) ++ [(h, false)]) }

/-- Bytes of the merging buffer laid over a line (R291). -/
def State.overMerge (s : State) (a line : Nat) (d : List Byte) : List Byte :=
  match (s.cache a).merge.find? (fun e => e.line = line) with
  | some e => mergeMask d e.data e.mask
  | none => d

/-- The bytes of a range that a hart takes from the merging buffer of its cache and from its own earlier stores, and their mask: its
store buffer, and the younger entries of its non-temporal buffer (R291, R308, R311). -/
def State.ownBytes (s : State) (h a n : Nat) : List Byte × Nat :=
  let hs := s.hart h
  let es := (s.cache (h / 32)).merge.map (fun e => (e.line * 64, e.data, e.mask)) ++
    hs.stores.map (fun e => (e.addr, e.data, e.mask)) ++ hs.nt.map (fun e => (e.line * 64, e.data, e.mask))
  let val := fun (b : Nat) => es.foldl (fun (acc : Option Byte) (e : Nat × List Byte × Nat) =>
    if e.1 ≤ b && b < e.1 + e.2.1.length && e.2.2 / 2 ^ (b - e.1) % 2 = 1 then e.2.1[b - e.1]? else acc) none
  ((List.range n).map (fun i => (val (a + i)).getD 0),
   (List.range n).foldl (fun m i => if (val (a + i)).isSome then m + 2 ^ i else m) 0)

/-- A load's data reach a hart. -/
def State.giveLoad (s : State) (h addr : Nat) (d : List Byte) (poison : Bool) : State :=
  if poison then s.consumePoison h addr else s.emit (.data (.hart h) addr d false)

/-- A store with a global address (R223). -/
def SbEnt.isGlobal (e : SbEnt) : Bool := 2 ^ 44 ≤ e.addr

/-- An mdrain ends once no store with a global address is left (R315). -/
def Hart.drained (x : Hart) : Hart := if x.mdrain && !x.stores.any SbEnt.isGlobal then { x with mdrain := false } else x

/-- A store of the store buffer performed: it leaves the buffer. -/
def State.storeDone (s : State) (h id : Nat) : State :=
  s.updHart h (fun x => Hart.drained { x with stores := x.stores.filter (fun e => e.id ≠ id) })

/-- A hart's operation performed in a line that its SLC holds in a state that permits it (R308, R312, R313). -/
def State.hartInLine (s : State) (r : Mshr) (l : CLine) : State :=
  let h := r.hart.getD 0
  let a := r.agent
  let off := r.addr % 64
  let d := s.overMerge a r.line l.data
  let s0 := if r.op = .ratom then s.touchLine a r.line else (s.touchLine a r.line).holdL1 a r.line h r.op.writes
  match r.op with
  | .ratom =>
    -- the RLC performs a stream's atomic in the line (R287); poison fails the command
    let n := atomSize (r.code % 32)
    let old := leNat ((d.drop off).take n)
    let e : CmdEnd := ⟨a - 2, r.code / 32, if l.poison then some 0x9 else none, false, old, false⟩
    let s1 := { s0 with cmdEnds := s0.cmdEnds ++ [e] }
    if l.poison then s1
    else
      let new := atomResult (r.code % 32) old (leNat (r.data.take 8)) (leNat (r.data.drop 8))
      s1.setHeld a r.line (some { l with st := .m, data := putBytes l.data off (leBytes n new) })
  | .load => s0.giveLoad h r.addr (mergeMask ((d.drop off).take r.len) r.data r.code) l.poison
  | .lr =>
    if l.poison then s0.consumePoison h r.addr
    else (s0.giveLoad h r.addr ((d.drop off).take r.len) false).updHart h (fun x =>
      { x with resv := some r.line, deferring := r.code = 1 })
  | .amo =>
    if l.poison then s0.consumePoison h r.addr
    else
      let old := leNat ((d.drop off).take r.len)
      let new := leBytes r.len (amoResult r.code r.len old (leNat r.data))
      ((s0.setHeld a r.line (some { l with st := .m, data := putBytes l.data off new })).emit
        (.data (.hart h) r.addr ((d.drop off).take r.len) false))
  | .sc =>
    -- the reservation ends with any SC (R312)
    let t := s0.updHart h (fun x => { x with resv := none, deferring := false })
    if (s.hart h).resv = some r.line then
      (t.setHeld a r.line (some { l with st := .m, data := putBytes l.data off r.data })).emit
        (.data (.hart h) r.addr [0] false)
    else (t.hartEvent h 0x17 1).emit (.data (.hart h) r.addr [1] false)
  | .store =>
    (s0.setHeld a r.line (some { l with st := .m, data := mergeMask l.data r.data r.len })).storeDone h r.code
  | .zero => s0.setHeld a r.line (some { l with st := .m, data := List.replicate 64 0, poison := false })

/-- Does a held state permit an operation? -/
def permits (st : LineSt) (op : HartOp) : Bool := !op.writes || st ≠ .s

/-- A request for a line sent by a cache for an operation: RD_E where it writes, RD_S otherwise; it waits while a WB of the
line awaits RSP_WBACK, and joins a request of the cache for the line (R281). -/
def State.fetchLine (s : State) (r : Mshr) : State :=
  let waits := (mapFind (s.cache r.agent).wb r.line).isSome
  let asked := s.mshrs.any (fun x => x.agent = r.agent && x.line = r.line && x.sent && !x.nc)
  let s1 := { s with mshrs := s.mshrs ++ [{ r with sent := !waits, stale := false }] }
  if waits || asked then s1 else s1.send (mkMsg (if r.op.writes then .rdE else .rdS) r.agent r.line)

/-- A request that bypasses a cache: RD_NC, with the class of its address; it waits while a WB of the line awaits RSP_WBACK (R281, R290,
R295). -/
def State.bypass (s : State) (r : Mshr) : State :=
  let waits := (mapFind (s.cache r.agent).wb r.line).isSome
  let s1 := { s with mshrs := s.mshrs ++ [{ r with sent := !waits, nc := true, stale := false }] }
  if waits then s1 else s1.send (s.withClass (cacheDie r.agent) (mkMsg .rdNc r.agent r.line))

/-- The bytes of its line that an operation writes. -/
def Mshr.writeMask (r : Mshr) : Nat :=
  match r.op with
  | .load | .lr => 0
  | .sc | .amo => (2 ^ r.len - 1) * 2 ^ (r.addr % 64)
  | .ratom => (2 ^ atomSize (r.code % 32) - 1) * 2 ^ (r.addr % 64)
  | .store => r.len
  | .zero => fullLine

/-- Under a write-through policy the line that an operation has written goes to its home at once, and stays in S (R290). A line that was
dirty before goes whole. -/
def State.writeThrough (s : State) (r : Mshr) (wasDirty : Bool) : State :=
  match s.held r.agent r.line with
  | some l =>
    if l.st = .m && r.op.writes && s.policy r.agent r.line % 2 = 1 then
      ((s.setHeld r.agent r.line (some { l with st := .s })).downL1 r.agent r.line).sendWrite
        { mkMsg .wrWt r.agent r.line with data := l.data, mask := if wasDirty then fullLine else r.writeMask, poison := l.poison } [] []
    else s
  | none => s

/-- An operation performed in a held line, or the line is fetched. An operation that writes waits for a WB of its line, and the
merging buffer's bytes of the line leave before it (R281, R291). -/
def State.tryAgain (s0 : State) (r : Mshr) : State :=
  let s :=
    if r.op.writes && (s0.cache r.agent).merge.any (fun e => e.line = r.line) then
      s0.drainMerge r.agent (fun e => e.line = r.line)
    else s0
  match s.held r.agent r.line with
  | some l =>
    if permits l.st r.op && !(r.op.writes && (mapFind (s.cache r.agent).wb r.line).isSome) then
      (s.hartInLine r l).writeThrough r (l.st = .m)
    else s.fetchLine r
  | none => s.fetchLine r

/-- Hits and misses of a cache (R594, R595). -/
def State.countHit (s : State) (a : Nat) (hit : Bool) : State :=
  s.pmuEvent (cacheDie a) (if a < 2 then (if hit then 0x202 else 0x203) else (if hit then 0x10E else 0x10F)) 1

/-- An operation tried in the cache; a hit or a miss is counted. A disabled cache is bypassed (R295). A side-buffer line that finds no way is
dropped after its use (R292). -/
def State.tryLine (s : State) (r : Mshr) : State :=
  if !s.cacheOn r.agent then s.bypass r
  else
    let s0 := s.promote r.agent r.cls r.line
    let hit : Bool :=
      match s0.held r.agent r.line with
      | some l => permits l.st r.op
      | none => false
    let sideHit := (s.cache r.agent).side.any (fun e => e.1 = r.line)
    let s1 := match r.hart with
      | some h => if sideHit then s0.hartEvent h 0x18 1 else if hit then s0 else s0.hartEvent h 0x13 1
      | none => s0
    let t := (s1.countHit r.agent hit).tryAgain r
    if hit && (s0.cache r.agent).side.any (fun e => e.1 = r.line) then t.dropLine r.agent r.line else t

/-! ## Data and responses at an agent -/

/-- The effect of a range operation on one held line: 1 clean, 2 invalidate, 3 clean and invalidate (R293). -/
def State.rangeLine (s : State) (a op line : Nat) : State :=
  match s.held a line with
  | none => s
  | some l =>
    match op with
    | 1 =>
      if l.st = .m then
        ((s.setHeld a line (some { l with st := .e })).updCache a (fun c => { c with wb := mapSet c.wb line l })).send
          { mkMsg .wb a line with data := l.data, poison := l.poison, mask := fullLine, keepS := true }
      else s
    | 2 => ((s.setHeld a line none).dropL1 a line).send (mkMsg .evict a line)
    | _ => s.dropLine a line

/-- A requester that is no cache of the package takes an answer. -/
def State.outside (s : State) (agent line : Nat) (d : List Byte) (p : Bool) : State := s.emit (.toAgent agent line d p)

/-- The line granted to a cache: it is held, and the operations that waited for it are tried in order (R279, R292). -/
def State.granted (s : State) (a line : Nat) (st : LineSt) (d : List Byte) (p : Bool) : State :=
  let mine := s.mshrs.filter (fun r => r.agent = a && r.line = line && !r.nc)
  let s0 := { s with mshrs := s.mshrs.filter (fun r => !(r.agent = a && r.line = line && !r.nc)) }
  let ops := mine.filter (fun r => !r.side)
  if mine.any (fun r => r.stale) then
    -- the cache has written the line since: earlier reads are served, nothing is kept, and the rest ask again after the write
    match s0.held a line with
    | some l => ops.foldl (fun t r => t.tryAgain r) (s0.setHeld a line (some { l with st := .s }))
    | none =>
      let s1 := s0.updCache a (fun q => { q with side := q.side ++ [(line, ⟨.s, d, p, 0, 0⟩)] })
      let old := fun (r : Mshr) => r.stale && !r.op.writes
      let s2 := (ops.filter old).foldl (fun t r => t.tryAgain r) s1
      (ops.filter (fun r => !old r)).foldl (fun t r => t.fetchLine r) (s2.dropLine a line)
  else match mine, ops with
  | [], _ => if (s0.held a line).isSome then s0 else s0.send (mkMsg .evict a line)
  | _, [] => if (s0.held a line).isSome then s0 else if s0.cacheOn a then s0.sideFill a line st d p else s0.send (mkMsg .evict a line)
  | _, r :: _ =>
    match s0.held a line with
    | some h => ops.foldl (fun t r => t.tryAgain r) (s0.setHeld a line (some ⟨st, d, p, h.way, h.used⟩))
    | none =>
      let (s1, ok) := if s0.keeps a r.cls line then s0.allocate a r.cls line st d p else (s0, false)
      if ok then ops.foldl (fun t r => t.tryAgain r) s1
      else
        -- the class allocates nothing, or the cache keeps nothing: the line is served and dropped (R289, R290, R295)
        let s2 := s1.updCache a (fun q => { q with side := q.side ++ [(line, ⟨st, d, p, 0, 0⟩)] })
        let (now, later) := (ops.takeWhile (fun r => permits st r.op), ops.dropWhile (fun r => permits st r.op))
        later.foldl (fun t r => t.fetchLine r) ((now.foldl (fun t r => t.tryAgain r) s2).dropLine a line)

/-- A range operation acts on a line once the requests for it have completed (R293). -/
def State.rangeLate (s : State) (a line : Nat) : State :=
  match (s.cache a).rng with
  | some g =>
    if !g.later.contains line || s.mshrs.any (fun r => r.agent = a && r.line = line && r.sent) then s
    else
      let done := fun (ws : List Nat) (t : State) =>
        t.updCache a (fun c => { c with rng := some { g with waits := ws, later := g.later.filter (· ≠ line) } })
      match s.held a line with
      | none => done g.waits s
      | some l =>
        let locked := (mapFind (s.cache a).lines line).isSome && (s.lockOwner a l.way).isSome
        let s1 := if locked then s.finc (cacheDie a) (s.cacheRef a CACHE_RNG_STATUS.LOCKED_CNT) else s
        if g.skip && locked then done g.waits s1
        else if l.st = .m && g.op ≠ 2 then
          done (g.waits ++ [line]) ((s1.finc (cacheDie a) (s.cacheRef a CACHE_RNG_STATUS.WB_CNT)).rangeLine a g.op line)
        else done g.waits (s1.rangeLine a g.op line)
  | none => s

/-- DAT_S (R279). -/
def effDatS (agent line : Nat) (s : State) : State :=
  match s.takeMsg .datS agent line with
  | none => s
  | some (m, t) => if isCacheAgent agent then (t.granted agent line .s m.data m.poison).rangeLate agent line else t.outside agent line m.data m.poison

/-- DAT_E (R279). -/
def effDatE (agent line : Nat) (s : State) : State :=
  match s.takeMsg .datE agent line with
  | none => s
  | some (m, t) => if isCacheAgent agent then (t.granted agent line .e m.data m.poison).rangeLate agent line else t.outside agent line m.data m.poison

/-- What waited for a line is served once from the data of a DAT_NC, and nothing is kept; a copy that the cache holds is left as it stands
(R290, R295). An operation that writes is carried through as a write of its bytes: at a home that grants no caching, and past a disabled
cache. -/
def State.serveOnce (s : State) (agent line : Nat) (d : List Byte) (p : Bool) (rs : List Mshr) : State :=
  let c := s.cache agent
  let s1 := s.updCache agent (fun q =>
    { q with lines := mapErase q.lines line, side := q.side.filter (fun e => e.1 ≠ line) ++ [(line, ⟨.e, d, p, 0, 0⟩)] })
  let s2 := rs.foldl (fun u r =>
    match u.held agent line with
    | some l => u.hartInLine r l
    | none => u) s1
  let after := s2.held agent line
  let s3 := s2.updCache agent (fun q =>
    { q with
      lines := (match mapFind c.lines line with | some x => mapSet q.lines line x | none => q.lines),
      side := q.side.filter (fun e => e.1 ≠ line) ++ c.side.filter (fun e => e.1 = line) })
  let s4 := if (s3.held agent line).isSome then s3 else s3.dropL1 agent line
  match after with
  | some l =>
    if l.st = .m then
      s4.sendWrite (s.withClass (cacheDie agent) { mkMsg .wrInv agent line with
        data := l.data, mask := rs.foldl (fun k r => k ||| r.writeMask) 0, poison := l.poison }) [] []
    else s4
  | none => s4

/-- DAT_NC (R279, R274): what waits for the line is served: the oldest RD_NC, or all that waited for the line. -/
def effDatNc (agent line : Nat) (s : State) : State :=
  match s.takeMsg .datNc agent line with
  | none => s
  | some (m, t) =>
    if !isCacheAgent agent then t.outside agent line m.data m.poison
    else
      let here := fun (r : Mshr) => r.agent = agent && r.line = line && r.sent
      match takeFirst here t.mshrs with
      | none => t
      | some (first, rest) =>
        let mine := if first.nc then [first] else (t.mshrs.filter (fun r => here r && !r.nc)).filter (fun r => !r.side)
        let t0 : State := { t with mshrs := if first.nc then rest else t.mshrs.filter (fun r => !(here r && !r.nc)) }
        (if !first.nc && (t0.held agent line).isSome then mine.foldl (fun u r => u.tryAgain r) t0
         else t0.serveOnce agent line m.data m.poison mine).rangeLate agent line

/-- RSP_GRANT_E (R279): the held line is now exclusive. -/
def effRspGrantE (agent line : Nat) (s : State) : State :=
  match s.takeMsg .grantE agent line with
  | none => s
  | some (_, t) =>
    if !isCacheAgent agent then t.outside agent line [] false
    else match t.held agent line with
    | some l => (t.granted agent line .e l.data l.poison).rangeLate agent line
    | none =>
      -- the line left the cache while its upgrade was on its way: it is asked for again
      t.reask agent line

/-- The oldest write of a line that a cache has sent is performed at the home, and with it its stores (R291, R308). -/
def State.writeDone (s : State) (agent line : Nat) : State :=
  match takeFirst (fun o => decide (o.line = line)) (s.cache agent).outs with
  | some (o, rest) =>
    o.stores.foldl (fun t p => t.storeDone p.1 p.2) (s.updCache agent (fun c => { c with outs := rest }))
  | none => s

/-- RSP_CMP (R283): the write is performed at the home. -/
def effRspCmp (agent line : Nat) (s : State) : State :=
  match s.takeMsg .cmp agent line with
  | none => s
  | some (_, t) =>
    if isCacheAgent agent then t.writeDone agent line
    else t.outside agent line [] false

/-- A range operation ends its wait for a line. -/
def Cache.rangeAck (c : Cache) (line : Nat) : Cache :=
  match c.rng with
  | some r => { c with rng := some { r with waits := r.waits.filter (· ≠ line) } }
  | none => c

/-- RSP_WBACK (R281): the write-back buffer entry is free; requests for the line that waited for it leave. -/
def effRspWback (agent line : Nat) (s : State) : State :=
  match s.takeMsg .wback agent line with
  | none => s
  | some (_, t) =>
    if !isCacheAgent agent then t.outside agent line [] false
    else
      let t1 : State := t.updCache agent (fun c => Cache.rangeAck { c with wb := mapErase c.wb line } line)
      let t1' := t1.drainMerge agent (fun e => e.line = line && e.due)
      let t2 : State := { t1' with harts := t1'.harts.map (fun h => (h.1, { h.2 with wbWait := h.2.wbWait.filter (· ≠ line) })) }
      let waits := fun (r : Mshr) => r.agent = agent && r.line = line && !r.sent
      (t2.mshrs.filter waits).foldl (fun u r => if r.nc then u.bypass r else u.tryAgain r)
        { t2 with mshrs := t2.mshrs.filter (fun r => !waits r) }

/-! ## Merging buffer, prefetch, range operations -/

/-- A store merged into the merging buffer: an entry that is full drains, and a 33rd line drains the oldest (R291). -/
def State.mergeStore (s : State) (a line off : Nat) (d : List Byte) (h : Nat) : State :=
  let es := (s.cache a).merge
  let mask := (2 ^ d.length - 1) * 2 ^ off
  let put := fun (e : MergeEnt) =>
    { e with data := putBytes e.data off d, mask := e.mask ||| mask, harts := (h :: e.harts).dedup }
  let s1 :=
    if es.any (fun e => e.line = line) then s.setMerge a (es.map (fun e => if e.line = line then put e else e))
    else
      let s0 :=
        match es with
        | old :: _ => if 32 ≤ es.length then s.drainMerge a (fun e => e.line = old.line) else s
        | [] => s
      let fresh : MergeEnt := ⟨line, List.replicate 64 0, 0, [], false⟩
      s0.setMerge a ((s0.cache a).merge ++ [put fresh])
  s1.drainMerge a (fun e => e.mask = fullLine)

/-- MERGE_TIMEOUT (R291): the oldest entry has stood for MERGE_CTRL.TIMEOUT cycles and drains. -/
def effMergeTimeout (agent : Nat) (s : State) : State :=
  match (s.cache agent).merge with
  | [] => s
  | e :: _ => s.drainMerge agent (fun x => x.line = e.line)

/-- Is a line one that a prefetch may bring: coherent, local, cached, and not held or asked for (R292)? -/
def State.prefetchable (s : State) (a line : Nat) : Bool :=
  let at_ := attrIn (mapGet [] s.rat (cacheDie a)) (line * 64)
  at_.1 = .coherent && at_.2 ≠ 2 && s.homeOf line ≠ .none && s.cacheOn a && (s.held a line).isNone &&
  !s.mshrs.any (fun r => r.agent = a && r.line = line) && (mapFind (s.cache a).wb line).isNone

/-- A prefetch of a line into the side buffer (R292). -/
def State.prefetchLine (s : State) (a line : Nat) (write : Bool) : State :=
  if s.prefetchable a line then
    s.fetchLine { agent := a, line := line, side := true, cls := 0, hart := none, op := if write then .zero else .load,
                  addr := line * 64, len := 0, data := [], code := 0, sent := false }
  else s

/-- A demand access trains the stride prefetcher: 16 streams, strides of 1 to 32 lines (R292). The accesses of one requester make one stream
(DESIGN CHOICE, log entry 58: the spec does not say how accesses are assigned to streams). -/
def State.trainStride (s : State) (a who line : Nat) : State :=
  s.updCache a (fun c =>
    match c.streams.find? (fun p => p.who = who) with
    | none =>
      let fresh : PfStream := ⟨who, line, 0, 1⟩
      { c with streams := (c.streams ++ [fresh]).drop (c.streams.length + 1 - 16) }
    | some p =>
      let st := (line : Int) - (p.last : Int)
      let ok := 1 ≤ st.natAbs && st.natAbs ≤ 32
      let n := if ok && st = p.stride then p.count + 1 else 2
      if st = 0 then c
      else 
        let upd : PfStream := ⟨who, line, if ok then st else 0, n⟩
        { c with streams := c.streams.map (fun q => if q.who = who then upd else q) })

/-- STRIDE_PREFETCH (R292): the first confident stream's line DIST ahead is fetched in S. -/
def effStridePrefetch (agent : Nat) (s : State) : State :=
  if !isCacheAgent agent || !s.fbit (cacheDie agent) (s.cacheRef agent CACHE_PF_CTRL.STRIDE_EN) then s
  else
    let dist := max 1 (s.fget (cacheDie agent) (s.cacheRef agent CACHE_PF_CTRL.DIST))
    let targets := ((s.cache agent).streams.filter (fun p => 3 ≤ p.count && p.stride ≠ 0)).map (fun p =>
      ((p.last : Int) + (if p.stride < 0 then -(dist : Int) else (dist : Int))).toNat)
    match targets.find? (fun l => s.prefetchable agent l) with
    | some l => s.prefetchLine agent l false
    | none => s

/-- ZICBOP_PREFETCH (R292): prefetch.r and .i fetch in S, prefetch.w in E. -/
def effZicbopPrefetch (hart addr : Nat) (write : Bool) (s : State) : State :=
  let a := hart / 32
  if 64 ≤ hart || 2 ^ 44 ≤ addr || !s.fbit (cacheDie a) (s.cacheRef a CACHE_PF_CTRL.ZICBOP_EN) then s
  else s.prefetchLine a (addr / 64) write

/-- The registers of a range operation: first byte, first byte beyond, skip locked ways (R298, R299). -/
def State.rangeOf (s : State) (a : Nat) : Nat × Nat × Bool :=
  let g := fun f => s.fget (cacheDie a) (s.cacheRef a f)
  let base := g CACHE_RNG_BASE.BASE * 64
  (base, min (2 ^ 44) (base + g CACHE_RNG_LEN.LEN * 64), g CACHE_RNG_OP.SKIP_LOCKED = 1)

/-- A range operation on every line that a cache holds of its range (R293, R294); the lines that it writes back are awaited, and lines with a
request outstanding come after it. A length of 0 completes at once (R298). -/
def State.rangeRun (s : State) (a op : Nat) : State :=
  let d := cacheDie a
  let (lo, hi, skip) := s.rangeOf a
  let inR := fun line => lo ≤ line * 64 && line * 64 < hi
  let start := s.fsets d [(s.cacheRef a CACHE_RNG_OP.OP, op), (s.cacheRef a CACHE_RNG_STATUS.LOCKED_CNT, 0),
    (s.cacheRef a CACHE_RNG_STATUS.WB_CNT, 0)]
  if hi ≤ lo then start
  else
    let s0 := (start.fset d (s.cacheRef a CACHE_RNG_OP.BUSY) 1).drainMerge a (fun e => inR e.line)
    let later := ((s0.mshrs.filter (fun r => r.agent = a && r.sent && inR r.line)).map (·.line)).dedup
    let locked := fun (l : CLine) => (s0.lockOwner a l.way).isSome
    let now := fun (e : Nat × CLine) => inR e.1 && !later.contains e.1
    let ways := (s0.cache a).lines.filter now
    let side := (s0.cache a).side.filter now
    let acted := (ways.filter (fun e => !(skip && locked e.2))) ++ side
    let dirty := acted.filter (fun e => e.2.st = .m && op ≠ 2)
    let s1 := (s0.fset d (s0.cacheRef a CACHE_RNG_STATUS.LOCKED_CNT) (ways.filter (fun e => locked e.2)).length).fset d
      (s0.cacheRef a CACHE_RNG_STATUS.WB_CNT) dirty.length
    let s2 := acted.foldl (fun t e => t.rangeLine a op e.1) s1
    s2.updCache a (fun c => { c with rng := some ⟨dirty.map (·.1), op, skip, later⟩ })

/-- A range operation started: a write while BUSY sets REJECT (R293, R294). -/
def State.rangeStart (s : State) (a op : Nat) : State :=
  if !isCacheAgent a then s
  else if s.fbit (cacheDie a) (s.cacheRef a CACHE_RNG_OP.BUSY) then
    s.fset (cacheDie a) (s.cacheRef a CACHE_RNG_OP.REJECT) 1
  else s.rangeRun a op

/-- RNG_CLEAN (R293). -/
def effRngClean (agent : Nat) (s : State) : State := s.rangeStart agent 1

/-- RNG_INVALIDATE (R293). -/
def effRngInvalidate (agent : Nat) (s : State) : State := s.rangeStart agent 2

/-- RNG_CLEAN_INVALIDATE (R293). -/
def effRngCleanInvalidate (agent : Nat) (s : State) : State := s.rangeStart agent 3

/-- RANGE_OP_DONE (R293): every line has been acted on and every write-back is acknowledged, and BUSY clears. -/
def effRangeOpDone (agent : Nat) (s : State) : State :=
  match (s.cache agent).rng with
  | some r =>
    if r.waits = [] && r.later = [] then
      (s.updCache agent (fun c => { c with rng := none })).fset (cacheDie agent) (s.cacheRef agent CACHE_RNG_OP.BUSY) 0
    else s
  | none => s

/-- CACHE_DISABLE (R295): the merging buffer drains, the side buffer is dropped, and dirty lines left are recorded. -/
def effCacheDisable (agent : Nat) (s : State) : State :=
  let d := cacheDie agent
  if !isCacheAgent agent || !s.cacheOn agent then s
  else
    let s0 := s.drainMerge agent (fun _ => true)
    let s1 := ((s0.cache agent).side.map (·.1)).foldl (fun t l => t.dropLine agent l) s0
    let dirty := ((s1.cache agent).lines.filter (fun e => e.2.st = .m)).length
    let s2 := (s1.fset d (s1.cacheRef agent CACHE_CTRL.ENABLE) 0).fset d (s1.cacheRef agent CACHE_STATUS.DIRTY_CNT) dirty
    -- no line in the L1 caches outlives the disabling for a reservation (R312)
    let s3 := ((s2.cache agent).lines.map (·.1)).foldl (fun t l => t.dropL1 agent l) s2
    if dirty = 0 then s3
    else (s3.fset d (s3.cacheRef agent CACHE_CTRL.DIRTY_AT_DISABLE) 1).fixedCause 0x82 (d * 2 ^ 29 + dirty % 2 ^ 24)

/-- CACHE_ENABLE (R295): held lines are usable as they stand. -/
def effCacheEnable (agent : Nat) (s : State) : State :=
  if isCacheAgent agent then s.fset (cacheDie agent) (s.cacheRef agent CACHE_CTRL.ENABLE) 1 else s

/-! ## Reads of engines through a cache (R287, R288) -/

/-- The lowest entry of a full set of a home makes way at once, where only caches of the package hold its line (R276). -/
def State.evictNow (s : State) (line : Nat) : Option State :=
  let h := s.homeOf line
  match dirVictim (s.setEntries h line) with
  | none => none
  | some v =>
    let as := agentsOf (entryOf s v).sharers
    if (mapFind s.txns v).isSome || !as.all isCacheAgent then none
    else some (((as.foldl (fun t a => t.snoopNow a v true) s).setDir v false 0).countDirEvict h)

/-- A line that an engine has read through a cache is allocated for its class, as RD_S would grant it (R282, R289). Host lines are not kept
(DESIGN CHOICE, log entry 58). -/
def State.fillNow (s : State) (a cls line : Nat) (d : List Byte) (p : Bool) : State :=
  let proxy : Bool := match s.homeOf line with | .proxy _ => true | _ => false
  let free := fun (t : State) => (entryOf t line).sharers ≠ 0 || (t.setEntries (t.homeOf line) line).length < 16
  if proxy || !s.keeps a cls line || !s.caches_ (mkMsg .rdS a line) || (s.chooseWay a cls line).isNone ||
     s.mshrs.any (fun r => r.agent = a && r.line = line) then s
  else
    match (if free s then some s else s.evictNow line) with
    | none => s
    | some t =>
      if !free t then t
      else
        let e := entryOf t line
        let alone := (agentsOf e.sharers).filter (· ≠ a) = []
        (if alone then t.setDir line true (2 ^ a) else t.setDir line false (setBit e.sharers a)).allocate a cls line
          (if alone then .e else .s) d p |>.1

/-- Does a cache serve the requesters of its die for a line: not for one homed on its own C-die, nor for a non-coherent one (R225, R287)? -/
def State.viaCache (s : State) (a line : Nat) : Bool :=
  !s.nonCoh (cacheDie a) line && !(isC (cacheDie a) && (s.homeOf line).die = cacheDie a)

/-- A cache's requests for an engine, under its own agent bit (R277, R295). -/
def viaCtx (a : Nat) : EngCtx := ⟨cacheDie a, a, none⟩

/-- An engine of a die whose reads go through the die's cache with a requester ID (R288). -/
def engVia (die id : Nat) : EngCtx := ⟨die, dieAgent die, some id⟩

/-- The same engine's writes, which go to the home and find every copy (R269, R283). -/
def EngCtx.writes (g : EngCtx) : EngCtx := { g with self := noAgent, via := none }

/-- Is a read of an engine through a cache ready: what the cache does not hold is ready at its home, and has no WB in flight (R281)? -/
def State.viaWait (s : State) (a addr n : Nat) : Option State :=
  let miss := (linesOf addr n).filter (fun l => !(s.viaCache a l && s.cacheOn a && (s.held a l).isSome))
  if miss.any (fun l => (mapFind (s.cache a).wb l).isSome) then some s else s.engWaitLines (viaCtx a) false miss

/-- One line read by an engine through a cache: a hit is served, with merged bytes; a miss is read at the home and allocated (R289 to R292,
R595). -/
def State.viaLine (s : State) (a id line src : Nat) : List Byte × Bool × State :=
  let cls := s.classOf a id
  if !s.viaCache a line || !s.cacheOn a then s.engRead (viaCtx a) (line * 64) 64 src
  else
    let s0 := (s.trainStride a id line).promote a cls line
    match s0.held a line with
    | some l =>
      let inSide := (s0.cache a).side.any (fun e => e.1 = line)
      let t := (s0.countHit a true).touchLine a line
      (t.overMerge a line l.data, l.poison, if inSide then t.dropLine a line else t)
    | none =>
      let (d, p, t) := (s0.countHit a false).engRead (viaCtx a) (line * 64) 64 src
      (t.overMerge a line d, p, t.fillNow a cls line d p)

/-- Bytes read by an engine through the cache of its die; a block of a stack that the cache holds nothing of is read once (R271). -/
def State.viaRead (s : State) (a id addr n src : Nat) : List Byte × Bool × State :=
  (cutBlocks addr n).foldl (fun (acc : List Byte × Bool × State) p =>
    let t := acc.2.2
    let ls := linesOf p.1 p.2
    let (d, bad, u) :=
      if ls.any (fun l => t.viaCache a l && t.cacheOn a && (t.held a l).isSome) then
        ls.foldl (fun (x : List Byte × Bool × State) l =>
          let (d, p', u) := x.2.2.viaLine a id l src
          (x.1 ++ d, x.2.1 || p', u)) ([], false, t)
      else
        let (d, p', u) := t.engRead (viaCtx a) (p.1 / 64 * 64) (64 * ls.length) src
        if !t.cacheOn a || !ls.all (t.viaCache a) then (d, p', u)
        else
          (ls.zipIdx.foldl (fun (x : List Byte × Bool × State) l =>
            let ld := (d.drop (64 * l.2)).take 64
            (x.1 ++ x.2.2.overMerge a l.1 ld, x.2.1,
              (((x.2.2.trainStride a id l.1).countHit a false).fillNow a (t.classOf a id) l.1 ld p'))) ([], p', u))
    (acc.1 ++ (d.drop (p.1 % 64)).take p.2, acc.2.1 || bad, u)) ([], false, s)

/-! ## The commands of this file: each one's effect, committed -/

/-- WB (R282). -/
def execWb (agent line : Nat) (data : List Byte) (poison : Bool) (s : State) : Host.Outcome State Fault Refusal :=
  s.commit (effWb agent line data poison s)

/-- WB_SNP (R284). -/
def execWbSnp (agent line : Nat) (data : List Byte) (poison keepS : Bool) (s : State) : Host.Outcome State Fault Refusal :=
  s.commit (effWbSnp agent line data poison keepS s)

/-- EVICT (R282). -/
def execEvict (agent line : Nat) (s : State) : Host.Outcome State Fault Refusal :=
  s.commit (effEvict agent line s)

/-- SNP_DOWN (R279). -/
def execSnpDown (agent line : Nat) (s : State) : Host.Outcome State Fault Refusal :=
  s.commit (effSnpDown agent line s)

/-- SNP_INV (R279). -/
def execSnpInv (agent line : Nat) (s : State) : Host.Outcome State Fault Refusal :=
  s.commit (effSnpInv agent line s)

/-- DAT_S (R279). -/
def execDatS (agent line : Nat) (s : State) : Host.Outcome State Fault Refusal :=
  s.commit (effDatS agent line s)

/-- DAT_E (R279). -/
def execDatE (agent line : Nat) (s : State) : Host.Outcome State Fault Refusal :=
  s.commit (effDatE agent line s)

/-- DAT_NC (R279). -/
def execDatNc (agent line : Nat) (s : State) : Host.Outcome State Fault Refusal :=
  s.commit (effDatNc agent line s)

/-- RSP_GRANT_E (R279). -/
def execRspGrantE (agent line : Nat) (s : State) : Host.Outcome State Fault Refusal :=
  s.commit (effRspGrantE agent line s)

/-- RSP_CMP (R283). -/
def execRspCmp (agent line : Nat) (s : State) : Host.Outcome State Fault Refusal :=
  s.commit (effRspCmp agent line s)

/-- RSP_WBACK (R281). -/
def execRspWback (agent line : Nat) (s : State) : Host.Outcome State Fault Refusal :=
  s.commit (effRspWback agent line s)

/-- RSP_I (R284). -/
def execRspI (agent line : Nat) (s : State) : Host.Outcome State Fault Refusal :=
  s.commit (effRspI agent line s)

/-- RSP_S (R284). -/
def execRspS (agent line : Nat) (s : State) : Host.Outcome State Fault Refusal :=
  s.commit (effRspS agent line s)

/-- RSP_I_WBPEND (R284). -/
def execRspIWbpend (agent line : Nat) (s : State) : Host.Outcome State Fault Refusal :=
  s.commit (effRspIWbpend agent line s)

/-- MERGE_TIMEOUT (R291). -/
def execMergeTimeout (agent : Nat) (s : State) : Host.Outcome State Fault Refusal :=
  s.commit (effMergeTimeout agent s)

/-- STRIDE_PREFETCH (R292). -/
def execStridePrefetch (agent : Nat) (s : State) : Host.Outcome State Fault Refusal :=
  s.commit (effStridePrefetch agent s)

/-- RNG_CLEAN (R293). -/
def execRngClean (agent : Nat) (s : State) : Host.Outcome State Fault Refusal :=
  s.commit (effRngClean agent s)

/-- RNG_INVALIDATE (R293). -/
def execRngInvalidate (agent : Nat) (s : State) : Host.Outcome State Fault Refusal :=
  s.commit (effRngInvalidate agent s)

/-- RNG_CLEAN_INVALIDATE (R293). -/
def execRngCleanInvalidate (agent : Nat) (s : State) : Host.Outcome State Fault Refusal :=
  s.commit (effRngCleanInvalidate agent s)

/-- RANGE_OP_DONE (R293). -/
def execRangeOpDone (agent : Nat) (s : State) : Host.Outcome State Fault Refusal :=
  s.commit (effRangeOpDone agent s)

/-- CACHE_DISABLE (R295). -/
def execCacheDisable (agent : Nat) (s : State) : Host.Outcome State Fault Refusal :=
  s.commit (effCacheDisable agent s)

/-- CACHE_ENABLE (R295). -/
def execCacheEnable (agent : Nat) (s : State) : Host.Outcome State Fault Refusal :=
  s.commit (effCacheEnable agent s)

/-- ZICBOP_PREFETCH (R292). -/
def execZicbopPrefetch (hart addr : Nat) (write : Bool) (s : State) : Host.Outcome State Fault Refusal :=
  s.commit (effZicbopPrefetch hart addr write s)

end Sys2Proof.Machine
end

