-- ==== Sys2Proof/Machine/Fab.lean ====
section
/-!
DEFINITION. Sending on Breakwater: ports and their credits (R374), flits that leave (R371, R373), routes (R382, R383),
requests and their tags (R255, R384, R388), and fault reports (R391).
-/
namespace Sys2Proof.Machine

/-! ## Ports -/

/-- A port that has never trained. A channel starts with a full return of credit (log entry 16). -/
def FabPort.reset : FabPort :=
  { txq := [], nextSeq := 0, replay := [], resends := 0, rxLast := 4095, reorder := [], credit := [], owed := [],
    rxCredit := [], width := none, held := false, viol := 0, violAt := none, ident := false, carried := false,
    downAt := none, trained := 0 }

def State.port (s : State) (p : Nat) : FabPort := mapGet FabPort.reset s.fab.ports p

def State.updFab (s : State) (f : Fabric → Fabric) : State := { s with fab := f s.fab }

def State.updPort (s : State) (p : Nat) (f : FabPort → FabPort) : State :=
  s.updFab (fun x => { x with ports := mapSet x.ports p (f (s.port p)) })

/-- The Q-die of a port and its BWF_ block (R368, R394). -/
def portDie (p : Nat) : Nat := 4 + p / 16
def portRef (p : Nat) (f : FieldRef) : FieldRef := f.unit (p % 16)

/-- BWF_STATUS.STATE codes (R394). -/
def pDISABLED : Nat := 0
def pTRAINING : Nat := 1
def pLOCKING : Nat := 2
def pLINKED : Nat := 3
def pDOWN : Nat := 4

def State.portState (s : State) (p : Nat) : Nat := s.fget (portDie p) (portRef p BWF_STATUS.STATE)

def State.portUp (s : State) (p : Nat) : Bool := p < 32 && s.portState p = pLINKED && s.dieUp (portDie p)

/-! ## Channels -/

/-- Message types (R377). -/
def mRD : Nat := 0x01
def mWRFULL : Nat := 0x02
def mWRMASK : Nat := 0x03
def mATOM : Nat := 0x04
def mGLZ : Nat := 0x05
def mWRREG : Nat := 0x06
def mRSPDATA : Nat := 0x10
def mRSPACK : Nat := 0x11
def mRSPOLD : Nat := 0x12
def mRSPPENDING : Nat := 0x13
def mNAK : Nat := 0x14
def mCTL : Nat := 0x20
def mCOL : Nat := 0x30

def FabMsg.isRequest (m : FabMsg) : Bool := 1 ≤ m.typ && m.typ ≤ 6
def FabMsg.isResponse (m : FabMsg) : Bool := 0x10 ≤ m.typ && m.typ ≤ 0x14

/-- The virtual channel in which a message crosses its next link (R374). -/
def FabMsg.chan (m : FabMsg) : Nat :=
  if m.isRequest then 0x0A + min m.hops 7
  else if m.isResponse then 0x02 + min m.hops 7
  else if m.typ = mCOL then 0x01
  else 0x00

/-- Units that a message fills: its header and the units that follow. -/
def FabMsg.size (m : FabMsg) : Nat := 1 + m.units.length

/-- The most that one credit return can carry (R371), the credit of a channel at the start (log entry 16). -/
def fullCredit : Nat := 2047

def FabPort.creditOf (t : FabPort) (c : Nat) : Nat := mapGet fullCredit t.credit c

/-- The flit slots that a port carries in `ns` nanoseconds: 826.7 million a second at ×8, half of that at ×4 (R18, R422). The
fraction of a slot is dropped (log entry 60). -/
def State.flitSlots (s : State) (p ns : Nat) : Nat :=
  ns * 8267 / (if s.fget (portDie p) (portRef p BWF_STATUS.WIDTH) = 3 then 10000 else 20000)

/-- Whether the port's present flit slot is owned by collective traffic: one of the first ⌊SHARE × slots ÷ 16⌋ slots of its
Q-die's tick, while COL_CTRL.SCHED reads 1 (R422). -/
def State.slotOwned (s : State) (p : Nat) : Bool :=
  let tick := 2 ^ s.tickShift
  s.fbit shDie COL_CTRL.SCHED &&
    decide (s.flitSlots p (s.tmkNs (portDie p) % tick) < s.fget shDie COL_CTRL.SHARE * s.flitSlots p tick / 16)

/-- The message that a port sends next: CTL before every other channel (R374), then, in an owned slot, a COL message that is ready
(R422), then the others in order. -/
def FabPort.next (t : FabPort) (owned : Bool) : Option ((Nat × FabMsg) × List (Nat × FabMsg)) :=
  if t.held || 1024 ≤ t.replay.length then none
  else
    let ok := fun (x : Nat × FabMsg) => x.2.size ≤ t.creditOf x.1
    match takeFirst (fun x => x.1 = 0 && ok x) t.txq with
    | some r => some r
    | none =>
      match takeFirst (fun x => owned && x.1 = 1 && ok x) t.txq with
      | some r => some r
      | none => takeFirst ok t.txq

/-- The credit returns of a flit that leaves: at most four channels, each at most 2,047 units (R371). -/
def FabPort.returns (t : FabPort) : List (Nat × Nat) := ((t.owed.filter (fun c => c.2 ≠ 0)).take 4).map (fun c => (c.1, min c.2 fullCredit))

/-- A port once those returns have left. -/
def FabPort.returned (t : FabPort) : FabPort :=
  t.returns.foldl (fun u c =>
    { u with owed := mapSet u.owed c.1 (mapGet 0 u.owed c.1 - c.2),
             rxCredit := mapSet u.rxCredit c.1 (mapGet fullCredit u.rxCredit c.1 + c.2) }) t

/-- Payload flits leave while messages and credit last (R373, R374); a flit carries one message (log entry 16). -/
def State.pumpN (s : State) (p : Nat) : Nat → State
  | 0 => s
  | n + 1 =>
    let t := s.port p
    match t.next (s.slotOwned p) with
    | none => s
    | some (x, rest) =>
      let s1 := s.updPort p (fun u =>
        { u.returned with
          txq := rest, nextSeq := (t.nextSeq + 1) % 4096, replay := t.replay ++ [(t.nextSeq, [x])],
          credit := mapSet t.credit x.1 (t.creditOf x.1 - x.2.size), carried := true })
      ((s1.pmuEvent (portDie p) 0x208 1).emit (.flit p t.nextSeq t.rxLast t.returns [x.2])).pumpN p n

/-- Everything that may leave a port leaves. -/
def State.pump (s : State) (p : Nat) : State := if s.portUp p then s.pumpN p (s.port p).txq.length else s

/-- The unit of an IDENT (R378). -/
def State.identUnit (s : State) (p : Nat) : Nat :=
  Config.serial.toNat * 2 ^ 80 + s.fget shDie PKG_ID.LOC_ID * 2 ^ 68 + p * 2 ^ 63 + s.fget shDie PKG_ID.ID_VALID * 2 ^ 62 +
    s.fget shDie PKG_ID.ID * 2 ^ 50 + effectiveLevel * 2 ^ 42

/-- A CTL message of a subtype (R377). -/
def ctlMsg (sub addr : Nat) (units : List Nat) : FabMsg :=
  { typ := mCTL, hops := 0, dst := 0, src := 0, tag := 0, agent := 0, aux := sub, addr := addr, units := units }

def cIDENT : Nat := 0x01
def cIDENTACK : Nat := 0x02
def cDRREQ : Nat := 0x03
def cDRRSP : Nat := 0x04
def cREPORT : Nat := 0x05
def cTICK : Nat := 0x08

/-- A message handed to a port: it leaves when credit allows. After its first payload flit the port sends IDENT
(R378). -/
def State.sendPort (s : State) (p : Nat) (m : FabMsg) : State :=
  let put := fun (t : State) (x : FabMsg) =>
    let u := t.updPort p (fun y => { y with txq := y.txq ++ [(x.chan, x)] })
    u.pump p
  let first := !(s.port p).carried
  let s1 := put s m
  if first && (s1.port p).carried then put (s1.updPort p (fun y => { y with ident := true })) (ctlMsg cIDENT 0 [s1.identUnit p])
  else s1

/-! ## Routes -/

/-- PKG_ID.ID, once valid (R24). -/
def State.ownId (s : State) : Nat := s.fget shDie PKG_ID.ID
def State.idValid (s : State) : Bool := s.fbit shDie PKG_ID.ID_VALID

/-- The route entry of a destination (R382). -/
def State.routeWord (s : State) (dst : Nat) : Word := s.rd shDie 0x120 (8 * dst)

/-- The candidate ports of a destination, in their order; none where the entry is not valid (R382). -/
def State.candidates (s : State) (dst : Nat) : List Nat :=
  let w := s.routeWord dst
  if bitAt w 63 then (List.range (bits w 31 30 + 1)).map (fun i => bits w (9 + 5 * i) (5 + 5 * i)) else []

/-- The candidate of one Q-die with the most credit free in the channel, the lowest-listed on a tie (R383). -/
def State.bestPort (s : State) (q chan : Nat) (cs : List Nat) : Option Nat :=
  (cs.filter (fun p => portDie p = q && s.portUp p)).foldl (fun acc p =>
    match acc with
    | none => some p
    | some b => if (s.port b).creditOf chan < (s.port p).creditOf chan then some p else some b) none

/-- The port by which a Q-die sends a message about an address for a destination: its own candidates, then those of the other Q-die
where the message gets there (R17, R252, R383). -/
def State.route (s : State) (q dst chan addr : Nat) : Option Nat :=
  match s.bestPort q chan (s.candidates dst) with
  | some p => some p
  | none =>
    if s.wayOpen (s.way q 0 (peerQ q) 0 (pathBit addr)) then s.bestPort (peerQ q) chan (s.candidates dst) else none

/-- A NAK that answers a request (R389). -/
def nakOf (own code : Nat) (m : FabMsg) : FabMsg :=
  { typ := mNAK, hops := 0, dst := m.src, src := own, tag := m.tag, agent := m.agent, aux := code, addr := m.addr, units := [] }

def nNOID : Nat := 1
def nUNREACHABLE : Nat := 2
def nHOPLIMIT : Nat := 3
def nADDRESS : Nat := 4
def nACCESS : Nat := 5
def nHOME : Nat := 6
def nFENCED : Nat := 7
def nPROTOCOL : Nat := 8

/-- The place in the inbox of what this package answers to itself. -/
def selfPort : Nat := 32

def State.inbox (s : State) (p : Nat) (m : FabMsg) : State := s.updFab (fun x => { x with inbox := x.inbox ++ [(p, m)] })

/-! ## Reports -/

/-- Class codes of R391. -/
def rTIMEOUT : Nat := 1
def rNAK : Nat := 2
def rLINK : Nat := 3
def rPROTOCOL : Nat := 4
def rUNREACHABLE : Nat := 5

/-- The period of a time in ns (R391). -/
def periodOf (ns : Nat) : Nat := ns / 10 ^ 7

/-- A report merged with the entry of its key (R392). -/
def mergeReport (l : List FabReport) (r : FabReport) : List FabReport :=
  if l.any (fun e => e.target = r.target && e.cls = r.cls && e.period = r.period) then
    l.map (fun e =>
      if e.target = r.target && e.cls = r.cls && e.period = r.period then
        { e with count := min 65535 (e.count + r.count), earliest := min e.earliest r.earliest }
      else e)
  else l ++ [r]

/-- The unit of a REPORT (R392); the places of its fields are log entry 17. -/
def FabReport.unit (r : FabReport) : Nat :=
  r.target * 2 ^ 116 + r.cls * 2 ^ 112 + (r.period % 2 ^ 28) * 2 ^ 84 + b2n r.late * 2 ^ 80 + r.count * 2 ^ 64 +
    r.earliest % 2 ^ 64

def FabReport.ofUnit (u : Nat) : FabReport :=
  { target := bitsN u 127 116, cls := bitsN u 115 112, period := bitsN u 111 84, late := bitsN u 80 80 = 1,
    count := bitsN u 79 64, earliest := bitsN u 63 0 }

/-- An event queue entry delivered at the root (R392, R393). -/
def State.rootEvent (s : State) (r : FabReport) : State :=
  if s.fab.events.length < 256 then s.updFab (fun x => { x with events := x.events ++ [r] })
  else s.finc s.arb BWF_REQ_CNT.EVT_DROP

/-- A merged entry or a late report leaves toward the root, or is delivered there (R392). -/
def State.reportUp (s : State) (r : FabReport) : State :=
  if s.fbit shDie BWF_REPORT.ROOT then s.rootEvent r
  else s.sendPort (s.fget shDie BWF_REPORT.PARENT_PORT) (ctlMsg cREPORT 0 [r.unit])

/-- A report reaches this package's collective engine: merged with its period, or sent on alone with LATE where the period
has been forwarded (R392). -/
def State.takeReport (s : State) (r : FabReport) : State :=
  if r.period < s.fab.forwarded then s.reportUp { r with late := true }
  else s.updFab (fun x => { x with merged := mergeReport x.merged r })

/-- A Q-die's fault event: one report per (target, class) and period, at most 256 keys (R391). -/
def State.faultReport (s : State) (q target cls : Nat) : State :=
  if !s.fbit shDie BWF_REPORT.EN then s
  else
    let t := s.tmkNs q
    let k : FabReport := ⟨target, cls, periodOf t, 1, t, false⟩
    let mine := s.fab.keys.filter (fun e => e.1 = q && e.2.period = k.period)
    if mine.any (fun e => e.2.target = target && e.2.cls = cls) then s
    else if 256 ≤ mine.length then s.finc q BWF_REQ_CNT.DROP_CNT
    else
      let s1 := s.updFab (fun x => { x with keys := x.keys.filter (fun e => e.2.period = k.period || e.1 ≠ q) ++ [(q, k)] })
      s1.takeReport k

/-! ## Requests -/

/-- The agent numbers of this package on Breakwater (log entry 16). -/
def agHart (h : Nat) : Nat := h
def agCore (die core : Nat) : Nat := 0x100 + die * 64 + core
def agQueue (n : Nat) : Nat := 0x200 + n % 0x200

/-- The agent number under which collective messages travel, so that a NAK finds them (log entry 16). -/
def agCol : Nat := 0x3FF

/-- The destination ID of a package field other than 0 (R223). -/
def State.dstOf (s : State) (f : Nat) : Nat := if f = s.ownId then 0 else f

/-- The destination that stands for a companion site, beyond the IDs of packages (R453). -/
def siteDst (site : Nat) : Nat := 4096 + site

/-- A message put on its way from a Q-die or to a companion site. A request or collective message with no route is answered UNREACHABLE (R383): here
where it is this package's, else on the way to its source. -/
def State.dispatch (s : State) (q : Nat) (m : FabMsg) : State :=
  if siteDst 0 ≤ m.dst then s.emit (.site (m.dst - siteDst 0) { m with dst := 0, src := 0 })
  else match s.route q m.dst m.chan m.addr with
  | some p => s.sendPort p m
  | none =>
    if m.isRequest || m.typ = mCOL then
      let s1 := s.faultReport q m.dst rUNREACHABLE
      if m.src = s.ownId then s1.inbox selfPort (nakOf m.dst nUNREACHABLE m)
      else
        let n := nakOf s.ownId nUNREACHABLE m
        match s1.route q n.dst n.chan n.addr with
        | some p => s1.sendPort p n
        | none => s1
    else s

/-- The line of a message's address. -/
def FabMsg.line (m : FabMsg) : Nat := m.addr / 64

/-- Two requests of one agent to one line of one package (R384). -/
def sameLine (a b : FabMsg) : Bool := a.agent = b.agent && a.dst = b.dst && a.line = b.line

/-- A request of this package: it gets a tag, and leaves unless its agent has one outstanding to the same line
(R255, R384). -/
def State.fabAsk (s : State) (q : Nat) (origin : FabOrigin) (m : FabMsg) : State :=
  let m1 := { m with tag := s.fab.nextTag, src := s.ownId, hops := 0 }
  let waits := s.fab.reqs.any (fun r => sameLine r.msg m1)
  let r : FabReq := ⟨q, m1, s.now, origin, !waits⟩
  let s1 := s.updFab (fun x => { x with reqs := x.reqs ++ [r], nextTag := (x.nextTag + 1) % 65536 })
  if waits then s1 else s1.dispatch q m1

/-- Requests whose line is free again leave (R384). -/
def State.fabNext (s : State) (m : FabMsg) : State :=
  match s.fab.reqs.find? (fun r => sameLine r.msg m) with
  | some r =>
    if r.sent then s
    else
      let s1 := s.updFab (fun x =>
        { x with reqs := x.reqs.map (fun y => if y.msg.tag = r.msg.tag then { y with sent := true, at_ := s.now } else y) })
      s1.dispatch r.q r.msg
  | none => s

/-- A request taken off the list by its tag. -/
def State.fabTake (s : State) (tag agent : Nat) : Option (FabReq × State) :=
  match takeFirst (fun r => decide (r.msg.tag = tag && r.msg.agent = agent && r.sent)) s.fab.reqs with
  | some (r, rest) => some (r, s.updFab (fun x => { x with reqs := rest }))
  | none => none

/-- A read request for a line. -/
def rdMsg (agent dst addr : Nat) : FabMsg :=
  { typ := mRD, hops := 0, dst := dst, src := 0, tag := 0, agent := agent, aux := 0, addr := addr / 64 * 64, units := [] }

/-- Bytes as 128-bit units. -/
def unitsOf (bs : List Byte) : List Nat := (chunksOf 16 ((bs.length + 15) / 16) bs).map leNat

/-- The bytes of units. -/
def unitBytes (us : List Nat) : List Byte := us.flatMap (leBytes 16)

/-- A write request of bytes within one line: WR_FULL, or WR_MASK with its byte mask (R377, R386). -/
def wrMsg (agent dst addr : Nat) (bs : List Byte) : FabMsg :=
  let off := addr % 64
  let line := List.replicate off (0 : Byte) ++ bs ++ List.replicate (64 - off - bs.length) (0 : Byte)
  let full := off = 0 && bs.length = 64
  { typ := if full then mWRFULL else mWRMASK, hops := 0, dst := dst, src := 0, tag := 0, agent := agent, aux := 0,
    addr := addr / 64 * 64,
    units := (if full then [] else [(2 ^ bs.length - 1) * 2 ^ off]) ++ unitsOf line }

/-- A write of the masked bytes of a line. -/
def wrMaskMsg (agent dst addr : Nat) (line : List Byte) (mask : Nat) : FabMsg :=
  { typ := if mask = fullLine then mWRFULL else mWRMASK, hops := 0, dst := dst, src := 0, tag := 0, agent := agent, aux := 0,
    addr := addr / 64 * 64, units := (if mask = fullLine then [] else [mask]) ++ unitsOf line }

/-- An atomic request (R377, R387). -/
def atomMsg (agent dst addr code operand compare : Nat) : FabMsg :=
  { typ := mATOM, hops := 0, dst := dst, src := 0, tag := 0, agent := agent, aux := code, addr := addr,
    units := [operand % 2 ^ 64 + compare % 2 ^ 64 * 2 ^ 64] }

/-- The fabric completion timeout in units of 0.1 ns (R325). -/
def State.fabTimeout (s : State) : Nat :=
  max 100 (min 100000 (s.fget shDie PKG_FAB_TIMEOUT.TIMEOUT_US)) * 10000

end Sys2Proof.Machine
end

