-- ==== Sys2Proof/Machine/HartOps.lean ====
section
/-!
DEFINITION. The Headland harts' memory side (chapter 11): the store buffer, the non-temporal buffer, fences, reservations,
atomics and cache-block operations, failed stores, and offlining, MSIs, the machine timer and debug (chapter 12).
-/
namespace Sys2Proof.Machine

/-! ## Which accesses are performed -/

/-- Is a companion site admitted (R451, R461)? -/
def State.admitted (s : State) (site : Nat) : Bool :=
  s.fget (4 + site) UCI_STATUS.STATE = 4 && s.fget (4 + site) UCI_STATUS.RESULT = 0

/-- The windows of a site's descriptor: offset and size (R452, R464). -/
def State.siteWindows (s : State) (site : Nat) : List (Nat × Nat) :=
  (List.range 4).map (fun i =>
    ((s.rd (4 + site) 0x160 (0x100 + 8 * (4 + 2 * i))).toNat, (s.rd (4 + site) 0x160 (0x100 + 8 * (5 + 2 * i))).toNat))

/-- Do all `n` bytes at a local address lie in one range of R218, within its populated part (R220)? -/
def State.populated (s : State) (a n : Nat) : Bool :=
  let last := a + n - 1
  match regionOf a, regionOf last with
  | .stack .., .stack .. | .shelf _, .shelf _ | .tidal _, .tidal _ =>
    s.placeOfAddr a ≠ .nowhere && s.placeOfAddr last ≠ .nowhere
  | .host q _, .host q' _ => s.fbit (4 + q) HPU_STATUS.IN_SERVICE && s.fbit (4 + q') HPU_STATUS.IN_SERVICE
  | .slab d _ _, .slab d' _ _ => d < 4 && d' < 4
  | .sbuf _ _, .sbuf _ _ => true
  | .companion c o, .companion c' o' =>
    c = c' && s.admitted c && (s.siteWindows c).any (fun w => w.1 ≤ o && o' < w.1 + w.2)
  | .registers _, .registers _ => true
  | _, _ => false

/-- May a 56-bit address be issued: local and populated, or of another package while PKG_ID is valid (R220, R223)? -/
def State.issuable (s : State) (a n : Nat) : Bool :=
  if a < 2 ^ 44 then s.populated a n else a < 2 ^ 56 && s.idValid

/-- The attribute of a local address by the table in force on a die (R227, R228). -/
def State.attr (s : State) (die a : Nat) : AttrClass × Nat := attrIn (mapGet [] s.rat die) a

/-- Is an address, local or global, of memory kind (R307)? -/
def isMemKind (a : Nat) : Bool :=
  match regionOf (a % 2 ^ 44) with
  | .stack .. | .shelf _ | .tidal _ | .host .. => true
  | _ => false

/-- The die of a hart, and whether it executes: it runs, and its die is up (R340). -/
def hartDie (h : Nat) : Nat := 4 + h / 32
def hlRef (h : Nat) (f : FieldRef) : FieldRef := f.unit (h % 32)
def State.hlState (s : State) (h : Nat) : Nat := s.fget (hartDie h) (hlRef h HL_CTRL.STATE)
def State.hartRuns (s : State) (h : Nat) : Bool :=
  h < 64 && s.hlState h = 0 && s.dieUp (hartDie h) && !s.fbit 4 LHT_BOOT.HALTED

/-- The identity that a hart reads by CSR number (R327): mvendorid, marchid, mimpid and mhartid. -/
def hartIdentity (h csr : Nat) : Option Word :=
  if csr = 0xF11 then some 0
  else if csr = 0xF12 then some 0x8000000000000B08
  else if csr = 0xF13 then some (Config.qStepping.setWidth 64)
  else if csr = 0xF14 then some (BitVec.ofNat 64 h)
  else none

/-- The bit of an access in a FENCE set: r 1, w 2, i 4, o 8 (R307). -/
def fenceBit (mem write : Bool) : Nat := (if mem then 1 else 4) * (if write then 2 else 1)

/-- Is a store of memory kind: by its address, but PBMT IO makes it I/O (R307, R329)? -/
def SbEnt.memKind (e : SbEnt) : Bool := isMemKind e.addr && e.pbmt ≠ 2

/-- Is a hart's access held back by a FENCE whose successor set names it, or by an mdrain (R310, R315)? -/
def State.fencedKind (s : State) (h : Nat) (mem write : Bool) : Bool :=
  (s.hart h).mdrain ||
  (match (s.hart h).fence with
   | some f => f / 16 &&& fenceBit mem write ≠ 0
   | none => false)

def State.fenced (s : State) (h a : Nat) (write : Bool) : Bool := s.fencedKind h (isMemKind a) write

/-! ## The store buffer -/

/-- A store's bytes as a line with its byte mask. -/
def SbEnt.line (e : SbEnt) : Nat := e.addr / 64
def SbEnt.lineData (e : SbEnt) : List Byte :=
  (List.replicate (e.addr % 64) (0 : Byte) ++ e.data ++ List.replicate 64 (0 : Byte)).take 64
def SbEnt.lineMask (e : SbEnt) : Nat := e.mask * 2 ^ (e.addr % 64) % 2 ^ 64

/-- A store retires into the store buffer with a PBMT, 3 for a non-temporal entry (R308, R311, R329). -/
def State.retireAs (s : State) (h a : Nat) (d : List Byte) (mask pbmt : Nat) : State :=
  s.updHart h (fun x =>
    let e : SbEnt := ⟨x.nextId, a, d, mask, false, pbmt⟩
    { x with stores := x.stores ++ [e], nextId := x.nextId + 1 })

/-- A scalar store cut at line boundaries. -/
def State.retireAll (s : State) (h a : Nat) (d : List Byte) (pbmt : Nat) : State :=
  let k := min d.length (64 - a % 64)
  let s1 := s.retireAs h a (d.take k) (2 ^ k - 1) pbmt
  if k < d.length then s1.retireAs h (a + k) (d.drop k) (2 ^ (d.length - k) - 1) pbmt else s1

/-- The entry has left the hart. -/
def State.markSent (s : State) (h id : Nat) : State :=
  s.updHart h (fun x => { x with stores := x.stores.map (fun e => if e.id = id then { e with sent := true } else e) })

/-- The hart's class at its SLC (R288). -/
def State.hartClass (s : State) (h : Nat) : Nat := s.classOf (h / 32) (h % 32)

/-- A store leaves as a write of its home: WR_INV or WR_WT (R290, R308). Earlier bytes of the line in the merging buffer leave
before it. -/
def State.storeHome (s : State) (h : Nat) (e : SbEnt) (k : MsgKind) : State :=
  ((s.drainMerge (h / 32) (fun m => m.line = e.line)).markSent h e.id).sendWrite
    (s.withClass (hartDie h) { mkMsg k (h / 32) e.line with data := e.lineData, mask := e.lineMask }) [(h, e.id)] []

/-- Stores with global addresses that have left a hart (R308). -/
def State.globalOut (s : State) (h : Nat) : Nat := ((s.hart h).stores.filter (fun e => e.isGlobal && e.sent)).length

/-- Is a local address in the register range (R218)? -/
def isRegRange (a : Nat) : Bool := match regionOf a with | .registers _ => true | _ => false

/-- A store to another package or to a companion leaves as a request; the 33rd with a global address waits (R224, R308). -/
def State.storeRemote (s : State) (h : Nat) (e : SbEnt) (dst at_ : Nat) : State :=
  if e.isGlobal && 32 ≤ s.globalOut h then s
  else if e.isGlobal && isRegRange at_ && e.addr % 8 = 0 && e.mask = 0xFF then
    (s.markSent h e.id).fabAsk (hartDie h) (.hartStore h e.id e.addr)
      { typ := mWRREG, hops := 0, dst := dst, src := 0, tag := 0, agent := agHart h, aux := 0, addr := at_,
        units := [leNat (e.data.take 8)] }
  else
    (s.markSent h e.id).fabAsk (hartDie h) (.hartStore h e.id e.addr)
      (wrMaskMsg (agHart h) dst at_ e.lineData e.lineMask)

/-- A store to a local memory address goes to the SLC or to its home, by class, PBMT and POLICY (R290, R295, R308, R329). It waits
while a write-back of its line is on its way (R281); a line held in M is cleaned before it is written through. -/
def State.storeLocal (s : State) (h : Nat) (e : SbEnt) : State :=
  let a := h / 32
  let at_ := s.attr (hartDie h) (e.addr % 2 ^ 44)
  let st := (s.held a e.line).map (·.st)
  let r : Mshr := { agent := a, line := e.line, side := false, cls := s.hartClass h, hart := some h, op := .store,
                    addr := e.addr, len := e.lineMask, data := e.lineData, code := e.id, sent := false }
  if (mapFind (s.cache a).wb e.line).isSome then s
  else if at_.1 ≠ .coherent || !s.cacheOn a then s.storeHome h e .wrInv
  else if e.pbmt ≠ 0 || at_.2 = 2 || (at_.2 = 0 && s.waysOf a (s.hartClass h) = []) then
    (if st = some .e || st = some .m then s.tryLine r else (s.dropLine a e.line).storeHome h e .wrInv)
  else if at_.2 = 0 then (s.markSent h e.id).tryLine r
  else if st = some .m then s.rangeLine a 1 e.line
  else if at_.2 = 1 then (s.updateCopy a e.line e.lineData e.lineMask).storeHome h e .wrWt
  else (s.mergeStore a e.line (e.addr % 64) e.data h).storeDone h e.id

/-! ## The non-temporal buffer -/

/-- The package that an address field names, as this package sees it: none for this package (R223). -/
def State.remoteOf (s : State) (a : Nat) : Option Nat := if a / 2 ^ 44 = 0 then none else some (s.dstOf (a / 2 ^ 44))

/-- A non-temporal entry drains: it stands in the store buffer as a no-allocate write until it is performed (R311). -/
def State.ntOut (s : State) (h : Nat) (n : NtEnt) : State := (s.retireAs h (n.line * 64) n.data n.mask 3).hartEvent h 0x16 1

/-- Entries that `p` selects drain oldest first (R311). -/
def State.drainNt (s : State) (h : Nat) (p : NtEnt → Bool) : State :=
  let es := (s.hart h).nt
  (es.filter p).foldl (fun t e => t.ntOut h e) (s.updHart h (fun x => { x with nt := es.filter (fun e => !p e) }))

/-- The entry of a line that an access without a hint touches drains first (R311). -/
def State.drainNtLine (s : State) (h a : Nat) : State := s.drainNt h (fun e => e.line = a / 64)

/-- Does the hart's L1 hold a line in E or M? -/
def State.l1Owned (s : State) (h line : Nat) : Bool :=
  (mapGet [] s.l1 (l1Key (h / 32) line)).any (fun x => x.1 = h && x.2)

/-- Bytes stored into a non-temporal entry, whose mask gains them (R311). -/
def NtEnt.put (e : NtEnt) (off : Nat) (data : List Byte) : NtEnt :=
  { e with data := putBytes e.data off data, mask := e.mask ||| ((2 ^ data.length - 1) * 2 ^ off) }

/-- The part of a non-temporal store that lies in one line: it merges into the buffer, where the oldest entry makes room for a ninth; a line
that the hart's L1 holds in E or M takes an ordinary store (R311). -/
def State.ntPut (s : State) (h a : Nat) (data : List Byte) : State :=
  if s.l1Owned h (a / 64) then s.retireAll h a data 0
  else
    let es := (s.hart h).nt
    let off := a % 64
    if es.any (fun e => e.line = a / 64) then
      s.updHart h (fun x => { x with nt := x.nt.map (fun e => if e.line = a / 64 then e.put off data else e) })
    else
      let s1 :=
        match es with
        | old :: _ => if 8 ≤ es.length then s.drainNt h (fun e => e.line = old.line) else s
        | [] => s
      let fresh : NtEnt := ⟨a / 64, List.replicate 64 0, 0⟩
      s1.updHart h (fun x => { x with nt := x.nt ++ [fresh.put off data] })

/-- NT_STORE (R311). -/
def effNtStore (hart addr : Nat) (data : List Byte) (s : State) : State :=
  if !s.hartRuns hart || s.fenced hart addr true then s
  else if !s.issuable addr data.length then s.hartTrap hart 7 addr
  else if !isMemKind addr then s.retireAll hart addr data 0
  else
    let k := min data.length (64 - addr % 64)
    let s1 := s.ntPut hart addr (data.take k)
    if k < data.length then s1.ntPut hart (addr + k) (data.drop k) else s1

/-- NT_IDLE_DRAIN (R311): 256 cycles with no store accepted drain the whole buffer. -/
def effNtIdleDrain (hart : Nat) (s : State) : State :=
  if hart < 64 && s.dieUp (hartDie hart) then s.drainNt hart (fun _ => true) else s

/-! ## Fences -/

/-- The hart's entries in the merging buffer drain (R291). -/
def State.fenceMerge (s : State) (hart : Nat) : State := s.drainMerge (hart / 32) (fun e => e.harts.contains hart)

/-- Does a drained merge of a hart's stores await its RSP_CMP, or one that is due its drain (R291)? -/
def State.mergesOut (s : State) (hart : Nat) : Bool :=
  let c := s.cache (hart / 32)
  c.outs.any (fun o => o.harts.contains hart) || c.merge.any (fun e => e.due && e.harts.contains hart)

/-- FENCE (R310): it waits for its predecessors; the hart's non-temporal entries, and its entries in the merging buffer,
drain (R291, R311). `pred` and `succ` hold r 1, w 2, i 4, o 8. -/
def effFence (hart pred succ : Nat) (s : State) : State :=
  if !s.hartRuns hart || (s.hart hart).fence ≠ none || (s.hart hart).mdrain then s
  else
    let f := pred % 16 + 16 * (succ % 16)
    let s1 := s.updHart hart (fun x => { x with fence := some f })
    if pred / 2 % 2 = 1 then (s1.drainNt hart (fun _ => true)).fenceMerge hart
    else s1

/-- Does a hart still wait for a load of a kind (R310)? -/
def State.loadsOut (s : State) (h : Nat) (mem : Bool) : Bool :=
  s.mshrs.any (fun r => r.hart = some h && (r.op = .load || r.op = .lr || r.op = .amo || r.op = .sc) && (r.io = !mem)) ||
  s.fab.reqs.any (fun r =>
    match r.origin with
    | .hartLoad x a _ _ _ | .hartAmo x a _ => x = h && isMemKind a = mem
    | _ => false) ||
  (mem && s.ios.any (fun r => match r.who with | .hart x _ _ => decide (x = h) | _ => false)) ||
  (!mem && s.sites.any (fun e => e.2.side.any (fun p => p.1 = .hart h && !p.2.2)))

/-- Is every predecessor of a FENCE performed or failed (R310, R314)? -/
def State.fenceMet (s : State) (h pred : Nat) : Bool :=
  let x := s.hart h
  let bit := fun (b : Nat) => pred / b % 2 = 1
  (!bit 2 || (x.nt = [] && x.wbWait = [] && !s.mergesOut h && !x.stores.any (fun e => e.memKind))) &&
  (!bit 8 || !x.stores.any (fun e => !e.memKind)) &&
  (!bit 1 || !s.loadsOut h true) && (!bit 4 || !s.loadsOut h false)

/-- FENCE_COMPLETE (R310). -/
def effFenceComplete (hart : Nat) (s : State) : State :=
  match (s.hart hart).fence with
  | some f => if s.fenceMet hart (f % 16) then s.updHart hart (fun x => { x with fence := none }) else s
  | none => s

/-! ## Failed stores -/

/-- A store of a hart fails with a KIND of R326; it is recorded by REMOTE_STORE_FAILURE. -/
def State.storeFails (s : State) (h id kind addr : Nat) : State :=
  s.updHart h (fun x => { x with failing := x.failing ++ [(id, kind, addr)] })

/-- REMOTE_STORE_FAILURE (R314, R326): the error is recorded, FAILED advances, and interrupt 16 is pending. An offlining
hart takes no interrupt (R337). -/
def effRemoteStoreFailure (hart : Nat) (s : State) : State :=
  match (s.hart hart).failing with
  | [] => s
  | (id, kind, addr) :: rest =>
    let d := hartDie hart
    let s1 :=
      if s.fbit d (hlRef hart HL_REMOTE_ERR.VALID) then s
      else s.fsets d
        [(hlRef hart HL_REMOTE_ERR.VALID, 1), (hlRef hart HL_REMOTE_ERR.KIND, kind),
         (hlRef hart HL_REMOTE_ERR.PKG, addr / 2 ^ 44), (hlRef hart HL_REMOTE_ERR.LINE, addr % 2 ^ 44 / 64)]
    let s2 := s1.updHart hart (fun x =>
      { x with failing := rest, failed := (x.failed + 1) % 2 ^ 32, irq16 := true })
    s2.storeDone hart id

/-! ## Reservations and atomics -/

/-- Does a hart's store buffer hold a store to the line of an address? Atomics, reservations and cache-block operations wait for it
(R308, R311). -/
def State.ownStores (s : State) (h a : Nat) : Bool := (s.hart h).stores.any (fun e => e.addr / 64 = a / 64)

/-- Does LR, SC or a local AMO serve an address: coherent, local or in the host window (R312, R313)? -/
def State.atomicOk (s : State) (h a n : Nat) : Bool :=
  a < 2 ^ 44 && s.populated a n && (s.attr (hartDie h) a).1 = .coherent && isMemKind a

/-- A hart's operation on one line. -/
def State.hartReq (s : State) (h a n : Nat) (op : HartOp) (d : List Byte) (code : Nat) : Mshr :=
  { agent := h / 32, line := a / 64, side := false, cls := s.hartClass h, hart := some h, op := op, addr := a, len := n,
    data := d, code := code, sent := false }

/-- LR (R312). `constrained` says that a constrained LR/SC loop runs. -/
def effLr (hart addr len : Nat) (constrained : Bool) (s : State) : State :=
  if !s.hartRuns hart || s.fenced hart addr false then s
  else if len = 0 || addr % len ≠ 0 then s.hartTrap hart 4 addr
  else if !s.atomicOk hart addr len then s.hartTrap hart 5 addr
  else
    let s0 := s.drainNtLine hart addr
    if s0.ownStores hart addr then s0 else s0.tryLine (s.hartReq hart addr len .lr [] (b2n constrained))

/-- SC (R312): it fails at once where no reservation on the granule is held. -/
def effSc (hart addr : Nat) (data : List Byte) (s : State) : State :=
  if !s.hartRuns hart || s.fenced hart addr true then s
  else if data = [] || addr % data.length ≠ 0 then s.hartTrap hart 6 addr
  else if !s.atomicOk hart addr data.length then s.hartTrap hart 7 addr
  else
    let s0 := s.drainNtLine hart addr
    if s0.ownStores hart addr then s0
    else if (s0.hart hart).resv = some (addr / 64) then s0.tryLine (s.hartReq hart addr data.length .sc data 0)
    else
      ((s0.updHart hart (fun x => { x with resv := none, deferring := false })).hartEvent hart 0x17 1).emit
        (.data (.hart hart) addr [1] false)

/-- SNOOP_DEFERRAL_EXPIRY (R312): after 64 cycles the deferred snoop is answered. -/
def effSnoopDeferralExpiry (hart : Nat) (s : State) : State :=
  match (s.hart hart).resv with
  | some line =>
    if !(s.hart hart).deferring then s
    else
      let s1 := s.updHart hart (fun x => { x with deferring := false })
      if s1.deferred (hart / 32) line then s1
      else match s1.takeMsg .snpInv (hart / 32) line with
      | some (_, t) => t.answerSnoop (hart / 32) line true
      | none => s1
  | none => s

/-- The fabric code of an AMO (R387): operations of `amoResult` in 4 or 8 bytes. -/
def amoFabCode (code n : Nat) : Nat :=
  let base := [0x03, 0x00, 0x0A, 0x06, 0x08, 0x0C, 0x0E, 0x10, 0x12].getD code 0x12
  if n = 8 then base + 1 else base

/-- AMO (R313): codes 0 swap, 1 add, 2 xor, 3 and, 4 or, 5 min, 6 max, 7 minu, 8 maxu. -/
def effAmo (hart addr code : Nat) (data : List Byte) (s : State) : State :=
  let n := data.length
  if !s.hartRuns hart || s.fenced hart addr true || s.fenced hart addr false then s
  else if n = 0 || addr % n ≠ 0 then s.hartTrap hart 6 addr
  else
    let s0 := s.drainNtLine hart addr
    match s0.remoteOf addr with
    | some dst =>
      if !s0.issuable addr n then s0.hartTrap hart 7 addr
      else if s0.ownStores hart addr then s0
      else s0.fabAsk (hartDie hart) (.hartAmo hart addr n)
        (atomMsg (agHart hart) dst (addr % 2 ^ 44) (amoFabCode code n) (leNat data) 0)
    | none =>
      if !s0.atomicOk hart addr n then s0.hartTrap hart 7 addr
      else if s0.ownStores hart addr then s0
      else s0.tryLine (s.hartReq hart addr n .amo data code)

/-! ## Cache-block operations -/

/-- How a cbo operation finds its line: performed in the caches, complete at once, or an access fault (R330). -/
def State.cboWay (s : State) (h a : Nat) : Option Bool :=
  if a < 2 ^ 44 then
    if !s.populated a 1 || !isMemKind a then none else some (decide ((s.attr (hartDie h) a).1 = .coherent))
  else if s.issuable a 1 && isMemKind a then some false
  else none

/-- A dirty line written back at the word of a hart: RSP_WBACK ends its wait (R310). -/
def State.cboWb (s : State) (h line : Nat) : State := s.updHart h (fun x => { x with wbWait := x.wbWait ++ [line] })

/-- The common part of cbo.clean, cbo.flush and cbo.inval: `f` acts on a line held in the SLC. -/
def State.cbo (s : State) (h a : Nat) (f : State → CLine → State) : State :=
  if !s.hartRuns h || s.fenced h a true then s
  else match s.cboWay h a with
  | none => s.hartTrap h 7 a
  | some false => s
  | some true =>
    let s0 := (s.drainNtLine h a).drainMerge (h / 32) (fun e => e.line = a / 64)
    match s0.held (h / 32) (a / 64) with
    | some l => if s0.ownStores h a then s0 else f s0 l
    | none => s0

/-- CBO_CLEAN (R330): a dirty copy is written back and stays, clean. -/
def effCboClean (hart addr : Nat) (s : State) : State :=
  s.cbo hart addr (fun t l => if l.st = .m then (t.cboWb hart (addr / 64)).rangeLine (hart / 32) 1 (addr / 64) else t)

/-- CBO_FLUSH (R330): written back where dirty, and removed. -/
def effCboFlush (hart addr : Nat) (s : State) : State :=
  s.cbo hart addr (fun t l =>
    (if l.st = .m then t.cboWb hart (addr / 64) else t).rangeLine (hart / 32) 3 (addr / 64))

/-- CBO_INVAL (R330): removed; `flush` says that CBIE selects flushing. -/
def effCboInval (hart addr : Nat) (flush : Bool) (s : State) : State :=
  s.cbo hart addr (fun t l =>
    if flush then (if l.st = .m then t.cboWb hart (addr / 64) else t).rangeLine (hart / 32) 3 (addr / 64)
    else t.rangeLine (hart / 32) 2 (addr / 64))

/-- CBO_ZERO (R330): the line is obtained in E and holds zeros; outside coherent memory 64 zero bytes are written. -/
def effCboZero (hart addr : Nat) (s : State) : State :=
  if !s.hartRuns hart || s.fenced hart addr true then s
  else match s.cboWay hart addr with
  | none => s.hartTrap hart 7 addr
  | some true =>
    let s0 := s.drainNtLine hart addr
    if s0.ownStores hart addr then s0
    else s0.tryLine (s.hartReq hart (addr / 64 * 64) 64 .zero (List.replicate 64 0) 0)
  | some false => (s.drainNtLine hart addr).retireAs hart (addr / 64 * 64) (List.replicate 64 0) fullLine 0

/-! ## Merral CSRs -/

/-- The exception of an access to a Merral CSR from a privilege below the one listed: 2 illegal, 22 virtual (R332).
Privileges: 0 U, 1 S, 3 M; `virt` for VS and VU. -/
def csrTrap (num priv : Nat) (virt : Bool) : Option Nat :=
  if num = 0x5C0 then (if virt then some 22 else if priv < 1 then some 2 else none)
  else if priv < 3 || virt then some 2
  else none

/-- MDRAIN_WRITE (R291, R315, R333): a CSR write to mdrain (0x7C0) or sdrain (0x5C0). -/
def effMdrainWrite (hart num priv : Nat) (virt : Bool) (s : State) : State :=
  if !s.hartRuns hart || (s.hart hart).mdrain then s
  else match csrTrap num priv virt with
  | some c => s.hartTrap hart c 0
  | none =>
    let s1 := (s.drainNt hart (fun e => 2 ^ 44 ≤ e.line * 64)).updHart hart (fun x => Hart.drained { x with mdrain := true })
    s1.drainMerge (hart / 32) (fun e => e.harts.contains hart)

/-! ## Offlining -/

/-- A hart begins to go offline, or a cause joins the one in progress: the lowest code counts (R337). -/
def State.offline (s : State) (h cause : Nat) : State :=
  if 64 ≤ h || s.hlState h = 3 then s
  else if s.hlState h = 2 then s.updHart h (fun x => { x with stopping := min x.stopping cause })
  else
    let s1 := (s.fset (hartDie h) (hlRef h HL_CTRL.STATE) 2).updHart h (fun x =>
      { x with stopping := cause, resv := none, deferring := false, fence := none, mdrain := false })
    s1.drainNt h (fun _ => true)

/-- MFENCE (R334): the key offlines the hart. -/
def effMfence (hart priv : Nat) (virt : Bool) (key : Word) (s : State) : State :=
  if !s.hartRuns hart then s
  else match csrTrap 0x7C1 priv virt with
  | some c => s.hartTrap hart c 0
  | none => if bits key 15 0 = 0x0FF1 then s.offline hart 2 else s

/-- HART_OFFLINE (R337): HL_CTRL.OFFLINE written 1. -/
def effHartOffline (hart : Nat) (s : State) : State :=
  if 64 ≤ hart then s else (s.fset (hartDie hart) (hlRef hart HL_CTRL.OFFLINE) 1).offline hart 3

/-- HART_OFFLINE_DONE (R337): the stores are performed or failed; the L1 and L2 are emptied into the SLC, where dirty lines
already stand, and the notice is sent. -/
def effHartOfflineDone (hart : Nat) (s : State) : State :=
  let x := s.hart hart
  if 64 ≤ hart || s.hlState hart ≠ 2 || x.stores ≠ [] || x.nt ≠ [] || x.failing ≠ [] then s
  else
    let d := hartDie hart
    let s1 := { s with
      l1 := (s.l1.map (fun (e : Nat × List (Nat × Bool)) => (e.1, e.2.filter (fun (p : Nat × Bool) => decide (p.1 ≠ hart))))).filter
        (fun e => decide (e.2 ≠ [])),
      mshrs := s.mshrs.filter (fun r => r.hart ≠ some hart) }
    let s2 := s1.fsets d [(hlRef hart HL_CTRL.STATE, 3), (hlRef hart HL_CTRL.CAUSE, x.stopping)]
    (s2.logErr d 3 0x08 hart 0x3 x.stopping).notify (s2.rd d (hart % 32) 0x008)

/-! ## Interrupts, time, debug -/

/-- MSI_WRITE (R335, R338): an identity becomes pending in an IMSIC file (0 M, 1 S, 2 to 5 guest), or is discarded and
counted. -/
def effMsiWrite (hart file eiid : Nat) (s : State) : State :=
  if 64 ≤ hart || 6 ≤ file || eiid = 0 || 256 ≤ eiid then s
  else
    let m : Msi := ⟨hart, file, eiid⟩
    let s1 := { s with msis := s.msis.erase m }
    if s.hlState hart = 3 then s1.finc (hartDie hart) (hlRef hart HL_CTRL.MSI_DROP)
    else
      let k := hart * 8 + file
      let v := mapGet 0 s.imsic k
      { s1 with imsic := mapSet s1.imsic k (if v / 2 ^ eiid % 2 = 1 then v else v + 2 ^ eiid) }

/-- The machine timer interrupt of a hart follows its compare value; an offline hart raises nothing (R336, R338). -/
def State.timerCheck (s : State) (h : Nat) : State :=
  let due := (s.rd (hartDie h) (h % 32) 0x010).toNat ≤ s.tmkNs (hartDie h)
  if s.hlState h = 3 then s else s.updHart h (fun x => { x with mtip := due })

/-- MACHINE_TIMER (R336). -/
def effMachineTimer (hart : Nat) (s : State) : State := if hart < 64 then s.timerCheck hart else s

/-- DEBUG_HALT (R339, R340): an authenticated debug module halts a running hart. -/
def effDebugHalt (hart : Nat) (s : State) : State :=
  if s.hartRuns hart && s.debugOn.contains (hartDie hart) then s.fset (hartDie hart) (hlRef hart HL_CTRL.STATE) 1 else s

/-- DEBUG_RESUME (R339, R340). -/
def effDebugResume (hart : Nat) (s : State) : State :=
  if hart < 64 && s.hlState hart = 1 && s.debugOn.contains (hartDie hart) then
    s.fset (hartDie hart) (hlRef hart HL_CTRL.STATE) 0
  else s

/-! ## The commands of this file: each one's effect, committed -/

/-- REMOTE_STORE_FAILURE (R314). -/
def execRemoteStoreFailure (hart : Nat) (s : State) : Host.Outcome State Fault Refusal :=
  s.commit (effRemoteStoreFailure hart s)

/-- FENCE (R310). -/
def execFence (hart pred succ : Nat) (s : State) : Host.Outcome State Fault Refusal :=
  s.commit (effFence hart pred succ s)

/-- FENCE_COMPLETE (R310). -/
def execFenceComplete (hart : Nat) (s : State) : Host.Outcome State Fault Refusal :=
  s.commit (effFenceComplete hart s)

/-- NT_STORE (R311). -/
def execNtStore (hart addr : Nat) (data : List Byte) (s : State) : Host.Outcome State Fault Refusal :=
  s.commit (effNtStore hart addr data s)

/-- NT_IDLE_DRAIN (R311). -/
def execNtIdleDrain (hart : Nat) (s : State) : Host.Outcome State Fault Refusal :=
  s.commit (effNtIdleDrain hart s)

/-- LR (R312). -/
def execLr (hart addr len : Nat) (constrained : Bool) (s : State) : Host.Outcome State Fault Refusal :=
  s.commit (effLr hart addr len constrained s)

/-- SC (R312). -/
def execSc (hart addr : Nat) (data : List Byte) (s : State) : Host.Outcome State Fault Refusal :=
  s.commit (effSc hart addr data s)

/-- SNOOP_DEFERRAL_EXPIRY (R312). -/
def execSnoopDeferralExpiry (hart : Nat) (s : State) : Host.Outcome State Fault Refusal :=
  s.commit (effSnoopDeferralExpiry hart s)

/-- AMO (R313). -/
def execAmo (hart addr code : Nat) (data : List Byte) (s : State) : Host.Outcome State Fault Refusal :=
  s.commit (effAmo hart addr code data s)

/-- CBO_CLEAN (R330). -/
def execCboClean (hart addr : Nat) (s : State) : Host.Outcome State Fault Refusal :=
  s.commit (effCboClean hart addr s)

/-- CBO_FLUSH (R330). -/
def execCboFlush (hart addr : Nat) (s : State) : Host.Outcome State Fault Refusal :=
  s.commit (effCboFlush hart addr s)

/-- CBO_INVAL (R330). -/
def execCboInval (hart addr : Nat) (flush : Bool) (s : State) : Host.Outcome State Fault Refusal :=
  s.commit (effCboInval hart addr flush s)

/-- CBO_ZERO (R330). -/
def execCboZero (hart addr : Nat) (s : State) : Host.Outcome State Fault Refusal :=
  s.commit (effCboZero hart addr s)

/-- MDRAIN_WRITE (R315). -/
def execMdrainWrite (hart num priv : Nat) (virt : Bool) (s : State) : Host.Outcome State Fault Refusal :=
  s.commit (effMdrainWrite hart num priv virt s)

/-- MFENCE (R334). -/
def execMfence (hart priv : Nat) (virt : Bool) (key : Word) (s : State) : Host.Outcome State Fault Refusal :=
  s.commit (effMfence hart priv virt key s)

/-- HART_OFFLINE (R337). -/
def execHartOffline (hart : Nat) (s : State) : Host.Outcome State Fault Refusal :=
  s.commit (effHartOffline hart s)

/-- HART_OFFLINE_DONE (R337). -/
def execHartOfflineDone (hart : Nat) (s : State) : Host.Outcome State Fault Refusal :=
  s.commit (effHartOfflineDone hart s)

/-- MSI_WRITE (R338). -/
def execMsiWrite (hart file eiid : Nat) (s : State) : Host.Outcome State Fault Refusal :=
  s.commit (effMsiWrite hart file eiid s)

/-- MACHINE_TIMER (R336). -/
def execMachineTimer (hart : Nat) (s : State) : Host.Outcome State Fault Refusal :=
  s.commit (effMachineTimer hart s)

/-- DEBUG_HALT (R339). -/
def execDebugHalt (hart : Nat) (s : State) : Host.Outcome State Fault Refusal :=
  s.commit (effDebugHalt hart s)

/-- DEBUG_RESUME (R339). -/
def execDebugResume (hart : Nat) (s : State) : Host.Outcome State Fault Refusal :=
  s.commit (effDebugResume hart s)

end Sys2Proof.Machine
end

