-- ==== Sys2Proof/Machine/HostIo.lean ====
section
/-!
DEFINITION. CXL.io requests of the package: non-coherent accesses to a host window and accesses in a P2P window (R225,
R438, R444).
-/
namespace Sys2Proof.Machine

def HostPort.reset : HostPort :=
  { hdm := [], hdmErr := [], downAt := none, tlps := [], msix := [], pba := [], viol := 0, violAt := none }

/-- The host port of Q0 (0) or Q1 (1). -/
def State.hostPort (s : State) (q : Nat) : HostPort := mapGet HostPort.reset s.host q

def State.updHost (s : State) (q : Nat) (f : HostPort → HostPort) : State :=
  { s with host := mapSet s.host q (f (s.hostPort q)) }

/-- A register field of a host port. -/
def State.hpu (s : State) (q : Nat) (f : FieldRef) : Nat := s.fget (4 + q) f

/-- The P2P window of a port that covers a local address (R444, R460). -/
def State.p2pOf (s : State) (q a : Nat) : Option Nat :=
  (List.range 8).find? (fun n =>
    let b := s.rd (4 + q) 0x150 (0x200 + 16 * n)
    let l := s.rd (4 + q) 0x150 (0x208 + 16 * n)
    bitAt b 63 && bits b 43 12 * 4096 ≤ a && a < bits l 43 12 * 4096)

/-- The port by which an access to a host window travels as CXL.io, by the table `tb`; none where it travels as CXL.cache or is no access to
a host window (R225, R228, R444). -/
def State.ioPort (s : State) (tb a : Nat) : Option Nat :=
  match regionOf a with
  | .host q _ => if (s.p2pOf q a).isSome || s.nonCoh tb (a / 64) then some q else none
  | _ => none

/-- Can a port send a CXL.io request: its link is up, the host has set Bus Master Enable, and no self-reset runs (R447)? -/
def State.ioUp (s : State) (q : Nat) : Bool :=
  s.dieUp (4 + q) && s.hpu q HPU_STATUS.LINK = 2 && s.fbit (4 + q) HPU_STATUS.BME && !s.fbit (4 + q) HPU_STATUS.RESETTING

/-- What a read by an engine gives: bytes with poison; or it must wait; or the address is refused; or its home is
unavailable. -/
inductive GlzRead where
  | got (bytes : List Byte) (poison : Bool)
  | wait
  | refused
  | lost
  deriving DecidableEq, Repr

/-- A CXL.io read sent. -/
def State.ioAsk (s : State) (q : Nat) (who : IoWho) (a n : Nat) : State :=
  ({ s with ios := s.ios ++ [IoRead.mk q a n who none] }).emit (.hostIo q a n false [])

/-- An engine's CXL.io read: its answer taken, or the read sent and awaited. -/
def State.ioGet (s : State) (q a n : Nat) : GlzRead × State :=
  let same := fun (r : IoRead) => r.who = .engine && r.addr = a && r.len = n
  match takeFirst (fun r => same r && r.answer.isSome) s.ios with
  | some (r, rest) =>
    (match r.answer with
     | some (some d) => (.got d false, { s with ios := rest })
     | _ => (.lost, { s with ios := rest }))
  | none =>
    if s.ios.any same || !s.ioUp q then (.wait, s) else (.wait, s.ioAsk q .engine a n)

/-- A CXL.io write, posted (R444); none while the port cannot send. -/
def State.ioPut (s : State) (q a : Nat) (d : List Byte) : Option State :=
  if s.ioUp q then some (s.emit (.hostIo q a d.length true d)) else none

end Sys2Proof.Machine
end

