-- ==== Sys2Proof/Machine/Translate.lean ====
section
/-!
DEFINITION. Accesses of engines to any local address (R220, R287, R288), and the IOMMUs: the walk of their tables, their command and fault
queues, their interrupts and counters (R232 to R236). The formats, registers and causes of the IOMMU are those of version 1.0 of the
RISC-V IOMMU specification, which R233 names and the spec does not repeat (PRESUMED, log entry 59).
-/
namespace Sys2Proof.Machine

/-! ## Any address -/

/-- Bytes read by an engine from any local address but a register: memory, through the cache of its die where it has a requester ID there,
a slab or a stream buffer. -/
def State.anyRead (s : State) (g : EngCtx) (a n : Nat) : GlzRead × State :=
  if n = 0 then (.got [] false, s)
  else if !s.populated a n then (.refused, s)
  else match regionOf a with
  | .slab die core off =>
    if !s.dieUp die then (.wait, s)
    else if s.isFenced die core then (.refused, s)
    else if s.slabPortBusy die core off n false then (.wait, s)
    else let (d, p, t) := s.slabDynRead die core off n; (.got d p, t)
  | .sbuf die off => if !s.dieUp die then (.wait, s) else (.got (memReadN s.sbuf (die * 2 ^ 24 + off) n) false, s)
  | .stack .. | .shelf _ | .tidal _ | .host .. =>
    match s.ioPort g.tb a, g.via with
    | some q, _ => s.ioGet q a n
    | none, some id =>
      (match s.viaWait g.self a n with
       | some t => (.wait, t)
       | none => let (d, p, t) := s.viaRead g.self id a n srcDynamic; (.got d p, t))
    | none, none =>
      match s.engWait g false a n with
      | some t => (.wait, t)
      | none => let (d, p, t) := s.engRead g a n srcDynamic; (.got d p, t)
  | _ => (.refused, s)

/-- Bytes written by an engine to any local address but a register; a write to a stream buffer is ignored (R84). `none`
refuses; the flag says that recalls come first. -/
def State.anyWrite (s : State) (g : EngCtx) (a : Nat) (d : List Byte) (poison : Bool) : Option (Bool × State) :=
  if d = [] then some (true, s)
  else if !s.populated a d.length then none
  else match regionOf a with
  | .slab die core off =>
    if !s.dieUp die then some (false, s)
    else if s.isFenced die core then none
    else if s.slabPortBusy die core off d.length true then some (false, s)
    else some (true, s.dynSlabPut die core off d (fullMask d.length))
  | .sbuf .. => some (true, s)
  | .stack .. | .shelf _ | .tidal _ | .host .. =>
    match s.ioPort g.tb a with
    | some q =>
      (match s.ioPut q a d with
       | some t => some (true, t)
       | none => some (false, s))
    | none =>
      match s.engWait g.writes true a d.length with
      | some t => some (false, t)
      | none => some (true, s.engWrite g.writes a d poison srcDynamic)
  | _ => none

/-- Bytes read by an engine at a die and router, with its requester ID at the die's cache, where its request gets through (R242, R252,
R288). -/
def State.readFrom (s : State) (die router id a n : Nat) : GlzRead × State :=
  if !s.populated a n || n = 0 then s.anyRead (engVia die id) a n
  else match s.engineReach die router a with
  | none => (.wait, s)
  | some (false, t) => (.lost, t)
  | some (true, t) => t.anyRead (engVia die id) a n

/-- Bytes written by an engine at a die and router; with no route to their home they stay, as with no path (R242, R252, R256). -/
def State.writeFrom (s : State) (die router a : Nat) (d : List Byte) (poison : Bool) : Option (Bool × State) :=
  if !s.populated a d.length || d = [] then s.anyWrite (engOf die) a d poison
  else match s.engineReach die router a with
  | none => some (false, s)
  | some (false, t) => some (false, t)
  | some (true, t) => t.anyWrite (engOf die) a d poison

/-! ## The IOMMU's state and interrupts -/

def iomBlk : Nat := 0x1D0

/-- The requester ID of the table walks of an IOMMU at its SLC (R288). -/
def idIommu : Nat := 32

/-- A register word of an IOMMU. -/
def State.iom (s : State) (q off : Nat) : Nat := (s.rd q iomBlk off).toNat

def Iommu.reset : Iommu := { kept := [], made := 0, msiHeld := [] }

def State.iommuOf (s : State) (q : Nat) : Iommu := mapGet Iommu.reset s.iommus q

def State.updIommu (s : State) (q : Nat) (f : Iommu → Iommu) : State := { s with iommus := mapSet s.iommus q (f (s.iommuOf q)) }

/-- The invalidations that a Q-die's IOMMU has completed. -/
def State.iommuAt (s : State) (q : Nat) : Nat := mapGet 0 s.iommuGen q

/-- The interrupt vector of a cause: 0 command queue, 1 fault queue, 2 performance monitoring. -/
def State.iomVector (s : State) (q i : Nat) : Nat := s.iom q 0x2F8 / 16 ^ i % 16

/-- The MSI of a vector sent; it is held while the vector's table entry is masked. -/
def State.iomSendMsi (s : State) (q n : Nat) : State :=
  let e := s.iom q (0x308 + 16 * n)
  if e / 2 ^ 32 % 2 = 1 then s.updIommu q (fun x => { x with msiHeld := if x.msiHeld.contains n then x.msiHeld else x.msiHeld ++ [n] })
  else (s.updIommu q (fun x => { x with msiHeld := x.msiHeld.filter (· ≠ n) })).emit (.iomMsi q (s.iom q (0x300 + 16 * n)) (e % 2 ^ 32))

/-- The interrupt of a cause becomes pending: a wired source (R540) while FCTL.WSI reads 1, else an MSI. -/
def State.iomIrq (s : State) (q i : Nat) : State :=
  let w := s.rd q iomBlk 0x50
  if bitAt w (32 + i) then s
  else
    let t := s.wr q iomBlk 0x50 (setBits w (32 + i) (32 + i) 1)
    if t.fbit q IOM_FCTL.WSI then t else t.iomSendMsi q (t.iomVector q i)

/-- A status bit of the command queue is set, with its interrupt where CIE reads 1. -/
def State.cqStatus (s : State) (q : Nat) (f : FieldRef) : State :=
  let t := s.fset q f 1
  if t.fbit q IOM_QCSR0.CIE then t.iomIrq q 0 else t

/-- The interrupt of the fault queue, where FIE reads 1. -/
def State.fqIrq (s : State) (q : Nat) : State := if s.fbit q IOM_QCSR0.FIE then s.iomIrq q 1 else s

/-! ## Event counters -/

/-- The IDs by which the event counters filter: device and PASID word of the request. -/
structure XlReq where
  q : Nat
  dev : Nat
  pasid : Nat
  write : Bool
  deriving DecidableEq, Repr

/-- Does the filter of an event selector admit a request: its PASID under PV_PSCV, its device ID under DV_GSCV, where DMASK ignores the lowest
0 bit of the ID and every bit below it? A filter by GSCID or PSCID (IDT) admits none, since the model tags no request with them. -/
def evtAdmits (e : Nat) (r : XlReq) : Bool :=
  let did := e / 2 ^ 36 % 2 ^ 24
  let low := ((List.range 24).find? (fun i => did / 2 ^ i % 2 = 0)).getD 23
  let cut := if e / 2 ^ 15 % 2 = 1 then 2 ^ (low + 1) else 1
  e / 2 ^ 62 % 2 = 0 && (e / 2 ^ 60 % 2 = 0 || (r.pasid / 2 ^ 31 % 2 = 1 && e / 2 ^ 16 % 2 ^ 20 = r.pasid % 2 ^ 20)) &&
    (e / 2 ^ 61 % 2 = 0 || did / cut = r.dev / cut)

/-- An event counted by the IOMMU's own counters: 1 untranslated request, 4 no kept translation, 5 device directory walk, 6 process directory
walk, 7 first-stage walk, 8 second-stage walk. A wrap sets OF, and the interrupt where OF was clear. -/
def State.iomCount (s : State) (r : XlReq) (ev : Nat) : State :=
  foldN 31 (fun t i =>
    let e := t.iom r.q (0x160 + 8 * i)
    if e % 2 ^ 15 ≠ ev || !evtAdmits e r || t.iom r.q 0x58 / 2 ^ (32 + i + 1) % 2 = 1 then t
    else
      let v := t.iom r.q (0x68 + 8 * i) + 1
      let u := t.wr r.q iomBlk (0x68 + 8 * i) (BitVec.ofNat 64 v)
      if v < 2 ^ 64 || e / 2 ^ 63 = 1 then u
      else
        ((u.wr r.q iomBlk (0x160 + 8 * i) (BitVec.ofNat 64 (e + 2 ^ 63))).wr r.q iomBlk 0x58
          (setBits (u.rd r.q iomBlk 0x58) (i + 1) (i + 1) 1)).iomIrq r.q 2) s

/-! ## The walk -/

/-- Why an access does not translate: the cause of the fault record and its second value, and whether the device context keeps the fault from
the fault queue (DTF). -/
structure XlFault where
  cause : Nat
  val2 : Nat
  quiet : Bool
  deriving DecidableEq, Repr

/-- What a part of a walk gives. -/
inductive Walked (α : Type) where
  | ok (a : α)
  | wait
  | fault (f : XlFault)
  deriving DecidableEq, Repr

/-- One part of a walk after another. -/
def Walked.andThen {α β : Type} (r : Walked α × State) (f : α → State → Walked β × State) : Walked β × State :=
  match r with
  | (.ok a, s) => f a s
  | (.wait, s) => (.wait, s)
  | (.fault e, s) => (.fault e, s)

def Walked.stop {α : Type} (cause : Nat) (s : State) : Walked α × State := (.fault ⟨cause, 0, false⟩, s)

/-- Bytes of a table read by an IOMMU through its SLC (R287, R288), or the cause of an access that is refused, and that of a poisoned one. -/
def State.walkGet (s : State) (q a n refused poisoned : Nat) : Walked (List Byte) × State :=
  if 2 ^ 44 ≤ a then Walked.stop refused s
  else match s.readFrom q 0 idIommu a n with
  | (.got d p, t) => if p then Walked.stop poisoned t else (.ok d, t)
  | (.wait, t) => (.wait, t)
  | (.refused, t) | (.lost, t) => Walked.stop refused t

/-- A bit range of a doubleword of a context. -/
def ctxBits (ws : List Nat) (i hi lo : Nat) : Nat := bitsN (ws.getD i 0) hi lo

/-- The causes of an access or page fault, by the kind of the access. -/
def accessFault (write : Bool) : Nat := if write then 7 else 5
def pageFault (write : Bool) : Nat := if write then 15 else 13
def guestFault (write : Bool) : Nat := if write then 23 else 21

/-- A page-table walk of `l` levels from a table at `base`, whose entries lie where `tr` says; the top level has `wide` more index bits, and
`adue` says whether A and D bits are updated (R233). -/
def State.ptWalk (q : Nat) (tr : Bool → Nat → State → Walked Nat × State) (adue write : Bool) (wide pf af : Nat) (va : Nat) :
    Nat → Nat → State → Walked Nat × State
  | 0, _, s => Walked.stop pf s
  | l + 1, base, s =>
    Walked.andThen (tr false (base + 8 * (va / 2 ^ (12 + 9 * l) % 2 ^ (9 + wide))) s) fun at_ s =>
    Walked.andThen (s.walkGet q at_ 8 af 274) fun d s =>
      let e := leNat d
      let bit := fun (i : Nat) => e / 2 ^ i % 2 = 1
      let ppn := e / 2 ^ 10 % 2 ^ 44
      if !bit 0 || (bit 2 && !bit 1) || e / 2 ^ 54 ≠ 0 then Walked.stop pf s
      else if !bit 1 && !bit 3 then
        if bit 4 || bit 6 || bit 7 then Walked.stop pf s
        else State.ptWalk q tr adue write 0 pf af va l (ppn * 4096) s
      else if !bit 4 || (if write then !bit 2 else !bit 1) || ppn % 512 ^ l ≠ 0 then Walked.stop pf s
      else
        let pa := ppn * 4096 + va % 2 ^ (12 + 9 * l)
        if bit 6 && (bit 7 || !write) then (.ok pa, s)
        else if !adue then Walked.stop pf s
        else
          Walked.andThen (tr true (base + 8 * (va / 2 ^ (12 + 9 * l) % 2 ^ (9 + wide))) s) fun at_ s =>
            let e' := e ||| (if write then 0xC0 else 0x40)
            match s.writeFrom q 0 at_ (leBytes 8 e') false with
            | none => Walked.stop af s
            | some (false, t) => (.wait, t)
            | some (true, t) => (.ok pa, t)

/-- The second stage of a device context: guest physical to physical (Sv39x4, Sv48x4). A fault carries the guest address. -/
def State.secondStage (r : XlReq) (dc : List Nat) (wr : Bool) (gpa : Nat) (s : State) : Walked Nat × State :=
  let m := ctxBits dc 1 63 60
  if m = 0 then (if gpa < 2 ^ 56 then (.ok gpa, s) else Walked.stop (accessFault r.write) s)
  else
    let lv := if m = 8 then 3 else 4
    let res :=
      if 2 ^ (14 + 9 * lv) ≤ gpa then Walked.stop (guestFault r.write) s
      else
        State.ptWalk r.q (fun _ a t => (.ok a, t)) (ctxBits dc 0 7 7 = 1) wr 2 (guestFault r.write) (accessFault r.write) gpa lv
          (ctxBits dc 1 43 0 * 4096) (s.iomCount r 8)
    match res with
    | (.fault f, t) => (.fault { f with val2 := gpa / 4 * 4 }, t)
    | x => x

/-- The device context of a request, by the two-level directory in the extended format (R233). -/
def State.deviceCtx (s : State) (r : XlReq) : Walked (List Nat) × State :=
  let s1 := s.iomCount r 5
  Walked.andThen (s1.walkGet r.q (s1.fget r.q IOM_DDTP.PPN * 4096 + 8 * (r.dev / 64 % 512)) 8 257 268) fun d s =>
    let e := leNat d
    if e % 2 = 0 then Walked.stop 258 s
    else if e / 2 % 2 ^ 9 ≠ 0 || e / 2 ^ 54 ≠ 0 then Walked.stop 259 s
    else
      Walked.andThen (s.walkGet r.q (e / 2 ^ 10 % 2 ^ 44 * 4096 + 64 * (r.dev % 64)) 64 257 268) fun b s =>
        let ws := (List.range 8).map (fun i => leNat ((b.drop (8 * i)).take 8))
        let tc := ws.getD 0 0
        let pdtv := ctxBits ws 0 5 5 = 1
        let gm := ctxBits ws 1 63 60
        let fm := ctxBits ws 3 63 60
        if tc % 2 = 0 then Walked.stop 258 s
        else if tc % 2 ^ 10 / 2 % 8 ≠ 0 || ctxBits ws 0 6 6 ≠ 0 || 2 ^ 10 ≤ tc || (!pdtv && ctxBits ws 0 9 9 = 1) ||
            !(gm = 0 || gm = 8 || gm = 9) || (gm ≠ 0 && ctxBits ws 1 1 0 ≠ 0) ||
            ctxBits ws 2 11 0 ≠ 0 || ctxBits ws 2 63 32 ≠ 0 || ctxBits ws 3 59 44 ≠ 0 ||
            !(if pdtv then decide (fm < 3) else fm = 0 || fm = 8 || fm = 9) ||
            ctxBits ws 4 59 44 ≠ 0 || 1 < ctxBits ws 4 63 60 || ctxBits ws 5 63 52 ≠ 0 || ctxBits ws 6 63 52 ≠ 0 ||
            ws.getD 7 0 ≠ 0 then Walked.stop 259 s
        else (.ok ws, s)

/-- The first-stage root of a process: its context, by the one-level or two-level process directory (R233). -/
def State.processCtx (r : XlReq) (dc : List Nat) (pid : Nat) (s : State) : Walked Nat × State :=
  let two := ctxBits dc 3 63 60 = 2
  let root := ctxBits dc 3 43 0 * 4096
  let get := fun (a n : Nat) (t : State) =>
    Walked.andThen (State.secondStage r dc false a t) fun pa t => t.walkGet r.q pa n 265 269
  let leaf := fun (base : Nat) (t : State) =>
    Walked.andThen (get (base + 16 * (pid % 256)) 16 t) fun d t =>
      let ta := leNat (d.take 8)
      let fsc := leNat (d.drop 8)
      let m := fsc / 2 ^ 60
      if ta % 2 = 0 then Walked.stop 266 t
      else if ta / 8 % 2 ^ 9 ≠ 0 || 2 ^ 32 ≤ ta || fsc / 2 ^ 44 % 2 ^ 16 ≠ 0 || !(m = 0 || m = 8 || m = 9) then Walked.stop 267 t
      else (.ok fsc, t)
  let s1 := s.iomCount r 6
  if two then
    Walked.andThen (get (root + 8 * (pid / 256)) 8 s1) fun d t =>
      let e := leNat d
      if e % 2 = 0 then Walked.stop 266 t
      else if e / 2 % 2 ^ 9 ≠ 0 || e / 2 ^ 54 ≠ 0 then Walked.stop 267 t
      else leaf (e / 2 ^ 10 % 2 ^ 44 * 4096) t
  else leaf root s1

/-- The bits of `x` under the ones of `m`, gathered. -/
def gatherBits (x m : Nat) : Nat :=
  ((List.range 52).foldl (fun (acc : Nat × Nat) i =>
    if m / 2 ^ i % 2 = 1 then (acc.1 + x / 2 ^ i % 2 * 2 ^ acc.2, acc.2 + 1) else acc) (0, 0)).1

/-- The last step of a translation: a guest address of a virtual interrupt file through the flat MSI table, any other through the second
stage. -/
def State.finalStage (r : XlReq) (dc : List Nat) (gpa : Nat) (s : State) : Walked Nat × State :=
  let mask := ctxBits dc 5 51 0
  let page := gpa / 4096
  if ctxBits dc 4 63 60 = 1 && page ||| mask = ctxBits dc 6 51 0 ||| mask then
    Walked.andThen (s.walkGet r.q (ctxBits dc 4 43 0 * 4096 + 16 * gatherBits page mask) 16 261 270) fun d s =>
      let e := leNat (d.take 8)
      if e % 2 = 0 then Walked.stop 262 s
      else if e / 2 % 4 ≠ 3 || e / 8 % 2 ^ 7 ≠ 0 || 2 ^ 54 ≤ e || leNat (d.drop 8) ≠ 0 then Walked.stop 263 s
      else (.ok (e / 2 ^ 10 % 2 ^ 44 * 4096 + gpa % 4096), s)
  else State.secondStage r dc r.write gpa s

/-- A walk of every table for one address (R233). -/
def State.walk (s : State) (r : XlReq) (va : Nat) : Walked Nat × State :=
  let mode := s.fget r.q IOM_DDTP.MODE
  if mode = 0 then Walked.stop 256 s
  else if mode = 1 then
    if r.pasid / 2 ^ 31 % 2 = 1 then Walked.stop 260 s
    else if va < 2 ^ 56 then (.ok va, s) else Walked.stop (accessFault r.write) s
  else
    let s1 := s.pmuEvent r.q 0x211 1
    Walked.andThen (s1.deviceCtx r) fun dc s =>
      let pdtv := ctxBits dc 0 5 5 = 1
      let pv := r.pasid / 2 ^ 31 % 2 = 1
      let pid := r.pasid % 2 ^ 20
      let pm := ctxBits dc 3 63 60
      let first := fun (fsc : Nat) (t : State) =>
        let m := fsc / 2 ^ 60
        if m = 0 then State.finalStage r dc va t
        else
          let lv := if m = 8 then 3 else 4
          let top := va / 2 ^ (11 + 9 * lv)
          if top ≠ 0 && top ≠ 2 ^ (53 - 9 * lv) - 1 then Walked.stop (pageFault r.write) t
          else
            Walked.andThen (State.ptWalk r.q (fun w a u => State.secondStage r dc w a u) (ctxBits dc 0 8 8 = 1) r.write 0
              (pageFault r.write) (accessFault r.write) va lv (fsc % 2 ^ 44 * 4096) (t.iomCount r 7)) fun gpa t =>
              State.finalStage r dc gpa t
      let res :=
        if pv && !pdtv then Walked.stop 260 s
        else if pv && pdtv && pm ≠ 0 && 2 ^ (if pm = 1 then 8 else 17) ≤ pid then Walked.stop 260 s
        else if !pdtv then first (dc.getD 3 0) s
        else if pm = 0 || (!pv && ctxBits dc 0 9 9 = 0) then first 0 s
        else Walked.andThen (State.processCtx r dc (if pv then pid else 0) s) first
      match res with
      | (.fault f, t) => (.fault { f with quiet := ctxBits dc 0 4 4 = 1 }, t)
      | x => x

/-! ## The fault queue -/

/-- A fault record: cause, PASID, type of the request, device ID, the address, and the second value. -/
def faultRecord (r : XlReq) (f : XlFault) (va : Nat) : List Byte :=
  leBytes 8 (f.cause % 2 ^ 12 + (if r.pasid / 2 ^ 31 % 2 = 1 then r.pasid % 2 ^ 20 * 2 ^ 12 + 2 ^ 32 else 0) +
      (if r.write then 3 else 2) * 2 ^ 34 + r.dev % 2 ^ 24 * 2 ^ 40) ++
    leBytes 8 0 ++ leBytes 8 (va % 2 ^ 64) ++ leBytes 8 (f.val2 % 2 ^ 64)

/-- A record written to the fault queue (R235); none while its write must wait. A queue that is off, or that reports an overflow or a memory
fault, takes none; a full one sets FQOF, and one that cannot be written FQMF. -/
def State.faultQueue (s : State) (q : Nat) (rec : List Byte) : Option State × State :=
  if !s.fbit q IOM_QCSR0.FQON || s.fbit q IOM_QCSR0.FQOF || s.fbit q IOM_QCSR0.FQMF then (some s, s)
  else
    let size := 2 ^ (s.fget q IOM_FQB.LOG2SZ + 1)
    let tail := s.fget q IOM_FQHT.TAIL
    if (tail + 1) % size = s.fget q IOM_FQHT.HEAD % size then (some ((s.fset q IOM_QCSR0.FQOF 1).fqIrq q), s)
    else match s.writeFrom q 0 (s.fget q IOM_FQB.PPN * 4096 + 32 * tail) rec false with
    | none => (some ((s.fset q IOM_QCSR0.FQMF 1).fqIrq q), s)
    | some (false, t) => (none, t)
    | some (true, t) => (some ((t.fset q IOM_FQHT.TAIL ((tail + 1) % size)).fqIrq q), t)

/-- A translation fault: its record in the fault queue, where the device context does not keep it out, and in the ERR_ block of the Q-die
(R235, R542); none while the record's write must wait. -/
def State.iommuFault (s : State) (r : XlReq) (f : XlFault) (va : Nat) : Option State × State :=
  let log := fun (t : State) => t.logErr r.q 2 0x0E r.dev 0x1 va
  if f.quiet then (some (log s), s)
  else match s.faultQueue r.q (faultRecord r f va) with
  | (some t, _) => (some (log t), t)
  | (none, t) => (none, t)

/-! ## Translation -/

/-- A range cut at 4 KiB boundaries: offset into the range, address and length. -/
def pagesOf (a n : Nat) : List (Nat × Nat × Nat) :=
  (List.range ((a + n + 4095) / 4096 - a / 4096)).map (fun i =>
    let lo := max a ((a / 4096 + i) * 4096)
    let hi := min (a + n) ((a / 4096 + i + 1) * 4096)
    (lo - a, lo, hi - lo))

/-- What a translation gives: offset, physical address and length of each page; a wait for the tables; or a fault, which has been recorded. -/
inductive Xlate where
  | ok (parts : List (Nat × Nat × Nat))
  | wait
  | fault
  deriving DecidableEq, Repr

/-- The kept translation of a page that serves an access, if this one is served so (R234). -/
def State.keptFor (s : State) (r : XlReq) (page : Nat) : Option Xlated :=
  let x := s.iommuOf r.q
  if Config.iotlbServes x.made r.q r.dev page then
    x.kept.find? (fun e => e.dev = r.dev && e.pasid = r.pasid && e.page = page && (e.write || !r.write))
  else none

/-- A translation that has been made is kept (R234). -/
def State.keepXlate (s : State) (r : XlReq) (page phys : Nat) : State :=
  s.updIommu r.q (fun x =>
    { x with kept := x.kept.filter (fun e => !(e.dev = r.dev && e.pasid = r.pasid && e.page = page)) ++ [⟨r.dev, r.pasid, page, phys, r.write⟩],
             made := x.made + 1 })

/-- One address translated: by a translation that the IOMMU keeps, or by a walk (R233, R234). -/
def State.xlateAt (s : State) (r : XlReq) (va : Nat) : Walked Nat × State :=
  match s.keptFor r (va / 4096) with
  | some e => (.ok (e.phys * 4096 + va % 4096), ((s.updIommu r.q (fun x => { x with made := x.made + 1 })).iomCount r 1).pmuEvent r.q 0x210 1)
  | none =>
    match s.walk r va with
    | (.ok pa, t) => (.ok pa, (((t.keepXlate r (va / 4096) (pa / 4096)).iomCount r 1).iomCount r 4).pmuEvent r.q 0x210 1)
    | x => x

/-- A range translated page by page for a device, whose PASID word says in bit 31 whether it has a PASID. No byte of a range of which a page
faults is accessed (R235). -/
def State.translate (s : State) (q dev pasid a n : Nat) (write : Bool) : Xlate × State :=
  let r : XlReq := ⟨q, dev, pasid, write⟩
  (pagesOf a n).foldl (fun (acc : Xlate × State) p =>
    match acc.1 with
    | .ok l =>
      (match acc.2.xlateAt r p.2.1 with
       | (.ok pa, t) => (.ok (l ++ [(p.1, pa, p.2.2)]), t)
       | (.wait, t) => (.wait, t)
       | (.fault f, t) =>
         (match t.iommuFault r f p.2.1 with
          | (some u, _) => (.fault, u)
          | (none, u) => (.wait, u)))
    | _ => acc) (.ok [], s)

/-! ## The command queue -/

/-- Is a command of an IOMMU's queue an invalidation: of translations, or of its directories? -/
def isInvalidation (w : Nat) : Bool :=
  (w % 128 = 1 && w / 128 % 8 < 2) || (w % 128 = 3 && w / 128 % 8 < 2)

/-- One command of an IOMMU's queue, an invalidation apart; none where the queue stops: it is off, empty, or reports an error, the command is
an invalidation, or its bytes wait. -/
def State.iomCommand (s : State) (q : Nat) : Option State :=
  let size := 2 ^ (s.fget q IOM_CQB.LOG2SZ + 1)
  let head := s.fget q IOM_CQHT.HEAD
  let stop := fun (t : State) (f : FieldRef) => some (t.cqStatus q f)
  if !s.fbit q IOM_QCSR0.CQON || s.fbit q IOM_QCSR0.CQMF || s.fbit q IOM_QCSR0.CMD_TO || s.fbit q IOM_QCSR0.CMD_ILL ||
      head = s.fget q IOM_CQHT.TAIL % size then none
  else match s.readFrom q 0 idIommu (s.fget q IOM_CQB.PPN * 4096 + 16 * head) 16 with
  | (.wait, _) => none
  | (.refused, t) | (.lost, t) => stop t IOM_QCSR0.CQMF
  | (.got d p, t) =>
    let w := leNat (d.take 8)
    let next := fun (u : State) => some (u.fset q IOM_CQHT.HEAD ((head + 1) % size))
    if p then stop t IOM_QCSR0.CQMF
    else if isInvalidation w then none
    else if w % 1024 ≠ 2 || w / 2 ^ 14 % 2 ^ 18 ≠ 0 || (w / 2 ^ 11 % 2 = 1 && !t.fbit q IOM_FCTL.WSI) then stop t IOM_QCSR0.CMD_ILL
    else
      -- IOFENCE.C
      let done := fun (u : State) => if w / 2 ^ 11 % 2 = 1 then next (u.cqStatus q IOM_QCSR0.FENCE_W_IP) else next u
      if w / 2 ^ 10 % 2 = 0 then done t
      else match t.writeFrom q 0 (leNat (d.drop 8) % 2 ^ 62 * 4) (leBytes 4 (w / 2 ^ 32)) false with
      | none => stop t IOM_QCSR0.CQMF
      | some (false, _) => none
      | some (true, u) => done u

/-- The commands of an IOMMU's queue run up to the next invalidation, which is a command of its own (log entry 59). -/
def State.iomRun (s : State) (q : Nat) : State :=
  let size := 2 ^ (s.fget q IOM_CQB.LOG2SZ + 1)
  foldN ((s.fget q IOM_CQHT.TAIL + size - s.fget q IOM_CQHT.HEAD) % size) (fun t _ => (t.iomCommand q).getD t) s

/-- Does an invalidation stand at the head of an IOMMU's queue? -/
def State.iomHeadInv (s : State) (q : Nat) : Bool :=
  let size := 2 ^ (s.fget q IOM_CQB.LOG2SZ + 1)
  let head := s.fget q IOM_CQHT.HEAD
  s.fbit q IOM_QCSR0.CQON && !s.fbit q IOM_QCSR0.CQMF && !s.fbit q IOM_QCSR0.CMD_TO && !s.fbit q IOM_QCSR0.CMD_ILL &&
    decide (head ≠ s.fget q IOM_CQHT.TAIL % size) &&
    (match (s.readFrom q 0 idIommu (s.fget q IOM_CQB.PPN * 4096 + 16 * head) 16).1 with
     | .got d p => !p && isInvalidation (leNat (d.take 8))
     | _ => false)

/-! ## Registers -/

/-- A write to a register of the IOM_ block that does more than its access types (R236): an unsupported DDTP.MODE is not taken; a queue turned
on starts empty with its status clear; new commands run; an unmasked vector sends the MSI that it holds. -/
def State.iomWrite (s : State) (g : Word → State) (name : String) (q off : Nat) (w : Word) : Option State :=
  if name = "IOM_DDTP" then
    let m := bits w 3 0
    some (g (if m = 0 || m = 1 || m = 3 then w else setBits w 3 0 (s.fget q IOM_DDTP.MODE)))
  else if name = "IOM_CQHT" then
    some ((g (setBits w 63 32 (bits w 63 32 % 2 ^ (s.fget q IOM_CQB.LOG2SZ + 1)))).iomRun q)
  else if name = "IOM_FQHT" then some (g (setBits w 31 0 (bits w 31 0 % 2 ^ (s.fget q IOM_FQB.LOG2SZ + 1))))
  else if name = "IOM_QCSR0" then
    let t := g w
    let cq := t.fbit q IOM_QCSR0.CQEN
    let fq := t.fbit q IOM_QCSR0.FQEN
    let t1 := if cq && !s.fbit q IOM_QCSR0.CQON then
        t.fsets q [(IOM_CQHT.HEAD, 0), (IOM_QCSR0.CQMF, 0), (IOM_QCSR0.CMD_TO, 0), (IOM_QCSR0.CMD_ILL, 0), (IOM_QCSR0.FENCE_W_IP, 0)]
      else t
    let t2 := if fq && !s.fbit q IOM_QCSR0.FQON then t1.fsets q [(IOM_FQHT.TAIL, 0), (IOM_QCSR0.FQMF, 0), (IOM_QCSR0.FQOF, 0)] else t1
    some ((t2.fsets q [(IOM_QCSR0.CQON, b2n cq), (IOM_QCSR0.FQON, b2n fq)]).iomRun q)
  else if name = "IOM_HPMEVT" || name = "IOM_HPMCYCLES" then
    let t := g w
    let i := if name = "IOM_HPMEVT" then (off - 0x160) / 8 + 1 else 0
    some (t.wr q iomBlk 0x58 (setBits (t.rd q iomBlk 0x58) i i (bits w 63 63)))
  else if name = "IOM_MSI_CFG" then
    let t := g w
    let n := (off - 0x300) / 16
    some (if off % 16 = 8 && (t.iommuOf q).msiHeld.contains n then t.iomSendMsi q n else t)
  else none

end Sys2Proof.Machine
end

