-- ==== Sys2Proof/Machine/Glaze.lean ====
section
/-!
DEFINITION. The Glaze units (chapter 07): arrival and checks of commands, the operations stroke by stroke, staging and
journaled apply, resumption, and failures.
-/
namespace Sys2Proof.Machine

/-! ## Units -/

def GlzUnit.reset : GlzUnit :=
  { cmds := [], coming := [], staging := [], area := none, apply := [], kept := [], keptStage := [] }

def State.glzUnit (s : State) (die v : Nat) : GlzUnit := mapGet GlzUnit.reset s.glz (vaultKey die v)

/-- Keys that hold staging records. -/
def GlzUnit.keys (u : GlzUnit) : List (Nat × Nat) := (u.staging.map (·.key)).dedup

/-- A unit changed; GLZ_STATUS follows what it holds (R212). -/
def State.updGlz (s : State) (die v : Nat) (f : GlzUnit → GlzUnit) : State :=
  let u := f (s.glzUnit die v)
  ({ s with glz := mapSet s.glz (vaultKey die v) u }).fsets die
    [(GLZ_STATUS.HELD.unit v, u.cmds.length), (GLZ_STATUS.KEYS.unit v, min 255 u.keys.length),
     (GLZ_STATUS.STAGE_USED.unit v, u.staging.length)]

/-- RESUMING (R207). -/
def State.resuming (s : State) (die v : Nat) : Bool := s.fbit die (GLZ_STATUS.RESUMING.unit v)

/-- Staging records that the area holds (R205). -/
def State.stageCap (s : State) (die v : Nat) : Nat := (s.fget die (GLZ_AREA.SIZE.unit v) - 1) * 2 ^ 20 / 256

/-! ## Descriptor -/

def dByte (d : List Byte) (o : Nat) : Nat := (d.getD o 0).toNat
def dNum (d : List Byte) (o n : Nat) : Nat := leNat ((d.drop o).take n)
def gDfmt (d : List Byte) : Nat := dByte d 0
def gSfmt (d : List Byte) : Nat := dByte d 1
def gAux (d : List Byte) : Nat := dNum d 2 2
def gCount (d : List Byte) : Nat := dNum d 4 4
def gSrcA (d : List Byte) : Nat := dNum d 8 8
def gSrcB (d : List Byte) : Nat := dNum d 16 8
def gSrcC (d : List Byte) : Nat := dNum d 24 8
def gP (d : List Byte) (i : Nat) : Nat := dNum d (32 + 4 * i) 4

/-- Bytes of an element of a source or target format. -/
def glzSize (fmt : Nat) : Nat := if fmt = 1 then 2 else 4

/-- What an operation uses of its descriptor: its formats, whether COUNT is in range, whether AUX is, the sources it names
and the scalars it names (R194). -/
structure GlzShape where
  fmts : List Nat
  countOk : Bool
  auxOk : Bool
  srcs : List Bool
  scalars : Nat

def glzShape (gop : Nat) (d : List Byte) : GlzShape :=
  let n := gCount d
  let aux := gAux d
  let p0 := gP d 0
  match gop with
  | 0 => ⟨[0], n % 64 = 0, aux = 0, [false, false, false], 8⟩
  | 1 => ⟨[0], n % 64 = 0, aux = 0, [true, false, false], 0⟩
  | 2 => ⟨[0, 1, 2], true, aux = 0, [true, false, false], 0⟩
  | 3 => ⟨[0, 1], true, aux = 0, [true, false, false], 1⟩
  | 4 => ⟨[0, 1], true, aux ≤ 1, [true, true, true], 7⟩
  | 5 => ⟨[3, 4, 5], 1 ≤ n && n ≤ 4096 && p0 % 32 = 0 && 32 ≤ p0 && p0 ≤ 8192, aux = 0, [true, false, false], 1⟩
  | 6 => ⟨[0], 1 ≤ n && n ≤ 65536, 1 ≤ aux && aux ≤ 128, [true, true, true], 0⟩
  | _ => ⟨[0, 1], 1 ≤ n && n ≤ 65536 && aux ≤ p0 && p0 ≤ 65536, 1 ≤ aux && aux ≤ 256, [true, false, false], 1⟩

/-- Is a descriptor well formed for its operation (R192, R194)? -/
def glzFormOk (gop : Nat) (d : List Byte) : Bool :=
  let x := glzShape gop d
  x.fmts.contains (gDfmt d) && (if gop = 5 then gSfmt d ≤ 1 else gSfmt d = 0) && x.countOk && x.auxOk &&
  (x.srcs.getD 0 false || gSrcA d = 0) && (x.srcs.getD 1 false || gSrcB d = 0) && (x.srcs.getD 2 false || gSrcC d = 0) &&
  (List.range 8).all (fun i => i < x.scalars || gP d i = 0)

/-- Bytes that each source takes: SRC_A, SRC_B, SRC_C; the gathered rows are counted one by one (R194). -/
def glzSpans (gop : Nat) (d : List Byte) : Nat × Nat × Nat :=
  let n := gCount d
  match gop with
  | 1 => (n, 0, 0)
  | 2 | 3 => (n * glzSize (gDfmt d), 0, 0)
  | 4 => (4 * n, 4 * n, n * glzSize (gAux d))
  | 5 => (n * gP d 0 * glzSize (gSfmt d), 0, 0)
  | 6 => (4 * n, 0, 8)
  | 7 => (n * gP d 0 * glzSize (gDfmt d), 0, 0)
  | _ => (0, 0, 0)

/-- Bytes of the target that an operation writes contiguously; a KV header is 64 B, and a gather writes what it finds. -/
def glzLen (gop aop : Nat) (d : List Byte) : Nat :=
  let n := gCount d
  match gop with
  | 0 | 1 => n
  | 2 | 3 | 4 => n * glzSize (gDfmt d)
  | 5 => 64
  | 6 => 0
  | 7 => n * 8 * gAux d
  | _ => if aop = 0x00 || aop = 0x02 || aop = 0x03 || (0x06 ≤ aop && aop % 2 = 0) then 4 else 8

def glzTargetLen (c : GlzCmd) : Nat := glzLen c.gop c.aop c.desc

/-! ## Ranges -/

def overlap (a n b m : Nat) : Bool := a < b + m && b < a + n

/-- May a unit write `n` bytes at a local address: in its vault, inside one placed share or one stripe, outside its Glaze
area and the directory area (R191)? -/
def State.glzOwn (s : State) (die v a n : Nat) : Bool :=
  n = 0 ||
  (match regionOf a with
   | .stack d o =>
     let share := s.share d
     let (w, off) := stackLoc share o
     let dirLo := if s.hasDir d w then s.areaBase d w - 4 * 2 ^ 20 else s.areaBase d w
     d = die && w = v && s.placeOfAddr a ≠ .nowhere && s.placeOfAddr (a + n - 1) ≠ .nowhere &&
     (if o < 64 * share then o % share + n ≤ share else (o - 64 * share) % 256 + n ≤ 256) &&
     !overlap off n dirLo (s.areaBase d w + s.fget d (GLZ_AREA.SIZE.unit w) * 2 ^ 20 - dirLo)
   | _ => false)

/-- The local address of a vault offset. -/
def State.vaultAddr (s : State) (die v off : Nat) : Nat := die * 2 ^ 37 + stackOff (s.share die) v off

/-! ## Reading -/

/-- Bytes that a key has staged, laid over what a staged command reads, and whether any of them is poisoned (R208). -/
def State.overStage (s : State) (key : Option (Nat × Nat)) (a : Nat) (d : List Byte) : List Byte × Bool :=
  match key, regionOf a with
  | some k, .stack die _ =>
    d.zipIdx.foldl (fun (acc : List Byte × Bool) p =>
      let (v, off) := stackLoc (s.share die) ((a + p.2) % 2 ^ 37)
      match (s.glzUnit die v).staging.find? (fun r => r.key = k && r.block = off / 128 && r.mask / 2 ^ (off % 128) % 2 = 1) with
      | some r => (acc.1 ++ [r.data.getD (off % 128) 0], acc.2 || r.poison)
      | none => (acc.1 ++ [p.1], acc.2)) ([], false)
  | _, _ => (d, false)

/-- Sources of a queue entry stand above this address where they are virtual: the IOMMU translates them (R195). -/
def glzVirt : Nat := 2 ^ 60

/-- The physical pieces of a range that a command names, as they were translated when it was accepted (R195); none where a page was not. -/
def State.glzPieces (_ : State) (c : GlzCmd) (a n : Nat) : Option (List (Nat × Nat)) :=
  if a < glzVirt then some [(a, n)]
  else (pagesOf a n).foldl (fun (acc : Option (List (Nat × Nat))) p =>
    match acc, c.parts.find? (fun x => x.1 ≤ p.2.1 && p.2.1 + p.2.2 ≤ x.1 + x.2.2) with
    | some l, some x => some (l ++ [(x.2.1 + (p.2.1 - x.1), p.2.2)])
    | _, _ => none) (some [])

/-- A unit reads bytes at a physical address for a command: of this package through the RLC of its die (R203, R287, R288), of another
package once they have been fetched. Only memory ranges are sources (R191); an address with a package field is reserved while ID_VALID reads 0 (R223). -/
def State.glzGetAt (s : State) (c : GlzCmd) (a n : Nat) : GlzRead × State :=
  if n = 0 then (.got [] false, s)
  else if a < 2 ^ 44 then
    if !(isMemKind a && s.populated a n) then (.refused, s)
    else
    let die := c.target / 2 ^ 37
    let v := (stackLoc (s.share die) (c.target % 2 ^ 37)).1
    match s.ioPort die a with
    | some q => s.ioGet q a n
    | none =>
      match s.engineReach die v a with
      | none => (.wait, s)
      | some (false, t) => (.lost, t)
      | some (true, s1) =>
        match s1.viaWait (dieAgent die) a n with
        | some t => (.wait, t)
        | none =>
          let (d, p, t) := s1.viaRead (dieAgent die) (64 + v) a n srcGlaze
          let o := t.overStage c.key a d
          (.got o.1 (p || o.2), t)
  else if !s.idValid then (.refused, s)
  else
    let ls := linesOf a n
    if ls.all (fun l => c.have_.contains l) then (.got (memReadN c.remote a n) (ls.any (fun l => c.rbad.contains l)), s) else (.wait, s)

/-- A unit reads a range for a command, piece by piece (R195). -/
def State.glzGet (s : State) (c : GlzCmd) (a n : Nat) : GlzRead × State :=
  match s.glzPieces c a n with
  | none => (.refused, s)
  | some ps =>
    ps.foldl (fun (acc : GlzRead × State) p =>
      match acc.1 with
      | .got d bad =>
        (match acc.2.glzGetAt c p.1 p.2 with
         | (.got d' bad', t) => (.got (d ++ d') (bad || bad'), t)
         | r => r)
      | _ => acc) (.got [] false, s)

/-- The lines of other packages that a command still needs of a physical range. -/
def GlzCmd.lacks (c : GlzCmd) (a n : Nat) : List Nat :=
  if a < 2 ^ 44 then [] else (linesOf a n).filter (fun l => !c.have_.contains l && !c.asked.contains l)

/-! ## Elements -/

/-- Elements of a byte list. -/
def elemsOf (size : Nat) (d : List Byte) : List Nat := (chunksOf size (d.length / size) d).map leNat

def bytesOf (size : Nat) (es : List Nat) : List Byte := es.flatMap (leBytes size)

/-- The element format of a Glaze MX format (R142, R192). -/
def mxFmt (dfmt : Nat) : Nat := if dfmt = 3 then 0 else if dfmt = 4 then 3 else 4

/-- One stored row of KV_APPEND: elements, then scales (R151, R152, R199). -/
def kvRow (dfmt : Nat) (vals : List FV) : List Byte :=
  let f := mxFmt dfmt
  let blocks := chunksOf 32 (vals.length / 32) vals
  let q := blocks.map (fun b => let sc := blockScale f b; (b.map (scaledElem f sc.2), sc.1))
  let es := q.flatMap (·.1)
  let packed := if dfmt = 3 then (chunksOf 2 (es.length / 2) es).map (fun p => p.getD 0 0 + 16 * p.getD 1 0) else es
  (packed ++ q.map (·.2)).map (BitVec.ofNat 8)

def kvRowBytes (dfmt d : Nat) : Nat := (if dfmt = 3 then d / 2 else d) + d / 32

/-- Does one value rank before another in TOPK: larger, or equal with a lower index; NaN last (R201)? -/
def ranks (a b : FV × Nat) : Bool :=
  match a.1, b.1 with
  | .nan, .nan => a.2 < b.2
  | .nan, _ => false
  | _, .nan => true
  | x, y => fvLt y x || (!fvLt x y && a.2 < b.2)

/-- Insertion into a list in rank order, of at most `k` entries. -/
def insertRank (k : Nat) (l : List (FV × Nat × Nat)) (x : FV × Nat × Nat) : List (FV × Nat × Nat) :=
  ((l.takeWhile (fun y => ranks (y.1, y.2.1) (x.1, x.2.1))) ++
    x :: l.dropWhile (fun y => ranks (y.1, y.2.1) (x.1, x.2.1))).take k

/-- A TOPK output row (R201): the values as FP32, then their indices. -/
def topkRow (fmt k : Nat) (codes : List Nat) : List Byte :=
  let best := (codes.zipIdx.map (fun p => (glzVal fmt p.1, p.2, if fmt = 1 then p.1 * 65536 else p.1))).foldl (insertRank k) []
  bytesOf 4 (best.map (·.2.2)) ++ bytesOf 4 (best.map (·.2.1))

/-! ## Strokes -/

/-- What a stroke writes: address, bytes, poison. -/
abbrev GlzWrite := Nat × List Byte × Bool

/-- The computation of a stroke: what it writes, with the old value of an atomic or the strokes of a gather. -/
inductive GlzStep where
  | ok (writes : List GlzWrite) (old : Nat)
  | wait
  | fail (code : Nat)
  deriving DecidableEq, Repr

def strokeBytes : Nat := 65536

/-- The part of a target range that stroke `k` writes: strokes are aligned to 64 KiB of target address (R206). -/
def strokePart (tgt n k : Nat) : Nat × Nat :=
  let lo := max tgt ((tgt / strokeBytes + k) * strokeBytes)
  let hi := min (tgt + n) ((tgt / strokeBytes + k + 1) * strokeBytes)
  (lo, hi - lo)

/-- Strokes of a target range; a command that writes nothing has one. -/
def strokeCount (tgt n : Nat) : Nat := if n = 0 then 1 else (tgt + n - 1) / strokeBytes - tgt / strokeBytes + 1

/-- A read in the course of a stroke: what has gone wrong so far, the bytes and poison, and the state. -/
structure Gather where
  bad : Option GlzStep
  bytes : List Byte
  poison : Bool
  s : State

def Gather.start (s : State) : Gather := { bad := none, bytes := [], poison := false, s := s }

/-- More bytes read. -/
def Gather.more (g : Gather) (c : GlzCmd) (a n : Nat) : Gather :=
  match g.bad with
  | some _ => g
  | none =>
    match g.s.glzGet c a n with
    | (.got d p, t) => { g with bytes := g.bytes ++ d, poison := g.poison || p, s := t }
    | (.wait, t) => { g with bad := some .wait, s := t }
    | (.refused, t) => { g with bad := some (.fail 0x2), s := t }
    | (.lost, t) => { g with bad := some (.fail 0xB), s := t }

/-- One range read. -/
def State.glzTake (s : State) (c : GlzCmd) (a n : Nat) : Gather := (Gather.start s).more c a n

/-- The physical pieces of gathered row `x`: a stream's through the window in force at arrival, a queue's through the IOMMU that serves the
queue (R195, R200, R235). -/
def State.gatherRow (s : State) (c : GlzCmd) (x n : Nat) : Xlate × State :=
  match c.rowWin, c.dev with
  | some (base, limit, phys), _ =>
    let o := c.srcB % 2 ^ 58 + x * n
    (if base ≤ o && o + n ≤ limit then .ok [(0, phys + (o - base), n)] else .fault, s)
  | none, some (q, dev, pasid) =>
    if c.srcB < glzVirt then (.ok [(0, c.srcB + x * n, n)], s) else s.translate q dev pasid (c.srcB - glzVirt + x * n) n false
  | none, none => (.ok [(0, c.srcB + x * n, n)], s)

/-- The pieces of the rows of a gather, in the order of its indices; a wait or a fault of any of them is that of all. -/
def State.gatherRows (s : State) (c : GlzCmd) (idx : List Nat) (n : Nat) : Except Xlate (List (List (Nat × Nat))) × State :=
  idx.foldl (fun (acc : Except Xlate (List (List (Nat × Nat))) × State) x =>
    match acc.1 with
    | .error _ => acc
    | .ok l =>
      match acc.2.gatherRow c x n with
      | (.ok ps, t) => (.ok (l ++ [ps.map (fun p => (p.2.1, p.2.2))]), t)
      | (e, t) => (.error e, t)) (.ok [], s)

/-- Part of a range given as pieces. -/
def subPieces (ps : List (Nat × Nat)) (lo n : Nat) : List (Nat × Nat) :=
  (ps.foldl (fun (acc : Nat × List (Nat × Nat)) p =>
    let a := max lo acc.1
    let b := min (lo + n) (acc.1 + p.2)
    (acc.1 + p.2, if a < b then acc.2 ++ [(p.1 + (a - acc.1), b - a)] else acc.2)) (0, [])).2

/-- Does a range of a command overlap another (R196, R200, R201)? -/
def State.overlapsSrc (s : State) (c : GlzCmd) (a n b m : Nat) : Bool :=
  match s.glzPieces c a n with
  | some ps => ps.any (fun p => overlap p.1 p.2 b m)
  | none => false

/-- The indices that a gather takes, in order. -/
def gatherIdx (codes : List Nat) : List Nat := codes.filter (fun c => c < 2 ^ 31)

/-- The writes of a chunked operation: each block of the stroke is computed on its own, so that poison stays with the
blocks it affects (R211). -/
def State.overChunks (s : State) (parts : List (Nat × Nat)) (f : State → Nat → Nat → GlzStep × State) : GlzStep × State :=
  parts.foldl (fun (acc : GlzStep × State) p =>
    match acc.1 with
    | .ok ws old =>
      (match f acc.2 p.1 p.2 with
       | (.ok ws' _, t) => (.ok (ws ++ ws') old, t)
       | (r, t) => (r, t))
    | r => (r, acc.2)) (.ok [] 0, s)

/-- KV_APPEND: what its checks give: the row addresses of the whole command, or why there are none yet (R199). A page-table entry that
reads poisoned fails the command with POISON (R211). DESIGN CHOICE (log entry 55): a PTABLE that is not 8 B aligned fails it with PAGE;
R199 names the alignment and no code for it. -/
def State.kvRows (s : State) (die v : Nat) (c : GlzCmd) (header : List Byte) : Except GlzStep (List Nat) × State :=
  let len := dNum header 0 8
  let pageRows := dNum header 8 4
  let rowBytes := dNum header 12 4
  let ptab := dNum header 16 8
  let pages := dNum header 24 4
  let rb := kvRowBytes (gDfmt c.desc) (gP c.desc 0)
  if pageRows = 0 || 2 ^ Nat.log2 pageRows ≠ pageRows || rowBytes ≠ rb || ptab % 8 ≠ 0 then (.error (.fail 0x6), s)
  else
    (List.range (gCount c.desc)).foldl (fun (acc : Except GlzStep (List Nat) × State) j =>
      match acc.1 with
      | .error _ => acc
      | .ok l =>
        let p := len + j
        if pages ≤ p / pageRows then (.error (.fail 0x6), acc.2)
        else
          let g := acc.2.glzTake c (acc.2.vaultAddr die v (ptab + 8 * (p / pageRows))) 8
          let e := leNat g.bytes
          match g.bad with
          | some b => (.error b, g.s)
          | none =>
            if g.poison then (.error (.fail 0x9), g.s)
            else if bitsN e 63 63 = 0 || bitsN e 62 31 ≠ 0 || e % 128 ≠ 0 then (.error (.fail 0x6), g.s)
            else (.ok (l ++ [g.s.vaultAddr die v (bitsN e 30 0 + p % pageRows * rb)]), g.s)) (.ok [], s)

/-- Rows of a KV stroke: as many whole rows as fit in 64 KiB, at least one (R199). -/
def kvPerStroke (rb : Nat) : Nat := max 1 (strokeBytes / rb)

/-- How many strokes a command other than a gather has. -/
def glzStrokes (c : GlzCmd) : Nat :=
  match c.gop with
  | 5 =>
    let per := kvPerStroke (kvRowBytes (gDfmt c.desc) (gP c.desc 0))
    (gCount c.desc + per - 1) / per
  | 8 => 1
  | _ => strokeCount c.target (glzTargetLen c)

/-- The index list of a gather, as far as it can be read. -/
def State.gatherList (s : State) (c : GlzCmd) : Gather := s.glzTake c c.srcA (4 * gCount c.desc)

/-- Bytes that eight ROWCOPYs, one per channel, move (R174). -/
def rowPiece : Nat := 16384

/-- The 16 KiB pieces of the stroke of an unstaged COPY that ROWCOPY moves: target and source address. Both lie in the placed share of
the unit's vault at multiples of 16 KiB, with equal banks and different rows, on one side of the crumb region, and the source outside
what only the unit and the home access (R174, R196). -/
def State.rowPieces (s : State) (die v : Nat) (c : GlzCmd) : List (Nat × Nat) :=
  let (lo, len) := strokePart c.target (glzTargetLen c) c.stroke
  let share := s.share die
  let tOff := (stackLoc share (c.target % 2 ^ 37)).2 + (lo - c.target)
  let first := (tOff + rowPiece - 1) / rowPiece * rowPiece
  if c.gop ≠ 1 || c.key ≠ none || 64 * share ≤ c.target % 2 ^ 37 || 2 ^ 44 ≤ c.srcA then []
  else ((List.range ((tOff + len - first) / rowPiece)).map (fun k => first + k * rowPiece)).filterMap (fun d =>
    let dst := lo + (d - tOff)
    let src := c.srcA + (dst - c.target)
    match regionOf src with
    | .stack die' o =>
      let (v', sOff) := stackLoc share o
      let placed := o + rowPiece ≤ 64 * share && sOff + rowPiece ≤ share
      if die' = die && v' = v && placed && sOff % rowPiece = 0 && blockBank (sOff / 128) = blockBank (d / 128) &&
          blockRow (sOff / 128) ≠ blockRow (d / 128) && s.isCrumb die v (sOff / 128) = s.isCrumb die v (d / 128) &&
          !s.hiddenRange die o rowPiece && s.placeOfAddr src ≠ .nowhere && s.placeOfAddr (src + rowPiece - 1) ≠ .nowhere then
        some (dst, src)
      else none
    | _ => none)

/-- The current stroke of a command computed from memory as it stands (R196 to R201, R206). -/
def State.glzCompute (s : State) (die v : Nat) (c : GlzCmd) : GlzStep × State :=
  let d := c.desc
  let n := gCount d
  let sz := glzSize (gDfmt d)
  let (lo, len) := strokePart c.target (glzTargetLen c) c.stroke
  match c.gop with
  | 0 =>
    let pat := (d.drop 32).take 32
    (.ok ((cutBlocks lo len).map (fun p => (p.1, (List.range p.2).map (fun i => pat.getD ((p.1 - c.target + i) % 32) 0), false)))
      0, s)
  | 1 =>
    if s.overlapsSrc c c.srcA n c.target n then (.fail 0x4, s)
    else s.overChunks ((cutBlocks lo len).filter (fun p => !(s.rowPieces die v c).any (fun r => overlap p.1 p.2 r.1 rowPiece))) (fun t a m =>
      let g := t.glzTake c (c.srcA + (a - c.target)) m
      match g.bad with
      | some b => (b, g.s)
      | none => (.ok [(a, g.bytes, g.poison)] 0, g.s))
  | 2 | 3 =>
    s.overChunks (cutBlocks lo len) (fun t a m =>
      let old := t.glzTake c a m
      let g := old.s.glzTake c (c.srcA + (a - c.target)) m
      match old.bad, g.bad with
      | some b, _ => (b, g.s)
      | _, some b => (b, g.s)
      | none, none =>
        let alpha := if c.gop = 3 then some (gP d 0) else none
        let es := ((elemsOf sz old.bytes).zip (elemsOf sz g.bytes)).map (fun p => addElem (gDfmt d) p.1 p.2 alpha)
        (.ok [(a, bytesOf sz es, old.poison || g.poison)] 0, g.s))
  | 4 =>
    s.overChunks (cutBlocks lo len) (fun t a m =>
      let i := (a - c.target) / sz
      let k := m / sz
      let gsz := glzSize (gAux d)
      let w := t.glzTake c a m
      let m1 := w.s.glzTake c (c.srcA + 4 * i) (4 * k)
      let m2 := m1.s.glzTake c (c.srcB + 4 * i) (4 * k)
      let g := m2.s.glzTake c (c.srcC + gsz * i) (gsz * k)
      match ([w, m1, m2, g].filterMap (·.bad)).head? with
      | some b => (b, g.s)
      | none =>
        let rs := (((elemsOf sz w.bytes).zip (elemsOf 4 m1.bytes)).zip ((elemsOf 4 m2.bytes).zip (elemsOf gsz g.bytes))).map
          (fun p => optElem (gDfmt d) (gAux d) ((List.range 7).map (gP d)) p.1.1 p.1.2 p.2.1 p.2.2)
        let bad := w.poison || m1.poison || m2.poison || g.poison
        (.ok [(a, bytesOf sz (rs.map (·.1)), bad), (c.srcA + 4 * i, bytesOf 4 (rs.map (·.2.1)), bad),
              (c.srcB + 4 * i, bytesOf 4 (rs.map (·.2.2)), bad)] 0, g.s))
  | 5 =>
    let h := s.glzTake c c.target 64
    match h.bad with
    | some b => (b, h.s)
    | none =>
      if h.poison then (.ok [(c.target, h.bytes, true)] 0, h.s)
      else match h.s.kvRows die v c h.bytes with
      | (.error e, t) => (e, t)
      | (.ok rows, t) =>
        let dd := gP d 0
        let ssz := glzSize (gSfmt d)
        let rb := kvRowBytes (gDfmt d) dd
        let per := kvPerStroke rb
        let first := c.stroke * per
        let part := (rows.zipIdx.drop first).take per
        if !rows.all (fun a => t.glzOwn die v a rb) then (.fail 0x4, t)
        else
          let r := t.overChunks (part.map (fun p => (p.1, p.2))) (fun u a j =>
            let g := u.glzTake c (c.srcA + j * dd * ssz) (dd * ssz)
            match g.bad with
            | some b => (b, g.s)
            | none => (.ok [(a, kvRow (gDfmt d) ((elemsOf ssz g.bytes).map (glzVal (gSfmt d))), g.poison)] 0, g.s))
          match r with
          | (.ok ws _, u) =>
            let tail := if first + per < n then [] else [(c.target, leBytes 8 (dNum h.bytes 0 8 + n), false)]
            (.ok (ws ++ tail) 0, u)
          | x => x
  | 6 =>
    let rb := 32 * gAux d
    let il := s.gatherList c
    match il.bad with
    | some b => (b, il.s)
    | none =>
      let idx := gatherIdx (elemsOf 4 il.bytes)
      let out := idx.length * rb
      let (lo6, len6) := strokePart c.target out c.stroke
      if !il.s.glzOwn die v c.target out then (.fail 0x4, il.s)
      else
        match il.s.gatherRows c idx rb with
        | (.error .wait, u) => (.wait, u)
        | (.error _, u) => (.fail 0x2, u)
        | (.ok rows, u) =>
        let rowAt := fun (j : Nat) => rows.getD j []
        if rows.any (fun r => r.any (fun p => overlap p.1 p.2 c.target out)) then (.fail 0x4, u)
        else
          let r := u.overChunks (cutBlocks lo6 len6) (fun t a m =>
            -- the rows that the block takes, piece by piece
            let first := (a - c.target) / rb
            let last := (a - c.target + m - 1) / rb
            let g := (List.range (last + 1 - first)).foldl (fun (g : Gather) i =>
              let j := first + i
              let p := max (a - c.target) (j * rb)
              let q := min (a - c.target + m) ((j + 1) * rb)
              (subPieces (rowAt j) (p - j * rb) (q - p)).foldl (fun g' x => g'.more c x.1 x.2) g) (Gather.start t)
            match g.bad with
            | some b => (b, g.s)
            | none => (.ok [(a, g.bytes, g.poison || il.poison)] 0, g.s))
          match r with
          | (.ok ws _, u) =>
            let tail := if c.stroke + 1 < strokeCount c.target out then [] else [(c.srcC, leBytes 8 idx.length, false)]
            (.ok (ws ++ tail) (strokeCount c.target out), u)
          | x => x
  | 7 =>
    let dd := gP d 0
    let k := gAux d
    if s.overlapsSrc c c.srcA (n * dd * sz) c.target (n * 8 * k) then (.fail 0x4, s)
    else s.overChunks (cutBlocks lo len) (fun t a m =>
      let first := (a - c.target) / (8 * k)
      let last := (a - c.target + m - 1) / (8 * k)
      let g := (List.range (last + 1 - first)).foldl (fun (acc : Gather × List Byte) i =>
        let h := acc.1.s.glzTake c (c.srcA + (first + i) * dd * sz) (dd * sz)
        ({ acc.1 with bad := if acc.1.bad = none then h.bad else acc.1.bad, poison := acc.1.poison || h.poison, s := h.s },
          acc.2 ++ topkRow (gDfmt d) k (elemsOf sz h.bytes))) (Gather.start t, [])
      match g.1.bad with
      | some b => (b, g.1.s)
      | none => (.ok [(a, (g.2.drop (a - c.target - first * 8 * k)).take m, g.1.poison)] 0, g.1.s))
  | _ =>
    let m := atomSize c.aop
    let g := s.glzTake c c.target m
    match g.bad with
    | some b => (b, g.s)
    | none =>
      let old := leNat g.bytes
      (.ok [(c.target, leBytes m (atomResult c.aop old c.operand c.compare), g.poison)] old, g.s)

/-! ## Writing and staging -/

/-- The vault offset of a local stack address. -/
def State.vaultOff (s : State) (a : Nat) : Nat := (stackLoc (s.share (a / 2 ^ 37)) (a % 2 ^ 37)).2

/-- Does another key hold a staged byte of a range (R209)? -/
def State.stageClash (s : State) (die v : Nat) (key : Option (Nat × Nat)) (a n : Nat) : Bool :=
  let off := s.vaultOff a
  (s.glzUnit die v).staging.any (fun r =>
    some r.key ≠ key && (List.range n).any (fun i => (off + i) / 128 = r.block && r.mask / 2 ^ ((off + i) % 128) % 2 = 1))

/-- One block of a staged write: the key's record of the block, or a new one filled from the target (R208). The code is that of a failure:
no free record, or a target block that reads poisoned, whose record is written poisoned (R211). -/
def State.stageBlock (s : State) (die v : Nat) (key : Nat × Nat) (off : Nat) (d : List Byte) (poison : Bool) : State × Option Nat :=
  let block := off / 128
  let lo := off % 128
  let mask := (2 ^ d.length - 1) * 2 ^ lo
  let u := s.glzUnit die v
  if u.staging.any (fun r => r.key = key && r.block = block) then
    (s.updGlz die v (fun u => { u with staging := u.staging.map (fun r =>
      if r.key = key && r.block = block then
        { r with data := putBytes r.data lo d, mask := r.mask ||| mask, poison := r.poison || poison }
      else r) }), none)
  else if s.stageCap die v ≤ u.staging.length then (s, some 0x7)
  else
    let (old, bad, t) := s.engRead (engOf die) (s.vaultAddr die v (block * 128)) 128 srcGlaze
    let r : StageRec := ⟨block, putBytes old lo d, mask, key, poison || bad⟩
    (t.updGlz die v (fun u => { u with staging := u.staging ++ [r] }), if bad then some 0x9 else none)

/-- The writes of a stroke: to memory as invalidating writes (R203), or to staging records (R208); the code is one of R211. A full area
ends the writes, and the records already written stay. -/
def State.glzWrites (s : State) (die v : Nat) (key : Option (Nat × Nat)) (ws : List GlzWrite) : State × Option Nat :=
  if ws.any (fun w => s.stageClash die v key w.1 w.2.1.length) then (s, some 0x8)
  else
    ws.foldl (fun (acc : State × Option Nat) w =>
      match key with
      | none => (acc.1.engWrite (engOf die) w.1 w.2.1 w.2.2 srcGlaze, acc.2)
      | some k =>
        (cutBlocks w.1 w.2.1.length).foldl (fun (x : State × Option Nat) p =>
          if x.2 = some 0x7 then x
          else
            let (u, code) := x.1.stageBlock die v k (x.1.vaultOff p.1) ((w.2.1.drop (p.1 - w.1)).take p.2) w.2.2
            (u, match x.2, code with | some e, none => some e | _, e => e)) acc) (s, none)

/-- The lines that the writes of a stroke need at their home, or the state that asks for them: an unstaged stroke's for its writes, a
staged one's for the blocks that it reads into new records. -/
def State.writeWait (s : State) (die v : Nat) (key : Option (Nat × Nat)) (ws : List GlzWrite) : Option State :=
  let waits :=
    match key with
    | none => ws.map (fun (w : GlzWrite) => s.engWait (engOf die) true w.1 w.2.1.length)
    | some k =>
      (ws.flatMap (fun (w : GlzWrite) => cutBlocks w.1 w.2.1.length)).map (fun (p : Nat × Nat) =>
        let off := s.vaultOff p.1
        if (s.glzUnit die v).staging.any (fun r => r.key = k && r.block = off / 128) then none
        else s.engWait (engOf die) false (s.vaultAddr die v (off / 128 * 128)) 128)
  (waits.filterMap id).head?

/-! ## Ends -/

/-- The code and source fields of GLZ_ERR (R215). -/
def GlzSrc.code : GlzSrc → Nat
  | .stream .. => 0
  | .queue _ => 1
  | .fabric .. => 2

def GlzSrc.origin : GlzSrc → Nat
  | .stream die _ core _ => die % 8 * 512 + core % 64 * 8
  | .queue q => q
  | .fabric _ pkg _ _ => pkg

/-- A response of this package to a request that came by a port; it is kept with the request's tag (R255). -/
def State.fabReply (s : State) (port : Nat) (m : FabMsg) : State :=
  let s1 := s.updFab (fun x => { x with seen := x.seen.map (fun y =>
    if y.src = m.dst && y.agent = m.agent && y.tag = m.tag then { y with answer := some m } else y) })
  if port = selfPort then s1.inbox selfPort m
  else if selfPort < port then s1.emit (.site (port - selfPort - 1) m)
  else s1.dispatch (portDie port) m

/-- A response with no data units. -/
def rspMsg (typ own pkg agent tag aux : Nat) (units : List Nat) : FabMsg :=
  { typ := typ, hops := 0, dst := pkg, src := own, tag := tag, agent := agent, aux := aux, addr := 0, units := units }

/-- The end of a command reported to its source (R132, R211): codes of R211. A failed fabric command is answered with a
NAK (log entry 18). That of a command whose source is gone is discarded (R207). -/
def State.glzEnd (s : State) (c : GlzCmd) (fail : Option Nat) (old : Nat) : State :=
  if c.orphan then s
  else match c.src with
  | .stream die id _ _ => { s with cmdEnds := s.cmdEnds ++ [⟨die, id, fail, false, old, true⟩] }
  | .queue q => { s with queueEnds := s.queueEnds ++ [(q, fail)] }
  | .fabric port pkg agent tag =>
    let m :=
      match fail with
      | some e => rspMsg mNAK s.ownId pkg agent tag (if e = 0xA then nFENCED else nADDRESS) []
      | none => if c.gop = 8 then rspMsg mRSPOLD s.ownId pkg agent tag 0 [old] else rspMsg mRSPACK s.ownId pkg agent tag 0 []
    s.fabReply port m

/-- A command fails: recorded in GLZ_ERR, FAIL_CNT and the log, and failed back to its source (R211, R215, R542). -/
def State.glzFail (s : State) (die v : Nat) (c : GlzCmd) (code : Nat) : State :=
  let gop := if c.gop = 8 then 0xF else c.gop
  let w := code * 2 ^ 52 + gop * 2 ^ 48 + c.src.code * 2 ^ 46 + c.src.origin * 2 ^ 32 + c.stroke % 2 ^ 15
  let s1 := s.finc die (GLZ_CNT.FAIL_CNT.unit v)
  let s2 := if s1.fbit die (GLZ_ERR.VALID.unit v) then s1 else s1.wr die (0x240 + v) 0x018 (BitVec.ofNat 64 (2 ^ 63 + w))
  (s2.logErr die 2 0x04 v code (w % 2 ^ 44)).glzEnd c (some code) 0

/-- The command at the front, which the unit performs (R202). -/
def State.glzFront (s : State) (die v : Nat) : Option GlzCmd :=
  if s.dieUp die && !s.resuming die v && s.vState die v ≠ vSELFREF then (s.glzUnit die v).cmds.head? else none

def State.setFront (s : State) (die v : Nat) (c : GlzCmd) : State :=
  s.updGlz die v (fun u => { u with cmds := c :: u.cmds.drop 1 })

def State.dropFront (s : State) (die v : Nat) : State := s.updGlz die v (fun u => { u with cmds := u.cmds.drop 1 })

/-- The front command fails and its record is freed (R206, R211). -/
def State.failFront (s : State) (die v : Nat) (c : GlzCmd) (code : Nat) : State := (s.dropFront die v).glzFail die v c code

/-! ## Arrival -/

/-- The failure that a command meets at its unit before it writes anything, if any (R191, R194, R205, R211). -/
def State.glzCheck (s : State) (die v : Nat) (c : GlzCmd) : Option Nat :=
  let d := c.desc
  let own := fun a n => s.glzOwn die v a n
  if s.vState die v = vFENCED then some 0xA
  else if !s.hasArea die v then some 0x5
  else if c.early ≠ 0 then some c.early
  else if c.gop = 8 then (if own c.target (atomSize c.aop) then none else some 0x4)
  else if !glzFormOk c.gop d then some 0x1
  else
    let sz := glzSize (gDfmt d)
    let aligned :=
      match c.gop with
      | 0 => c.target % 64 = 0
      | 1 => c.target % 64 = 0 && c.srcA % 64 = 0
      | 2 | 3 => c.target % sz = 0 && c.srcA % sz = 0
      | 4 => c.target % sz = 0 && c.srcA % 4 = 0 && c.srcB % 4 = 0 && c.srcC % glzSize (gAux d) = 0
      | 5 => c.srcA % glzSize (gSfmt d) = 0
      | 6 => c.srcA % 4 = 0 && c.srcC % 8 = 0
      | _ => c.target % 4 = 0 && c.srcA % sz = 0
    let ranges := own c.target (glzTargetLen c) && (c.gop ≠ 4 || (own c.srcA (4 * gCount d) && own c.srcB (4 * gCount d))) &&
      (c.gop ≠ 6 || own c.srcC 8)
    if aligned && ranges then none else some 0x4

/-- One command enters the input queue: it gets a progress record, or fails (R190, R206). -/
def State.glzAccept (s : State) (die v : Nat) (c : GlzCmd) : State :=
  match s.glzCheck die v c with
  | some code => s.glzFail die v c code
  | none => s.updGlz die v (fun u => { u with cmds := u.cmds ++ [c] })

/-- Does a unit take another command from a sender: with those on their way it holds fewer than 64, and no scan runs (R204, R207)? -/
def State.glzRoom (s : State) (die v : Nat) : Bool :=
  let u := s.glzUnit die v
  u.cmds.length + u.coming.length < 64 && !s.resuming die v

/-- The oldest command of a port enters a unit's input queue; a 65th waits in its sender (R190, R204). -/
def State.glzPort (s : State) (die v port : Nat) : State :=
  if 64 ≤ (s.glzUnit die v).cmds.length then s
  else match takeFirst (fun c => decide (c.port = port)) (s.glzUnit die v).coming with
  | some (c, rest) => (s.updGlz die v (fun u => { u with coming := rest })).glzAccept die v c
  | none => s

/-- GLAZE_COMMAND_ARRIVAL (R190, R204): the oldest command of each port, in the order of the ports. Any command waits in its
sender while the area is scanned. -/
def effGlazeCommandArrival (die v : Nat) (s : State) : State :=
  if !isC die || 64 ≤ v || !s.dieUp die || s.resuming die v then s
  else (List.range 5).foldl (fun (t : State) p => t.glzPort die v p) s

/-! ## Strokes as commands -/

/-- Lines of other packages that the front command needs for its sources are asked for, in the unit's own name (R384). -/
def State.askRemote (s : State) (die v : Nat) (c : GlzCmd) (spans : List (Nat × Nat)) : State :=
  let want := (spans.flatMap (fun p => c.lacks p.1 p.2)).dedup
  let s1 := s.setFront die v { c with asked := c.asked ++ want }
  want.foldl (fun t l =>
    t.fabAsk (qOf die) (.glzRead die v c.src (l * 64)) (rdMsg (agCore die v) (t.dstOf (l * 64 / 2 ^ 44)) (l * 64 % 2 ^ 44))) s1

/-- The ranges that the current stroke reads of its sources, a gather's rows apart. -/
def GlzCmd.srcSpans (c : GlzCmd) : List (Nat × Nat) :=
  let d := c.desc
  let sp := glzSpans c.gop d
  let (lo, len) := strokePart c.target (glzTargetLen c) c.stroke
  let sz := glzSize (gDfmt d)
  let i := (lo - c.target) / sz
  let all := [(c.srcA, sp.1), (c.srcB, sp.2.1), (c.srcC, if c.gop = 6 then 0 else sp.2.2)]
  let part :=
    match c.gop with
    | 1 | 2 | 3 => [(c.srcA + (lo - c.target), len)]
    | 4 => [(c.srcC + glzSize (gAux d) * i, glzSize (gAux d) * (len / sz))]
    | _ => all
  part.filter (fun p => p.2 ≠ 0)

/-- Rows that a gather reads, once its index list is there. -/
def State.gatherSpans (s : State) (c : GlzCmd) : List (Nat × Nat) :=
  if c.gop ≠ 6 then []
  else
    let il := s.gatherList c
    if il.bad ≠ none then []
    else
      let rb := 32 * gAux c.desc
      match (il.s.gatherRows c (gatherIdx (elemsOf 4 il.bytes)) rb).1 with
      | .ok rows => rows.flatten
      | .error _ => []

/-- The physical ranges that the current stroke of a command reads (R195, R200). -/
def State.glzReads (s : State) (c : GlzCmd) : List (Nat × Nat) :=
  c.srcSpans.flatMap (fun p => (s.glzPieces c p.1 p.2).getD []) ++ s.gatherSpans c

/-- A write of a stroke without poison. -/
def cleanWrites (ws : List (Nat × List Byte)) : List GlzWrite := ws.map (fun w => (w.1, w.2, false))

/-- The 16 KiB pieces that ROWCOPY moves are copied, once every copy of their lines has given way (R174, R203). -/
def State.rowCopies (s : State) (die v : Nat) (rs : List (Nat × Nat)) : State :=
  rs.foldl (fun t r =>
    let t1 := (t.engSnoop (engOf die) false (linesOf r.2 rowPiece)).engSnoop (engOf die) true (linesOf r.1 rowPiece)
    let t2 := foldN 128 (fun u i => u.copyBlock die v (u.vaultOff r.2 / 128 + i) (u.vaultOff r.1 / 128 + i)) t1
    (linesOf r.1 rowPiece).foldl (fun x l => x.loseResv l (fun _ => true)) t2) s

/-- The lines that row operations need at their home, or the state that asks for them. -/
def State.rowWait (s : State) (die : Nat) (rs : List (Nat × Nat)) : Option State :=
  ((rs.flatMap (fun r => [s.engWait (engOf die) true r.1 rowPiece, s.engWait (engOf die) false r.2 rowPiece])).filterMap id).head?

/-- The writes of a computed stroke that met poison: the affected blocks are written poisoned, and the command fails (R211). -/
def State.glzPoisoned (s : State) (die v : Nat) (c : GlzCmd) (ws : List GlzWrite) : State :=
  let bad := ws.filter (fun w => w.2.2)
  match s.writeWait die v c.key bad with
  | some u => u
  | none =>
    let (u, code) := s.glzWrites die v c.key bad
    u.failFront die v c (code.getD 0x9)

/-- The current stroke of the front command computed: a direct operation writes its target; a shadowed one writes its shadow and is
marked, and the home holds the lines that it will write (R203, R206). A staged command keeps its bytes for its staging records. -/
def State.glzStroke (s : State) (die v : Nat) (c0 : GlzCmd) : State :=
  let spans := s.glzReads c0
  if (spans.flatMap (fun p => c0.lacks p.1 p.2)) ≠ [] && s.idValid then s.askRemote die v c0 spans
  else match s.glzCompute die v c0 with
  | (.wait, t) => t
  | (.fail code, t) => t.failFront die v c0 code
  | (.ok ws old, t) =>
    let c := if c0.gop = 6 then { c0 with total := old } else c0
    let rows := t.rowPieces die v c
    if ws.any (fun w => w.2.2) then t.glzPoisoned die v c ws
    else
      match t.writeWait die v c.key ws, t.rowWait die rows with
      | some u, _ => u
      | none, some u => u
      | none, none =>
        let c1 := { c with ready := true, writes := ws.map (fun w => (w.1, w.2.1)), old := old }
        if c.key ≠ none then t.setFront die v c1
        else if rows.any (fun r => t.stageClash die v none r.1 rowPiece) then t.failFront die v c 0x8
        else if glzShadowed c.gop then
          (ws.foldl (fun u w => u.engSnoop (engOf die) true (linesOf w.1 w.2.1.length)) t).setFront die v { c1 with held := true }
        else
          match t.glzWrites die v none ws with
          | (u, none) => (u.rowCopies die v rows).setFront die v c1
          | (u, some e) => u.failFront die v c e

/-- The strokes of a command; those of a gather are known once its index list has been read. -/
def GlzCmd.strokes (c : GlzCmd) : Nat := if c.gop = 6 then max 1 c.total else glzStrokes c

/-- An operation of the front command: its next stroke, where the command is of that kind. -/
def State.glzOp (s : State) (die v gop : Nat) : State :=
  if !isC die || 64 ≤ v then s
  else match s.glzFront die v with
  | some c => if c.gop = gop && !c.ready && c.stroke < c.strokes then s.glzStroke die v c else s
  | none => s

/-- FILL (R196). -/
def effFill (die v : Nat) (s : State) : State := s.glzOp die v 0
/-- COPY (R196). -/
def effCopy (die v : Nat) (s : State) : State := s.glzOp die v 1
/-- ACCUM (R197). -/
def effAccum (die v : Nat) (s : State) : State := s.glzOp die v 2
/-- SCALE_ADD (R197). -/
def effScaleAdd (die v : Nat) (s : State) : State := s.glzOp die v 3
/-- OPT_STEP (R198). -/
def effOptStep (die v : Nat) (s : State) : State := s.glzOp die v 4
/-- KV_APPEND (R199). -/
def effKvAppend (die v : Nat) (s : State) : State := s.glzOp die v 5
/-- GATHER_COMPACT (R200). -/
def effGatherCompact (die v : Nat) (s : State) : State := s.glzOp die v 6
/-- TOPK (R201). -/
def effTopk (die v : Nat) (s : State) : State := s.glzOp die v 7

/-- STROKE_COMMIT (R203, R206, R208): the stroke's bytes stand in the target or in staging records, and its number is written. The lines
that the home has held are free again; a stroke resumed after a reset takes its lines first. An atomic is computed and committed in one
stroke. -/
def effStrokeCommit (die v : Nat) (s : State) : State :=
  if !isC die || 64 ≤ v then s
  else match s.glzFront die v with
  | none => s
  | some c0 =>
    let s1 := if c0.gop = 8 && !c0.ready && c0.stroke = 0 then s.glzStroke die v c0 else s
    match s1.glzFront die v with
    | none => s1
    | some c =>
      if !c.ready || c.src ≠ c0.src || !s1.vaultFree die v then s1
      else
        let done := { c with stroke := c.stroke + 1, ready := false, writes := [], held := false }
        if c.key = none && !glzShadowed c.gop then s1.setFront die v done
        else
          match (if c.held then none else s1.writeWait die v c.key (cleanWrites c.writes)) with
          | some u => u
          | none =>
            match s1.glzWrites die v c.key (cleanWrites c.writes) with
            | (t, none) => t.setFront die v done
            | (t, some e) => t.failFront die v c e

/-- GLAZE_COMMAND_COMPLETE (R203, R206, R214): after the last stroke the record is freed and the source is told. -/
def effGlazeCommandComplete (die v : Nat) (s : State) : State :=
  if !isC die || 64 ≤ v then s
  else match s.glzFront die v with
  | some c =>
    if c.ready || c.stroke < c.strokes then s
    else
      (((s.dropFront die v).finc die (GLZ_CNT.CMD_CNT.unit v)).pmuEvent die 0x115 1).glzEnd c none c.old
  | none => s

/-! ## Resumption -/

/-- GLZ_AREA written (R213): ignored while records are counted, or where the range is not legal. -/
def State.areaWrite (s : State) (die v base size : Nat) (valid discard : Bool) : State :=
  if !isC die || 64 ≤ v || s.fget die (GLZ_STATUS.HELD.unit v) ≠ 0 || s.fget die (GLZ_STATUS.STAGE_USED.unit v) ≠ 0 ||
     size < 2 || 256 < size || 2048 < base + size then s
  else
    -- the directory area moves with the Glaze area: its home compares the header anew (R274)
    let s0 := s.updVault die v (fun x => { x with dirOn := false })
    let s1 := s0.fsets die
      [(GLZ_AREA.VALID.unit v, b2n valid), (GLZ_AREA.MODE.unit v, b2n discard), (GLZ_AREA.SIZE.unit v, size),
       (GLZ_AREA.BASE.unit v, base)]
    if !valid then s1.fset die (GLZ_STATUS.STATE.unit v) 0
    else
      let s2 := s1.fset die (GLZ_STATUS.STATE.unit v) (if s1.vState die v = vFENCED then 2 else 1)
      let old := (s2.glzUnit die v).area
      let same := old = some (base, size)
      let s3 := { s2 with glz := mapSet s2.glz (vaultKey die v) { s2.glzUnit die v with area := some (base, size) } }
      if discard || !same then
        -- every record of the area is dropped; those of another area are never resumed (R207)
        s3.updGlz die v (fun u => { u with cmds := [], staging := [], apply := [], kept := [], keptStage := [] })
      else s3.fset die (GLZ_STATUS.RESUMING.unit v) 1

/-- GLZ_AREA_RESUME (R207): VALID written 1 with MODE 0. -/
def effGlzAreaResume (die v base size : Nat) (s : State) : State := s.areaWrite die v base size true false

/-- GLZ_AREA_DISCARD (R207): VALID written 1 with MODE 1. -/
def effGlzAreaDiscard (die v base size : Nat) (s : State) : State := s.areaWrite die v base size true true

/-- RESUME_SCAN_DONE (R207, R214): surviving commands continue before any new one and are counted, and ask anew for the lines of other
packages that they lack; staged ones fail as ABANDONED, and their records stay. -/
def effResumeScanDone (die v : Nat) (s : State) : State :=
  if !isC die || 64 ≤ v || !s.dieUp die || !s.resuming die v || s.vState die v = vSELFREF then s
  else
    let s1 := s.fset die (GLZ_STATUS.RESUMING.unit v) 0
    let cs := (s1.glzUnit die v).kept
    let stay := (cs.filter (fun c => c.key = none)).map (fun c => { c with asked := [] })
    let s2 := (s1.updGlz die v (fun u =>
      { u with cmds := stay ++ u.cmds, staging := u.keptStage ++ u.staging, kept := [], keptStage := [] })).fadd die
        (GLZ_CNT.RESUME_CNT.unit v) stay.length
    (cs.filter (fun c => c.key ≠ none)).foldl (fun t c => t.glzFail die v c 0xC) s2

/-! ## Journaled apply -/

/-- GLZ_APPLY reads BUSY, and every unit of the die has the key and the operation (R217): 1 commit, 2 discard. A discard takes the key's
commands along that wait in the command queues of the die's cores (R157; DESIGN CHOICE, log entry 55). -/
def State.applyBegin (s : State) (die op pkg jid : Nat) : State :=
  let s1 := s.fsets die
    [(GLZ_APPLY.BUSY, 1), (GLZ_APPLY.RESULT, 0), (GLZ_APPLY.OP, op), (GLZ_APPLY.PKG, pkg), (GLZ_APPLY.JID, jid)]
  let k := (pkg % 4096, jid % 65536)
  let s2 := if op = 2 then s1.updTd die (fun t => { t with cmdq := t.cmdq.filter (fun c => c.key ≠ some k) }) else s1
  foldN 64 (fun t v => t.updGlz die v (fun u => { u with apply := u.apply ++ [(decide (op = 1), k.1, k.2)] })) s2

/-- A write of GLZ_APPLY (R217): ignored while BUSY; OP 1 and 2 start at all 64 units. -/
def State.applyStart (s : State) (die op pkg jid : Nat) : State :=
  if !isC die || s.fbit die GLZ_APPLY.BUSY then s else s.applyBegin die op pkg jid

/-- GLZ_APPLY_COMMIT (R210). -/
def effGlzApplyCommit (die pkg jid : Nat) (s : State) : State := s.applyStart die 1 pkg jid

/-- GLZ_APPLY_DISCARD (R210). -/
def effGlzApplyDiscard (die pkg jid : Nat) (s : State) : State := s.applyStart die 2 pkg jid

/-- Runs of staged bytes of a record: offsets and bytes. -/
def stageRuns (r : StageRec) : List (Nat × Byte) :=
  (List.range 128).filterMap (fun i => if r.mask / 2 ^ i % 2 = 1 then some (i, r.data.getD i 0) else none)

/-- A record merged into its target block (R210). -/
def State.commitRec (s : State) (die v : Nat) (r : StageRec) : State :=
  let a := s.vaultAddr die v (r.block * 128)
  let s1 :=
    [0, 1].foldl (fun t h =>
      let line := a / 64 + h
      let mask := r.mask / 2 ^ (64 * h) % 2 ^ 64
      if mask = 0 then t
      else
        let t0 := t.engSnoop (engOf die) true [line]
        (t0.memPut line ((r.data.drop (64 * h)).take 64) mask r.poison srcGlaze).loseResv line (fun _ => true)) s
  s1.updGlz die v (fun u => { u with staging := u.staging.filter (fun x => !(x.block = r.block && x.key = r.key)) })

/-- A unit forgets a key: its records are freed, and the commands of the key that it holds or that are on their way to it end (R157,
R210; DESIGN CHOICE, log entry 55: the spec states the freeing of the records, and that a re-run leaves one complete execution). -/
def State.discardKey (s : State) (die v : Nat) (k : Nat × Nat) : State :=
  let u := s.glzUnit die v
  let mine := fun (c : GlzCmd) => decide (c.key = some k)
  ((u.cmds ++ u.coming).filter mine).foldl (fun t c => t.glzEnd c (some 0xC) 0)
    (s.updGlz die v (fun u => { u with cmds := u.cmds.filter (fun c => !mine c), coming := u.coming.filter (fun c => !mine c),
                                       staging := u.staging.filter (fun r => r.key ≠ k) }))

/-- One unit performs the oldest commit or discard that it has been given, once its area has been scanned; a fenced vault is skipped. The
result says whether it has yet to finish. -/
def State.applyUnit (s : State) (die v : Nat) : State × Bool :=
  match (s.glzUnit die v).apply with
  | [] => (s, false)
  | (commit, pkg, jid) :: rest =>
    let done := fun (t : State) => (t.updGlz die v (fun u => { u with apply := rest }), decide (rest ≠ []))
    let recs := (s.glzUnit die v).staging.filter (fun r => r.key = (pkg, jid))
    if s.vState die v = vFENCED then done s
    else if s.resuming die v then (s, true)
    else if !commit then done (s.discardKey die v (pkg, jid))
    else
      match (recs.map (fun r => s.engWait (engOf die) true (s.vaultAddr die v (r.block * 128)) 128)).filterMap id with
      | t :: _ => (t, true)
      | [] => done (recs.foldl (fun t r => t.commitRec die v r) s)

/-- Every unit of a die goes on with its apply; true says that one is not finished. -/
def State.applyUnits (s : State) (die : Nat) : State × Bool :=
  (List.range 64).foldl (fun (acc : State × Bool) v =>
    let r := acc.1.applyUnit die v
    (r.1, acc.2 || r.2)) (s, false)

/-- The units of a die go on with a commit or discard, one that a reset interrupted as well (R207, R210); when every unit has finished,
BUSY clears with RESULT (R217). -/
def State.glzApplyDone (s : State) (die : Nat) : State :=
  if !isC die || !s.dieUp die then s
  else
    let fenced := (List.range 64).any (fun v => s.vState die v = vFENCED)
    let (s1, more) := s.applyUnits die
    if more || !s.fbit die GLZ_APPLY.BUSY then s1 else s1.fsets die [(GLZ_APPLY.BUSY, 0), (GLZ_APPLY.RESULT, b2n fenced)]

/-! ## The commands of this file: each one's effect, committed -/

/-- GLAZE_COMMAND_ARRIVAL (R190). -/
def execGlazeCommandArrival (die v : Nat) (s : State) : Host.Outcome State Fault Refusal :=
  s.commit (effGlazeCommandArrival die v s)

/-- FILL (R196). -/
def execFill (die v : Nat) (s : State) : Host.Outcome State Fault Refusal :=
  s.commit (effFill die v s)

/-- COPY (R196). -/
def execCopy (die v : Nat) (s : State) : Host.Outcome State Fault Refusal :=
  s.commit (effCopy die v s)

/-- ACCUM (R197). -/
def execAccum (die v : Nat) (s : State) : Host.Outcome State Fault Refusal :=
  s.commit (effAccum die v s)

/-- SCALE_ADD (R197). -/
def execScaleAdd (die v : Nat) (s : State) : Host.Outcome State Fault Refusal :=
  s.commit (effScaleAdd die v s)

/-- OPT_STEP (R198). -/
def execOptStep (die v : Nat) (s : State) : Host.Outcome State Fault Refusal :=
  s.commit (effOptStep die v s)

/-- KV_APPEND (R199). -/
def execKvAppend (die v : Nat) (s : State) : Host.Outcome State Fault Refusal :=
  s.commit (effKvAppend die v s)

/-- GATHER_COMPACT (R200). -/
def execGatherCompact (die v : Nat) (s : State) : Host.Outcome State Fault Refusal :=
  s.commit (effGatherCompact die v s)

/-- TOPK (R201). -/
def execTopk (die v : Nat) (s : State) : Host.Outcome State Fault Refusal :=
  s.commit (effTopk die v s)

/-- STROKE_COMMIT (R206). -/
def execStrokeCommit (die v : Nat) (s : State) : Host.Outcome State Fault Refusal :=
  s.commit (effStrokeCommit die v s)

/-- GLAZE_COMMAND_COMPLETE (R203). -/
def execGlazeCommandComplete (die v : Nat) (s : State) : Host.Outcome State Fault Refusal :=
  s.commit (effGlazeCommandComplete die v s)

/-- GLZ_AREA_RESUME (R207). -/
def execGlzAreaResume (die v base size : Nat) (s : State) : Host.Outcome State Fault Refusal :=
  s.commit (effGlzAreaResume die v base size s)

/-- GLZ_AREA_DISCARD (R207). -/
def execGlzAreaDiscard (die v base size : Nat) (s : State) : Host.Outcome State Fault Refusal :=
  s.commit (effGlzAreaDiscard die v base size s)

/-- RESUME_SCAN_DONE (R207). -/
def execResumeScanDone (die v : Nat) (s : State) : Host.Outcome State Fault Refusal :=
  s.commit (effResumeScanDone die v s)

/-- GLZ_APPLY_COMMIT (R210). -/
def execGlzApplyCommit (die pkg jid : Nat) (s : State) : Host.Outcome State Fault Refusal :=
  s.commit (effGlzApplyCommit die pkg jid s)

/-- GLZ_APPLY_DISCARD (R210). -/
def execGlzApplyDiscard (die pkg jid : Nat) (s : State) : Host.Outcome State Fault Refusal :=
  s.commit (effGlzApplyDiscard die pkg jid s)

end Sys2Proof.Machine
end

