-- ==== Sys2Proof/Machine/Journal.lean ====
section
/-!
DEFINITION. The journal of the queue engines (R471 to R474, R477): records, their images in memory and at the partner, and
what a running entry leaves in its record.
-/
namespace Sys2Proof.Machine

def QCtx.none : QCtx := ⟨0, 0, 0, 0, 0, 0, 0, 0, 0⟩

/-- A queue that has never been enabled. -/
def Queue.reset : Queue := { st := 0, stop := 0, ctx := QCtx.none, tail := 0, accepted := 0, ptr := 0, fetched := [] }

def State.queue (s : State) (q : Nat) : Queue := mapGet Queue.reset s.hq.queues q

def State.updQueue (s : State) (q : Nat) (f : Queue → Queue) : State :=
  { s with hq := { s.hq with queues := mapSet s.hq.queues q (f (s.queue q)) } }

/-- A record changed. -/
def State.setRec (s : State) (r : JRec) : State :=
  { s with hq := { s.hq with journal := s.hq.journal.map (fun x => if x.jid = r.jid then r else x) } }

def State.updRec (s : State) (jid : Nat) (f : JRec → JRec) : State :=
  { s with hq := { s.hq with journal := s.hq.journal.map (fun x => if x.jid = jid then f x else x) } }

def State.recOf (s : State) (jid : Nat) : Option JRec := s.hq.journal.find? (fun r => r.jid = jid)

/-- The record of a queue with the lowest sequence number: its entry runs, or is the next to run (R475). -/
def State.frontRec (s : State) (q : Nat) : Option JRec := s.hq.journal.find? (fun r => r.queue = q)

/-- A field of an entry. -/
def JRec.num (r : JRec) (o n : Nat) : Nat := dNum r.entry o n
def JRec.opcode (r : JRec) : Nat := r.num 0 1
/-- MODE: 0 RERUN, 1 JOURNAL, 2 ONCE (R468). -/
def JRec.mode (r : JRec) : Nat := r.num 1 1 % 4
def JRec.scope (r : JRec) : Nat := r.num 2 1
def JRec.inlineLen (r : JRec) : Nat := r.num 4 2

/-- The 512 B of a record (R472). -/
def JRec.image (r : JRec) : List Byte :=
  (r.entry ++ List.replicate 256 (0 : Byte)).take 256 ++ leBytes 2 r.queue ++ leBytes 1 r.st ++ leBytes 1 r.reruns ++
  leBytes 2 r.jid ++ leBytes 1 (r.die.getD 0) ++ leBytes 1 r.touch.length ++
  ((r.touch.flatMap (leBytes 2)) ++ List.replicate 32 (0 : Byte)).take 32 ++
  (r.cpl ++ List.replicate 32 (0 : Byte)).take 32 ++ List.replicate 184 0

/-! ## Regions -/

/-- An engine's write of memory, with any copy of the host or a companion recalled by the way. -/
def State.hqWrite (s : State) (a : Nat) (d : List Byte) : State :=
  let far := (linesOf a d.length).flatMap (fun l =>
    ((engSnoops (entryOf s l) true noAgent).filter (fun g => !isCacheAgent g)).map (fun g => (g, l)))
  (far.foldl (fun t x => t.emit (.snoop x.1 x.2 true)) s).engWrite engHome a d false srcDynamic

/-- Is a range of the Shelf direct window reachable: its channels and Q-die are up (R473)? -/
def State.shelfUp (s : State) (a n : Nat) : Bool :=
  (linesOf a n).all (fun l =>
    match s.placeOfAddr (l * 64) with
    | .shelf ch _ => s.dieUp (shfDie ch) && s.chOpen ch
    | _ => false)

/-- HQ_ERR takes the first queue stop or journal failure, and a record is logged (R492, R542). -/
def State.hqErr (s : State) (die code q : Nat) : State :=
  let s1 := s.logErr die 2 0x0D q code 0
  if s1.fbit die HQ_ERR.VALID then s1
  else s1.fsets die [(HQ_ERR.VALID, 1), (HQ_ERR.CODE, code), (HQ_ERR.QUEUE, q)]

/-- A record written in one region; a region that is unreachable sets DEGRADED (R473). -/
def State.regionPut (s : State) (q base : Nat) (r : JRec) : State :=
  let a := base * 2 ^ 21 + 512 * (r.jid % 32768)
  let d := s.queueDie q
  if s.shelfUp a 512 then s.hqWrite a r.image
  else if s.fbit d HQ_STATUS.DEGRADED then s
  else (s.fset d HQ_STATUS.DEGRADED 1).hqErr d 0x4 0

/-- Is a queue mirrored to a partner (R474)? -/
def State.partnered (s : State) (q : Nat) : Bool :=
  (s.queue q).ctx.flags / 2 % 2 = 1 && s.fbit (homeQ q) HQ_PARTNER.EN

/-- The record sent to the partner, one line at a time (R474). -/
def State.mirrorOut (s : State) (r : JRec) : State :=
  let pkg := s.fget (homeQ r.queue) HQ_PARTNER.PKG
  let at_ := (Config.partnerBase pkg / 2 ^ 25 * 2 ^ 25 + 512 * r.jid) % 2 ^ 44
  let s1 := s.updRec r.jid (fun x => { x with mirror := 8 })
  foldN 8 (fun t i => t.fabAsk (t.queueDie r.queue) (.mirror r.jid)
    (wrMsg (agQueue r.queue) pkg (at_ + 64 * i) ((r.image.drop (64 * i)).take 64))) s1

/-- A record's change of STATE written everywhere (R472, R474). -/
def State.jWrite (s : State) (r : JRec) : State :=
  let h := homeQ r.queue
  let s1 := (s.setRec r).regionPut r.queue (s.fget h HQ_JRNL.BASE) r
  let s2 := s1.regionPut r.queue (s.fget h HQ_JMIR.BASE) r
  if s2.partnered r.queue && !s2.fbit (s2.queueDie r.queue) HQ_STATUS.PARTNER_DOWN then s2.mirrorOut r else s2

/-- May the engine act on a record's state: every write of it has been made (R472, R474)? -/
def State.written (s : State) (r : JRec) : Bool := r.mirror = 0 || s.fbit (s.queueDie r.queue) HQ_STATUS.PARTNER_DOWN

/-! ## What a running entry leaves -/

/-- A package added to TOUCH before a staged command leaves for it (R477): false for a 17th. -/
def State.touchPkg (s : State) (jid pkg : Nat) : State × Bool :=
  match s.recOf jid with
  | none => (s, true)
  | some r =>
    if r.touch.contains pkg then (s, true)
    else if 16 ≤ r.touch.length then (s.setRec { r with over17 := true }, false)
    else (s.jWrite { r with touch := r.touch ++ [pkg] }, true)

/-- The record of the entry that runs on a C-die. -/
def State.dieRec (s : State) (die : Nat) : Option JRec :=
  s.hq.journal.find? (fun r => r.phase = .running && r.die = some die)

/-- The port that carries a queue's completion records: that of CPL's host window, else that of the serving Q-die
(R445). -/
def State.carryPort (s : State) (q : Nat) : Nat :=
  match regionOf (s.queue q).ctx.cpl with
  | .host p _ => p
  | _ => s.queueDie q - 4

/-- The last address that an item writes on a path other than the port of its record (R445). -/
def State.notePath (s : State) (r : Option JRec) (a n : Nat) : State :=
  match r with
  | none => s
  | some x =>
    match regionOf a with
    | .host p _ =>
      if n = 0 then s
      else if (s.p2pOf p a).isSome then s.updRec x.jid (fun y => { y with paths := mapSet y.paths (2 + p) (a + n - 1) })
      else if p ≠ s.carryPort x.queue then s.updRec x.jid (fun y => { y with paths := mapSet y.paths p (a + n - 1) })
      else s
    | _ => s

end Sys2Proof.Machine
end

