-- ==== Sys2Proof/Machine/Engines.lean ====
section
/-!
DEFINITION. The engines of stream commands (R132 to R135): sending, DMA (R134, R386), atomics outside the stack (R287),
completion and failure; and the fencing of a vault (R179).
-/
namespace Sys2Proof.Machine

/-! ## Any address -/

/-- Another package or a companion site that an address names, with the address there (R223, R453). -/
def State.farOf (s : State) (a : Nat) : Option (Nat × Nat) :=
  if 2 ^ 44 ≤ a then some (s.dstOf (a / 2 ^ 44), a % 2 ^ 44)
  else match regionOf a with
  | .companion c o => some (siteDst c, o)
  | _ => none

/-! ## DMA -/

def State.updDma (s : State) (no : Nat) (f : Dma → Dma) : State :=
  { s with dmas := s.dmas.map (fun d => if d.no = no then f d else d) }

/-- The first failure of a transfer holds. -/
def Dma.failed (d : Dma) (code addr : Nat) (home : Bool) : Dma :=
  { d with fail := match d.fail with | none => some (code, addr, home) | some x => some x }

/-- The next piece of a transfer: it lies in one line of each side (R386). -/
def Dma.piece (d : Dma) : Nat :=
  min (d.len - d.pos) (min (64 - (d.src + d.pos) % 64) (64 - (d.dst + d.pos) % 64))

/-- Requests of a transfer that are outstanding (R386: at most 256 of one engine). -/
def State.dmaOut (s : State) (no : Nat) : Nat :=
  (s.fab.reqs.filter (fun r => match r.origin with | .dmaGet j _ _ _ | .dmaPut j _ => decide (j = no) | _ => false)).length

/-- Who sends a transfer's requests: the Q-die that counts them, and the agent. -/
def State.dmaVia (s : State) (d : Dma) : Nat × Nat :=
  match d.who with
  | .stream die core _ => (qOf die, agCore die core)
  | .queue q => (s.queueDie q, agQueue q)

/-- The requester IDs of the Harbour queue engine and of the collective engines at their SLC (R288). -/
def idQueue : Nat := 33
def idColl : Nat := 34

/-- The die and the router of the engine of a transfer. -/
def State.dmaSeat (s : State) (d : Dma) : Nat × Nat :=
  match d.who with
  | .stream die core _ => (die, core)
  | .queue q => (s.queueDie q, 0)

/-- The requester ID of the reads of a transfer (R288). -/
def Dma.id (d : Dma) : Nat :=
  match d.who with
  | .stream _ core _ => core
  | .queue _ => idQueue

/-- One piece moved: copied here, or asked of the other side. The flag says whether the transfer may go on now. -/
def State.dmaPiece (s : State) (d : Dma) : State × Bool :=
  let n := d.piece
  let a := d.src + d.pos
  let b := d.dst + d.pos
  let (q, ag) := s.dmaVia d
  let seat := s.dmaSeat d
  match s.farOf a with
  | some (pkg, at_) =>
    if 256 ≤ s.dmaOut d.no then (s, false)
    else
      ((s.updDma d.no (fun x => { x with pos := x.pos + n })).fabAsk q (.dmaGet d.no b (at_ % 64) n) (rdMsg ag pkg at_), true)
  | none =>
    match s.readFrom seat.1 seat.2 d.id a n with
    | (.wait, t) => (t, false)
    | (.refused, t) => (t.updDma d.no (fun x => { x.failed 0x6 a false with pos := x.len }), false)
    | (.lost, t) => (t.updDma d.no (fun x => { x.failed 0x2 a true with pos := x.len }), false)
    | (.got bs p, t) =>
      let t1 := if p then t.updDma d.no (fun x => x.failed 0x5 a false) else t
      match t1.farOf b with
      | some (pkg, at_) =>
        if 256 ≤ t1.dmaOut d.no then (t1, false)
        else if p then (t1.updDma d.no (fun x => { x with pos := x.pos + n, acked := x.acked + n }), true)
        else ((t1.updDma d.no (fun x => { x with pos := x.pos + n })).fabAsk q (.dmaPut d.no n) (wrMsg ag pkg at_ bs), true)
      | none =>
        if t1.wayCut (t1.engineWay seat.1 seat.2 b) then
          ((t1.countWay (t1.engineWay seat.1 seat.2 b)).updDma d.no (fun x => { x.failed 0x2 b true with pos := x.len }), false)
        else match t1.writeFrom seat.1 seat.2 b bs p with
        | none => (t1.updDma d.no (fun x => { x.failed 0x6 b false with pos := x.len }), false)
        | some (false, u) => (u, false)
        | some (true, u) => (u.updDma d.no (fun x => { x with pos := x.pos + n, acked := x.acked + n }), true)

/-- A transfer goes as far as it can. -/
def State.dmaGo (s : State) (no : Nat) : Nat → State
  | 0 => s
  | k + 1 =>
    match s.dmas.find? (fun d => d.no = no) with
    | none => s
    | some d =>
      if d.len ≤ d.pos then s
      else
        match s.dmaPiece d with
        | (t, true) => t.dmaGo no k
        | (t, false) => t

/-- A transfer that has ended is taken off, and its owner is told (R132, R386). -/
def State.dmaEnd (s : State) (no : Nat) : State :=
  match s.dmas.find? (fun d => d.no = no) with
  | none => s
  | some d =>
    if d.pos < d.len || s.dmaOut no ≠ 0 then s
    else
      let s1 := { s with dmas := s.dmas.filter (fun x => x.no ≠ no) }
      match d.who, d.fail with
      | .stream die _ id, none => { s1 with cmdEnds := s1.cmdEnds ++ [⟨die, id, none, false, 0, true⟩] }
      | .stream die core id, some (code, addr, home) =>
        let s2 := s1.logErr die 2 0x10 core code addr
        { s2 with cmdEnds := s2.cmdEnds ++ [⟨die, id, some code, home, 0, true⟩] }
      | .queue q, none => { s1 with queueEnds := s1.queueEnds ++ [(q, none)] }
      | .queue q, some (code, _, _) => { s1 with queueEnds := s1.queueEnds ++ [(q, some code)] }

/-- A transfer started: it moves what it can at once. -/
def State.dmaStart (s : State) (who : DmaWho) (src dst len : Nat) : State :=
  let d : Dma := ⟨s.dmaNo, who, src, dst, len, 0, 0, none⟩
  let s1 := { s with dmas := s.dmas ++ [d], dmaNo := s.dmaNo + 1 }
  (s1.dmaGo d.no len).dmaEnd d.no

/-- Every transfer that `p` selects goes on. -/
def State.dmaAll (s : State) (p : Dma → Bool) : State :=
  (s.dmas.filter p).foldl (fun t d => (t.dmaGo d.no (d.len - d.pos)).dmaEnd d.no) s

/-! ## Sending commands (R132) -/

/-- An address of this package as a package `dst` names it in a package field (R223). -/
def State.reField (s : State) (dst a : Nat) : Nat :=
  let f := a / 2 ^ 44
  let pkg := if f = 0 then s.ownId else if f = s.ownId then 0 else f
  let g := if pkg = dst then 0 else if pkg = 0 then dst else pkg
  g * 2 ^ 44 + a % 2 ^ 44

/-- Little-endian bytes put into a descriptor. -/
def putNum (d : List Byte) (o n v : Nat) : List Byte := putBytes d o (leBytes n v)

/-- The descriptor as it travels to another package, with physical global addresses (R195). -/
def State.farDesc (s : State) (dst : Nat) (c : GlzCmd) : List Byte :=
  let sh := glzShape c.gop c.desc
  let put := fun (d : List Byte) (i o a : Nat) => if sh.srcs.getD i false then putNum d o 8 (s.reField dst a) else d
  put (put (put c.desc 0 8 c.srcA) 1 16 c.srcB) 2 24 c.srcC

/-- An address of a stream's descriptor through the window table (R195): none is a WINDOW failure. -/
def State.streamSrc (s : State) (die : Nat) (used : Bool) (a n : Nat) (p : Perm) : Option Nat :=
  if !used || n = 0 then some a else s.window die (BitVec.ofNat 64 a) n 1 p true

/-- The window that a stream's gathered rows translate by: BASE, LIMIT and PHYS; one that admits no row where it is not valid or lacks
R or G (R78, R195, R200). -/
def State.streamRows (s : State) (die : Nat) (c : Cmd) : Option (Nat × Nat × Nat) :=
  if c.op ≠ 6 then none
  else
    let o := 0x20 * (gSrcB c.desc / 2 ^ 58 % 64)
    let attr := s.rd die 0 (0x1018 + o)
    if bitAt attr 63 && bitAt attr 0 && bitAt attr 2 then
      some (s.fget die (SEQ_WIN_BASE.BASE.plus o), s.fget die (SEQ_WIN_LIMIT.LIMIT.plus o), s.fget die (SEQ_WIN_PHYS.PHYS.plus o))
    else some (0, 0, 0)

/-- Does the target range of a stream's GLZ translate as a whole, now that its descriptor gives the length (R78, R195)? -/
def State.streamTarget (s : State) (die : Nat) (c : Cmd) : Bool :=
  (s.window die (BitVec.ofNat 64 c.source) (glzLen c.op 0 c.desc) 1 permG true).isSome

/-- The Glaze command that a stream's GLZ builds (R133, R195). Sources need R and G, the count of a gather G alone. One for another
package carries the translated base of its rows. -/
def State.streamGlz (s : State) (die : Nat) (c : Cmd) : GlzCmd :=
  let sh := glzShape c.op c.desc
  let sp := glzSpans c.op c.desc
  let far := decide (2 ^ 44 ≤ c.target)
  let sa := s.streamSrc die (sh.srcs.getD 0 false) (gSrcA c.desc) sp.1 permRG
  let sb := s.streamSrc die (sh.srcs.getD 1 false) (gSrcB c.desc) (if c.op = 6 && far then 1 else sp.2.1) permRG
  let sc := s.streamSrc die (sh.srcs.getD 2 false) (gSrcC c.desc) sp.2.2 (if c.op = 6 then permG else permRG)
  { src := .stream die c.id c.core c.ctx, gop := c.op, aop := 0, target := c.target, srcA := sa.getD 0, srcB := sb.getD 0,
    srcC := sc.getD 0, desc := c.desc, operand := 0, compare := 0, key := c.key, stroke := 0, ready := false,
    writes := [], old := 0, remote := [], have_ := [], asked := [], port := 0,
    early := if sa.isSome && sb.isSome && sc.isSome && s.streamTarget die c then 0 else 0x2, rowWin := s.streamRows die c }

/-- The code of R387 of a stream atomic (R135). -/
def ratomCode (aop : Nat) : Nat := [0x00, 0x01, 0x02, 0x0F, 0x0D, 0x04, 0x05].getD aop 0x05

/-- A stream atomic as a Glaze command (R190). -/
def streamAtom (die : Nat) (c : Cmd) : GlzCmd :=
  { src := .stream die c.id c.core c.ctx, gop := 8, aop := ratomCode c.op, target := c.target, srcA := 0, srcB := 0, srcC := 0,
    desc := [], operand := c.operand, compare := c.compare, key := c.key, stroke := 0, ready := false,
    writes := [], old := 0, remote := [], have_ := [], asked := [], port := 0, early := 0 }

/-- The port by which a die's command reaches a unit: a guest reaches its own fenced core's vault by the vault port
(R87, R190). -/
def State.portOf (s : State) (from_ core ctx die v a : Nat) : Nat :=
  if from_ = die && isGuest ctx && s.fget die (TC_STATUS.FOLDED_FROM.unit core) = v then 0
  else s.arrivalPort from_ core die v (pathBit a)

/-- The way of a command from a die and router to the Glaze unit of its target (R247). -/
def State.unitWay (s : State) (from_ router target : Nat) : Option (List Leg) :=
  let d := target / 2 ^ 37
  s.way from_ router d (stackLoc (s.share d) (target % 2 ^ 37)).1 (pathBit target)

/-- A command on its way to the unit of its target's vault, on this package (R191). -/
def State.toUnit (s : State) (from_ core ctx : Nat) (g : GlzCmd) : State :=
  let die := g.target / 2 ^ 37
  let v := (stackLoc (s.share die) (g.target % 2 ^ 37)).1
  (s.countWay (s.unitWay from_ core g.target)).updGlz die v (fun u => { u with coming := u.coming ++ [{ g with port := s.portOf from_ core ctx die v g.target }] })

/-- A command that fails before any engine takes it: recorded by the command port of its core (R132, R542). -/
def State.portFail (s : State) (die : Nat) (c : Cmd) (code : Nat) : State :=
  let unit := if c.kind = .dma then 0x10 else 0x04
  let s1 := s.logErr die 2 unit c.core code c.target
  { s1 with cmdEnds := s1.cmdEnds ++ [⟨die, c.id, some code, false, 0, true⟩] }

/-- A command whose every route to its unit is down fails with home unavailable at once (R242). -/
def State.portLost (s : State) (die : Nat) (c : Cmd) : State :=
  let s1 := s.logErr die 2 0x04 c.core 0xB c.target
  { s1 with cmdEnds := s1.cmdEnds ++ [⟨die, c.id, some 0xB, true, 0, true⟩] }

/-- The GLZ message of a command (R377): GOP in [3:0], JID in [19:4], the staged bit in [20]. -/
def State.glzMsg (s : State) (agent dst : Nat) (g : GlzCmd) : FabMsg :=
  let aux := g.gop + (match g.key with | some k => k.2 * 16 + 2 ^ 20 | none => 0)
  { typ := mGLZ, hops := 0, dst := dst, src := 0, tag := 0, agent := agent, aux := aux, addr := g.target % 2 ^ 44,
    units := unitsOf (s.farDesc dst g) }

/-- Does a local address lie in a range whose atomics the RLC performs (R287)? -/
def rlcAtom (a : Nat) : Bool :=
  match regionOf a with
  | .shelf _ | .tidal _ | .host .. => true
  | _ => false

/-- One command handed to its engine. A command for a unit whose die is stopped waits. -/
def State.sendCmd (s : State) (die : Nat) (c : Cmd) : State :=
  let far := c.target / 2 ^ 44
  match c.kind with
  | .dma =>
    if (2 ^ 44 ≤ c.source || 2 ^ 44 ≤ c.target) && !s.idValid then s.portFail die c 0x6
    else if [c.source, c.target].any (fun a => 2 ^ 44 ≤ a && s.candidates (s.dstOf (a / 2 ^ 44)) = []) then s.portFail die c 0x4
    else (s.notePath (s.dieRec die) c.target c.length).dmaStart (.stream die c.core c.id) c.source c.target c.length
  | .glz =>
    let g := s.streamGlz die c
    if far ≠ 0 then
      if !s.idValid then s.portFail die c 0x3
      else
        let dst := s.dstOf far
        if s.candidates dst = [] then s.portFail die c 0xB
        else if g.early ≠ 0 then s.portFail die c g.early
        else
          match g.key with
          | none => s.fabAsk (qOf die) (.glz die c.id) (s.glzMsg (agCore die c.core) dst g)
          | some k =>
            -- the package is touched before a staged command leaves; a 17th fails the command (R477)
            match s.touchPkg k.2 dst with
            | (t, true) => t.fabAsk (qOf die) (.glz die c.id) (t.glzMsg (agCore die c.core) dst g)
            | (t, false) => t.portFail die c 0xB
    else
      match regionOf c.target with
      | .stack .. => 
        if s.placeOfAddr c.target = .nowhere then s.portFail die c 0x3
        else if s.wayCut (s.unitWay die c.core c.target) then (s.countWay (s.unitWay die c.core c.target)).portLost die c
        else s.toUnit die c.core c.ctx g
      | _ => s.portFail die c 0x3
  | .ratom =>
    if far ≠ 0 then
      if !s.idValid then s.portFail die c 0x3
      else
        let dst := s.dstOf far
        if s.candidates dst = [] then s.portFail die c 0xB
        else s.fabAsk (qOf die) (.ratom die c.id)
          (atomMsg (agCore die c.core) dst (c.target % 2 ^ 44) (ratomCode c.op) c.operand c.compare)
    else if !s.populated c.target (atomBytes c.op) then s.portFail die c 0x3
    else if rlcAtom c.target then
      (s.notePath (s.dieRec die) c.target (atomBytes c.op)).tryLine
                { agent := die + 2, line := c.target / 64, side := false, cls := s.classOf (die + 2) c.core, hart := none,
                  op := .ratom, addr := c.target, len := atomBytes c.op, data := leBytes 8 c.operand ++ leBytes 8 c.compare,
                  code := ratomCode c.op + 32 * c.id,sent := false }
    else
      match regionOf c.target with
      | .stack .. =>
        if s.wayCut (s.unitWay die c.core c.target) then (s.countWay (s.unitWay die c.core c.target)).portLost die c
        else s.toUnit die c.core c.ctx (streamAtom die c)
      | _ => s.portFail die c 0x3

/-- The die that must be up for a command to be taken: that of its unit (R256). -/
def cmdDie (die : Nat) (c : Cmd) : Nat :=
  match c.kind, regionOf c.target with
  | .glz, .stack d _ | .ratom, .stack d _ => if c.target < 2 ^ 44 then d else die
  | _, _ => die

/-- Is a command out of reach of its unit: the unit's die is stopped, or no path leads there (R252, R256)? -/
def State.cmdAway (s : State) (die : Nat) (c : Cmd) : Bool :=
  !s.dieUp (cmdDie die c) || (cmdDie die c ≠ die && (s.unitWay die c.core c.target).isNone)

/-- Does the engine of a command accept it: a Glaze unit of this package is within reach and has room (R132, R204, R256)? -/
def State.accepts (s : State) (die : Nat) (c : Cmd) : Bool :=
  !s.cmdAway die c &&
  (match c.kind, regionOf c.target with
   | .glz, .stack d o | .ratom, .stack d o => 2 ^ 44 ≤ c.target || s.glzRoom d (stackLoc (s.share d) o).1
   | _, _ => true)

/-- COMMAND_SEND (R73, R132, R204): the oldest command of a core that no open step holds is sent to its engine. An await whose queues are
then empty enters its step 2. -/
def effCommandSend (die core : Nat) (s : State) : State :=
  match (s.td die).cmdq.find? (fun c => c.core = core) with
  | none => s
  | some c =>
    if c.held || !s.dieUp die || !s.accepts die c then s
    else
      ((s.updTd die (fun t => { t with cmdq := t.cmdq.filter (fun x => x.id ≠ c.id), sent := t.sent ++ [c] })).sendCmd die
        c).enterStep2 die

/-- The effects of a completed command on its issuing die: the old value of an atomic, and the token (R132, R135). Tokens of
a work item that has ended are discarded (R207). -/
def State.cmdDone (s : State) (die : Nat) (c : Cmd) (e : CmdEnd) : State :=
  let s1 :=
    if c.kind = .ratom && c.retEn then s.dynSlabPut die c.core c.ret (leBytes 8 e.old) (fullMask 8) else s
  if c.tokEn && (s1.td die).itemCmd ≤ c.id && s1.running die then s1.tokenAdd die c.token 1 else s1

/-- COMMAND_COMPLETE (R132): the die's transfers go on, and its oldest command that has completed adds its token. -/
def effCommandComplete (die : Nat) (s : State) : State :=
  if !isC die || !s.dieUp die then s
  else
    let s0 := s.dmaAll (fun d => match d.who with | .stream x _ _ => decide (x = die) | _ => false)
    match takeFirst (fun e => decide (e.die = die && e.fail = none)) s0.cmdEnds with
    | none => s0
    | some (e, rest) =>
      let s1 := { s0 with cmdEnds := rest }
      match takeFirst (fun c => decide (c.id = e.id)) (s1.td die).sent with
      | none => s1
      | some (c, left) => (s1.updTd die (fun t => { t with sent := left })).cmdDone die c e

/-- COMMAND_FAILURE (R132): the oldest failed command is recorded, sets ABORT, and hands its code to the sequencer. -/
def effCommandFailure (die : Nat) (s : State) : State :=
  if !isC die || !s.dieUp die then s
  else match takeFirst (fun e => decide (e.die = die && e.fail ≠ none)) s.cmdEnds with
  | none => s
  | some (e, rest) =>
    let s1 := { s with cmdEnds := rest }
    let code := e.fail.getD 0
    match takeFirst (fun c => decide (c.id = e.id)) (s1.td die).sent with
    | none => s1
    | some (c, left) =>
      let s2 := s1.updTd die (fun t => { t with sent := left })
      let s3 := if e.recorded then s2 else s2.logErr die 2 (if c.kind = .dma then 0x10 else 0x04) c.core code c.target
      if (s3.td die).itemCmd ≤ c.id && s3.running die then
        let s4 := s3.updTd die (fun t =>
          if t.failed then t else { t with failed := true, failCode := code, failHome := e.home })
        (s4.fset die SEQ_CTRL.ABORT 1).endItem die .aborted
      else s3

/-! ## Fencing a vault (R179) -/

/-- The entries of a vault's directory recalled: those that no request holds are snooped. -/
def State.walkDir (s : State) (die v : Nat) : State :=
  (s.dirOf (.vault die v)).foldl (fun t e =>
    if (mapFind t.txns e.1).isSome then t
    else
      let as := agentsOf e.2.sharers
      let tx : Txn := ⟨mkMsg .evict engAgent e.1, as, [], [], false, true, false⟩
      (({ t with txns := mapSet t.txns e.1 tx }).countDirEvict (.vault die v)).sendSnoops e.1 as true) s

/-- VAULT_FENCE (R179, R181): the walk of the directory begins. Ignored while the vault is not initialised. -/
def effVaultFence (die v : Nat) (s : State) : State :=
  if !isC die || 64 ≤ v || s.vState die v = vUNINIT || s.vState die v = vFENCED || (s.vault die v).walking then s
  else ((s.fset die (MFS_CTRL.FENCE.unit v) 1).updVault die v (fun x => { x with walking := true })).walkDir die v

/-- VAULT_FENCE_WALK_DONE (R179, R211, R539): the walk has ended; STATE reads fenced, and the unit's commands fail. -/
def effVaultFenceWalkDone (die v : Nat) (s : State) : State :=
  if !isC die || !(s.vault die v).walking then s
  else if s.txns.any (fun t => s.homeOf t.1 = .vault die v) then s
  else if s.dirOf (.vault die v) ≠ [] then s.walkDir die v
  else
    let s1 := (s.updVault die v (fun x => { x with walking := false, refreshing := false, initing := false })).fsets die
      [(MFS_STATUS.STATE.unit v, vFENCED), (MFS_STATUS.DEBT.unit v, 0), (MFS_CTRL.INIT.unit v, 0)]
    let s2 := s1.logErr die 3 0x03 v 0x5 0
    let s3 := if s2.hasArea die v then s2.fset die (GLZ_STATUS.STATE.unit v) 2 else s2
    let cs := (s3.glzUnit die v).cmds ++ (s3.glzUnit die v).coming
    let s4 := s3.updGlz die v (fun u => { u with cmds := [], coming := [] })
    (cs.foldl (fun t c => t.glzFail die v c 0xA) s4).wake

/-! ## The commands of this file: each one's effect, committed -/

/-- COMMAND_SEND (R132). -/
def execCommandSend (die core : Nat) (s : State) : Host.Outcome State Fault Refusal :=
  s.commit (effCommandSend die core s)

/-- COMMAND_COMPLETE (R132). -/
def execCommandComplete (die : Nat) (s : State) : Host.Outcome State Fault Refusal :=
  s.commit (effCommandComplete die s)

/-- COMMAND_FAILURE (R132). -/
def execCommandFailure (die : Nat) (s : State) : Host.Outcome State Fault Refusal :=
  s.commit (effCommandFailure die s)

/-- VAULT_FENCE (R179). -/
def execVaultFence (die v : Nat) (s : State) : Host.Outcome State Fault Refusal :=
  s.commit (effVaultFence die v s)

/-- VAULT_FENCE_WALK_DONE (R179). -/
def execVaultFenceWalkDone (die v : Nat) (s : State) : Host.Outcome State Fault Refusal :=
  s.commit (effVaultFenceWalkDone die v s)

end Sys2Proof.Machine
end

