-- ==== Sys2Proof/Machine/Links.lean ====
section
/-!
DEFINITION. The region attribute table in force (R228), hop replay and links that go down (R244, R245, R248), link-up (R250,
R251, R257), and C-dies that stop and return (R253 to R257).
-/
namespace Sys2Proof.Machine

/-! ## The region attribute table -/

/-- The staged entries of PKG_RATn (R231). -/
def State.ratStaged (s : State) : List (Word × Word) :=
  (List.range 32).map (fun n => (s.rd shDie 0x180 (0x400 + 16 * n), s.rd shDie 0x180 (0x408 + 16 * n)))

/-- The place of the committed copy beside the tables in force on the six dies. -/
def ratCommitted : Nat := 6

/-- A die takes the committed table. -/
def State.takeRat (s : State) (die : Nat) : State := { s with rat := mapSet s.rat die (mapGet [] s.rat ratCommitted) }

/-- RAT_COMMIT (R228, R230): ignored while BUSY. -/
def effRatCommit (s : State) : State :=
  if s.fbit shDie PKG_RAT_CTRL.BUSY then s
  else { s with rat := mapSet s.rat ratCommitted s.ratStaged }.fset shDie PKG_RAT_CTRL.BUSY 1

/-- RAT_COMMIT_DONE (R228): every running die uses the new table; a stopped die is not waited for. -/
def effRatCommitDone (s : State) : State :=
  if !s.fbit shDie PKG_RAT_CTRL.BUSY then s
  else (foldN 6 (fun t d => if t.dieUp d then t.takeRat d else t) s).fset shDie PKG_RAT_CTRL.BUSY 0

/-! ## Hop replay -/

/-- The count of NAKs in a row after one more. -/
def State.nakCount (s : State) (key : Nat) (again : Bool) : Nat := if again then mapGet 1 s.links.nakRun key + 1 else 1

def State.setNak (s : State) (key n : Nat) : State :=
  { s with links := { s.links with nakRun := mapSet s.links.nakRun key n } }

/-- The router that a link direction leads to (R238). -/
def nextRouter (router port : Nat) : Nat :=
  match port with
  | 0 => router - 8
  | 1 => router + 1
  | 2 => router + 8
  | _ => router - 1

/-- SWL_ERR captures the first bad flit until it is cleared (R245). -/
def State.swlCapture (s : State) (die : Nat) (down : Bool) (r p word cls : Nat) : State :=
  if s.fbit die SWL_ERR.VALID then s
  else s.fsets die [(SWL_ERR.VALID, 1), (SWL_ERR.DOWN, b2n down), (SWL_ERR.ROUTER, r), (SWL_ERR.PORT, p),
    (SWL_ERR.WORD, word), (SWL_ERR.CLASS, cls)]

/-- The error register of a link's end captures the first bad flit until it is cleared (R248). -/
def State.jtyCapture (s : State) (die k : Nat) (failed inbound : Bool) (sub word : Nat) : State :=
  if s.fbit die (JTY_ERR.VALID.inBlk k) then s
  else s.fsets die [(JTY_ERR.VALID.inBlk k, 1), (JTY_ERR.FAILED.inBlk k, b2n failed),
    (JTY_ERR.INBOUND.inBlk k, b2n inbound), (JTY_ERR.SUBCH.inBlk k, sub), (JTY_ERR.WORD.inBlk k, word)]

/-- DYNAMIC_FLIT_NAK (R244, R245): the flit on the output `port` of `router` is NAKed and replayed; `again` says that it is the
flit of the last NAK. Sixteen in a row take the link direction down, which is then the event recorded; the packet of the flit is sent
anew on its YX route, or not sent, and counts in REROUTE_CNT; what else the replay buffer holds is not modelled (log entry 57). -/
def effDynamicFlitNak (die router port cls word : Nat) (again : Bool) (s : State) : State :=
  if !isC die || !s.dieUp die || !allLinks.contains (router, port) || s.linkDown die (router, port) then s
  else
    let key := die * 256 + router * 4 + port
    let n := s.nakCount key again
    let s1 := ((s.setNak key n).finc die SWL_CNT.REPLAY_CNT).pmuEvent die 0x10C 1
    if n < 16 then s1.swlCapture die false (nextRouter router port) ((port + 2) % 4) word cls
    else
      let off := 0x020 + 8 * (router / 16)
      let b := router % 16 * 4 + port
      let s2 := s1.wr die 0x280 off (setBits (s1.rd die 0x280 off) b b 1)
      ((s2.swlCapture die true router port word cls).finc die SWL_CNT.REROUTE_CNT).logErr die 3 0x05 router 0x2 port

/-! ## Jetty links -/

/-- The blocks that hold a link's registers, each with its die and its peer: one on each C-die end (R16, R266). -/
def linkBlks (a b : Nat) : List (Nat × Nat × Nat) :=
  [(a, b), (b, a)].filterMap (fun e => (jtyBlk e.1 e.2).map (fun k => (e.1, k, e.2)))

/-- A field of a link changed in every block that holds it. -/
def State.linkAll (s : State) (a b : Nat) (f : State → Nat → Nat → Nat → State) : State :=
  (linkBlks a b).foldl (fun t e => f t e.1 e.2.1 e.2.2) s

/-- JETTY_FLIT_NAK (R248): a flit from die `a` to die `b` is NAKed and replayed; `again` says that it is the flit of the last
NAK. Thirty-two in a row fail the link. -/
def effJettyFlitNak (a b sub word : Nat) (again : Bool) (s : State) : State :=
  if linkBlks a b = [] || s.linkState a b ≠ jUP || !s.dieUp a || !s.dieUp b then s
  else
    let key := 2 ^ 16 + (a * 8 + b) * 8 + sub % 8
    let n := s.nakCount key again
    let s1 := (s.setNak key n).linkAll a b (fun t d k _ => t.finc d (JTY_CNT.REPLAY_CNT.inBlk k))
    if n < 32 then s1.linkAll a b (fun t d k _ => t.jtyCapture d k false (decide (d = b)) sub word)
    else
      let s3 := s1.linkAll a b (fun t d k _ => (t.jtyCapture d k true (decide (d = b)) sub word).fset d (JTY_STATUS.STATE.inBlk k) jFAILED)
      let idx := match linkHome a b with | some (_, k) => k - 0x290 | none => 0
      (s3.logErr a 3 0x06 idx 0x1 b).logErr b 3 0x06 idx 0x1 a

/-- The end that drives a link's rate (R251). -/
def rateEnd (a b : Nat) : Option (Nat × Nat) :=
  if isC a && isC b then (jtyBlk (min a b) (max a b)).map (fun k => (min a b, k)) else linkHome a b

/-- A cache writes back every dirty line homed on a returned die and keeps it clean; held write-backs then proceed
(R257). -/
def State.returnWritebacks (s : State) (die : Nat) : State :=
  (List.range 6).foldl (fun t a =>
    if !t.dieUp (cacheDie a) then t
    else
      let c := t.cache a
      let ls := (c.lines ++ c.side).filter (fun e => e.2.st = .m && (t.homeOf e.1).die = die)
      ls.foldl (fun u e => u.rangeLine a 1 e.1) t) s

/-- A link has come up: the lines homed on an end that returned from reset are written back. The die has returned in full once no link of
it aligns any more (R257). -/
def State.linkReturned (s : State) (a b : Nat) : State :=
  [a, b].foldl (fun t d =>
    if !t.links.returned.contains d then t
    else
      let done := (jtyPeers d).all (fun p => !t.dieUp p || t.linkState d p ≠ jALIGNING)
      (if done then { t with links := { t.links with returned := t.links.returned.filter (· ≠ d) } } else t).returnWritebacks d) s

/-- LINK_UP_RECEIVED (R250, R251, R258): `die` receives the LINK_UP of `peer`. Once both ends have the other's, the link is
up. -/
def effLinkUpReceived (die peer : Nat) (s : State) : State :=
  if linkBlks die peer = [] || s.linkState die peer ≠ jALIGNING || !s.dieUp die || !s.dieUp peer then s
  else
    let s1 := match jtyBlk die peer with
      | some k => s.fsets die [(JTY_STATUS.PEER_LEVEL.inBlk k, (Config.revlevel peer).toNat), (JTY_STATUS.PEER_DIE.inBlk k, peer)]
      | none => s
    if s1.links.ups.contains (peer, die) then
      let rate := match rateEnd die peer with
        | some (d, k) => s1.fget d (JTY_CTRL.RATE.inBlk k)
        | none => 0
      let s2 := { s1 with links := { s1.links with ups := s1.links.ups.filter (fun u => u ≠ (peer, die) && u ≠ (die, peer)) } }
      let s3 := s2.linkAll die peer (fun t d k _ =>
        t.fsets d [(JTY_STATUS.STATE.inBlk k, jUP), (JTY_STATUS.RATE.inBlk k, rate), (JTY_CTRL.REJOIN.inBlk k, 0)])
      s3.linkReturned die peer
    else { s1 with links := { s1.links with ups := (die, peer) :: s1.links.ups.filter (· ≠ (die, peer)) } }

/-- A link runs R250 afresh; no end of it is fenced any more. -/
def State.alignLink (s : State) (a b : Nat) : State :=
  let other := fun (u : Nat × Nat) => u ≠ (a, b) && u ≠ (b, a)
  ({ s with links := { s.links with ups := s.links.ups.filter other, fenced := s.links.fenced.filter other } }).linkAll a b
    (fun t d k _ => t.fset d (JTY_STATUS.STATE.inBlk k) jALIGNING)

/-- The peer of link `n` of a C-die (R16). -/
def linkPeer (die n : Nat) : Option Nat := (List.range 6).find? (fun b => jtyBlk die b = some (0x290 + n))

/-- JTY_REJOIN (R264): a FAILED link runs link-up again; ignored in other states. -/
def effJtyRejoin (die link : Nat) (s : State) : State :=
  match linkPeer die link with
  | some p =>
    if isC die && s.dieUp die && link < 3 && s.linkState die p = jFAILED then
      (s.alignLink die p).fset die (JTY_CTRL.REJOIN.inBlk (0x290 + link)) 1
    else s
  | none => s

/-- A die's end of a link is fenced, and a link-up in progress ends (R254, R264). A FAILED link stays so (R248). The end on a Q-die has no
registers. -/
def State.fenceEnd (s : State) (die peer : Nat) : State :=
  let s1 := { s with links := { s.links with
    ups := s.links.ups.filter (fun u => u ≠ (die, peer) && u ≠ (peer, die)),
    fenced := (die, peer) :: s.links.fenced.filter (· ≠ (die, peer)) } }
  match jtyBlk die peer with
  | some k =>
    if s1.fget die (JTY_STATUS.STATE.inBlk k) = jFAILED then s1
    else s1.fsets die [(JTY_STATUS.STATE.inBlk k, jDOWN), (JTY_CTRL.REJOIN.inBlk k, 0)]
  | none => s1

/-- DOWN_NOTICE (R254): `die` receives the notice of `peer` and fences its end. -/
def effDownNotice (die peer : Nat) (s : State) : State :=
  if s.links.notices.contains (peer, die) && s.dieUp die then
    ({ s with links := { s.links with notices := s.links.notices.filter (· ≠ (peer, die)) } }).fenceEnd die peer
  else s

/-- FORWARDED_CLOCK_LOSS (R254): no edge from `peer` for 32 ns; the loss is counted where no notice came. An end
that is fenced already detects nothing. -/
def effForwardedClockLoss (die peer : Nat) (s : State) : State :=
  let k := jtyBlk die peer
  let fencedEnd : Bool :=
    match k with
    | some b => s.fget die (JTY_STATUS.STATE.inBlk b) = jDOWN || s.links.fenced.contains (die, peer)
    | none => s.links.fenced.contains (die, peer)
  if (linkHome die peer).isNone || !s.dieUp die || s.dieUp peer || s.links.notices.contains (peer, die) || fencedEnd then s
  else
    let s1 := s.fenceEnd die peer
    let s2 := match k with | some b => s1.finc die (JTY_CNT.CLKLOSS_CNT.inBlk b) | none => s1
    let idx := match linkHome die peer with | some (_, b) => b - 0x290 | none => 0
    s2.logErr die 3 0x06 idx 0x2 peer

/-! ## A C-die that stops -/

/-- What a register of a C-die holds after its reset; none where it returns to its reset value (R253). A vault that was
active is in self-refresh, a failed link stays failed (R248), and PWR_ENERGY counts on (R513). -/
def keptReg (blk off : Nat) (w : Word) : Option Word :=
  if 0x100 ≤ blk && blk < 0x140 && off = 0 then (if bits w 1 0 = 3 then some w else some (setBits w 1 0 0))
  else if blk = 0 && 0x100 ≤ off && off < 0x140 then some w
  else if 0x200 ≤ blk && blk < 0x240 then
    if off = 0 then
      let w1 := setBits w 35 32 0
      some (if bits w 1 0 = vACTIVE then setBits w1 1 0 vSELFREF else w1)
    else if off = 0x10 || off = 0x18 || off = 0x20 then some w
    else if blk = 0x200 && (off = 0x100 || off = 0x108) then some w
    else none
  else if 0x240 ≤ blk && blk < 0x280 && off = 8 then some w
  else if blk = 0x280 && 0x20 ≤ off && off < 0x40 then some w
  else if 0x290 ≤ blk && blk < 0x293 && off = 0 then (if bits w 1 0 = jFAILED then some (BitVec.ofNat 64 jFAILED) else none)
  else if 0x290 ≤ blk && blk < 0x293 && off = 8 then some (w &&& 1)
  else if blk = 0x2C0 then some w
  else if blk = 0x2B0 && off = 8 then some w
  else none

/-- The registers of a die after its reset. -/
def State.resetRegs (s : State) (die : Nat) (keep : Nat → Nat → Word → Option Word) : State :=
  { s with regs := s.regs.filterMap (fun e =>
      if e.1 / 2 ^ 32 = die then (keep (e.1 / 2 ^ 16 % 2 ^ 16) (e.1 % 2 ^ 16) e.2).map (fun w => (e.1, w)) else some e) }

/-- A die's cores and sequencer after its reset: what the queue engine was handed stays, and a work item in progress ends
for the stop of its die (R253, R256). -/
def TideDie.stopped (t : TideDie) (ran : Bool) : TideDie :=
  let r : RunResult := ⟨some .dieStop, 0, false⟩
  { TideDie.reset with results := if ran then t.results ++ [r] else t.results, nextCmd := t.nextCmd, itemCmd := t.nextCmd }

/-- A vault controller after the reset of its die (R164, R253). -/
def Vault.stopped (v : Vault) : Vault := { Vault.reset with erased := v.erased, waiting := v.waiting, code := v.code, dirOn := v.dirOn }

/-- A Glaze unit after its reset: what it held stays in its area until a scan takes it up. An uncommitted direct stroke is redone, a
shadowed one stands, and the home holds no line for it any more (R207). -/
def GlzUnit.stopped (u : GlzUnit) : GlzUnit :=
  { u with
    cmds := [], staging := [],
    kept := u.kept ++ u.cmds.map (fun c =>
      if glzShadowed c.gop then { c with held := false } else { c with ready := false, writes := [], held := false }),
    keptStage := u.keptStage ++ u.staging }

/-- Is a command on its way to a unit one that a core of a die has sent? -/
def GlzCmd.sentBy (c : GlzCmd) (die : Nat) : Bool :=
  match c.src with
  | .stream d _ _ _ => d = die
  | _ => false

/-- A cache whose contents are lost without being written back: its requests end, homes await no answer of it, and the
loss is to be relayed to every die (R536). -/
def State.loseCache (s : State) (a : Nat) : State :=
  let gone := fun (m : Msg) => decide (m.agent = a)
  let s1 := { s with
    caches := mapSet s.caches a Cache.empty,
    mshrs := s.mshrs.filter (fun r => r.agent ≠ a),
    net := s.net.filter (fun m => !gone m),
    waitq := s.waitq.filter (fun m => !gone m),
    l1 := s.l1.filter (fun e => e.1 / 2 ^ 40 ≠ a),
    links := { s.links with losses := s.links.losses.filter (fun (l : Nat × Nat) => l.2 ≠ a) ++ (List.range 6).map (fun d => (d, a)) } }
  { s1 with txns := s1.txns.filterMap (fun (e : Nat × Txn) =>
      let t := e.2
      if t.req.agent = a then none
      else some (e.1, { t with snoops := t.snoops.filter (· ≠ a), wbp := t.wbp.filter (· ≠ a) })) }

/-- The requests that homes on a stopped die had accepted wait for their resends (R256). -/
def State.dropTxns (s : State) (die : Nat) : State :=
  let mine := s.txns.filter (fun t => (s.homeOf t.1).die = die && !t.2.evicts)
  { s with
    txns := s.txns.filter (fun t => (s.homeOf t.1).die ≠ die),
    waitq := s.waitq ++ mine.map (fun t => t.2.req) }

/-- A C-die stops without draining: its logic resets but for the state that R253 keeps. The commands of its cores that no unit has yet
accepted are lost with it (DESIGN CHOICE, log entry 55). -/
def State.stopDie (s : State) (die mode : Nat) : State :=
  let ran := s.running die
  let lo := die * 64
  let s1 := ((s.dropTxns die).loseCache (die + 2)).resetRegs die keptReg
  let s2 := { s1 with
    tide := mapSet s1.tide die ((s1.td die).stopped ran),
    vaults := s1.vaults.map (fun (e : Nat × Vault) => if e.1 / 64 = die then (e.1, e.2.stopped) else e),
    glz := s1.glz.map (fun (e : Nat × GlzUnit) =>
      let u := { e.2 with coming := e.2.coming.filter (fun c => !c.sentBy die) }
      (e.1, if e.1 / 64 = die then u.stopped else u)),
    slab := memClear s1.slab (die * 2 ^ 28) ((die + 1) * 2 ^ 28),
    slabBad := mapClear s1.slabBad (die * 2 ^ 28) ((die + 1) * 2 ^ 28),
    sbuf := memClear s1.sbuf (die * 2 ^ 24) ((die + 1) * 2 ^ 24),
    dirSram := mapClear s1.dirSram lo (lo + 64),
    samplers := mapErase s1.samplers die,
    coll := { s1.coll with releases := s1.coll.releases.filter (fun r => r.1 ≠ die) },
    power := { s1.power with dies := mapErase s1.power.dies die },
    dmas := s1.dmas.filter (fun d => match d.who with | .stream x _ _ => decide (x ≠ die) | _ => true) }
  let s3 := foldN 64 (fun t v => if (mapFind t.glz (vaultKey die v)).isSome then t.updGlz die v id else t) (s2.setMode die mode)
  s3.fset shDie PKG_DIE_RESET.STOPPED (bits (setBits (BitVec.ofNat 64 (s3.fget shDie PKG_DIE_RESET.STOPPED)) die die 1) 3 0)

/-- DIE_RESET (R253): a bit of PKG_DIE_RESET written 1; ignored for a die already in reset, as one without its clock is. -/
def effDieReset (die : Nat) (s : State) : State :=
  if !isC die || !s.dieUp die then s
  else
    let w := setBits (BitVec.ofNat 64 (s.fget shDie PKG_DIE_RESET.RESET)) die die 1
    let s1 := { s with links := { s.links with notices := s.links.notices ++ (jtyPeers die).map (fun p => (die, p)) } }
    (s1.stopDie die 1).fset shDie PKG_DIE_RESET.RESET (bits w 3 0)

/-- A C-die leaves reset: it takes the committed attribute table, its links align, and its Glaze units scan their areas
(R207, R228, R253). Its vaults leave self-refresh by SELF_REFRESH_EXIT; limits at their reset values may call for a fence (R178). -/
def State.dieReturns (s : State) (die : Nat) : State :=
  let clr := fun (t : State) (f : FieldRef) => t.fset shDie f (bits (setBits (BitVec.ofNat 64 (t.fget shDie f)) die die 0) 3 0)
  let s1 := (clr (clr (s.setMode die 0) PKG_DIE_RESET.RESET) PKG_DIE_RESET.STOPPED).takeRat die
  let s2 := (jtyPeers die).foldl (fun t p => if t.dieUp p && t.linkState die p ≠ jFAILED then t.alignLink die p else t)
    { s1 with links := { s1.links with returned := die :: s1.links.returned.filter (· ≠ die) } }
  foldN 64 (fun t v =>
    if t.hasArea die v then
      t.fsets die [(GLZ_STATUS.STATE.unit v, if t.vState die v = vFENCED then 2 else 1), (GLZ_STATUS.RESUMING.unit v, 1)]
    else t) (foldN 64 (fun t v => t.checkFenceReq die v) s2)

/-- DIE_RESET_EXIT (R253): no later than 5 ms after the write. -/
def effDieResetExit (die : Nat) (s : State) : State :=
  if isC die && mapGet 0 s.dieMode die = 1 then s.dieReturns die else s

/-- CLOCK_RETURN (R21, R254): the clock of a stopped C-die is back, and it leaves reset as a die reset does; 6 and 7 are REFCLK0 and
REFCLK1, which feed C0 and C1, and C2 and C3. -/
def effClockReturn (die : Nat) (s : State) : State :=
  (if die = 6 then [0, 1] else if die = 7 then [2, 3] else [die]).foldl
    (fun t d => if isC d && mapGet 0 t.dieMode d = 2 then t.dieReturns d else t) s

/-! ## Requests toward a stopped die (R256) -/

/-- A request-class message. -/
def isReq (k : MsgKind) : Bool :=
  match k with
  | .rdS | .rdE | .rdNc | .wrInv | .wrWt => true
  | _ => false

/-- Is the home of a line out of an agent's reach: stopped, with no path left, or with every route down (R242, R252, R256)? -/
def State.homeCut (s : State) (agent line : Nat) : Bool :=
  s.homeStopped line || (agent ≠ engAgent && !s.lineReach agent line)

/-- Is a local address out of an engine's reach (R242, R252, R256)? -/
def State.addrCut (s : State) (die router a : Nat) : Bool :=
  a < 2 ^ 44 &&
  (match regionOf a with
   | .slab x _ _ | .sbuf x _ => !s.dieUp x
   | .stack .. | .shelf _ | .tidal _ | .host .. => s.homeStopped (a / 64)
   | _ => false) || (a < 2 ^ 44 && !s.wayOpen (s.engineWay die router a))

/-- REQUEST_RESEND (R256): a held request is sent again, and taken up where its home answers. -/
def State.resendReq (s : State) (r : HeldReq) : State :=
  match r with
  | .line agent line =>
    match takeFirst (fun m => m.agent = agent && m.line = line) s.waitq with
    | some (m, rest) => if s.homeCut agent line then s else ({ s with waitq := rest }).recvReq m
    | none => s
  | .cmd die core => effCommandSend die core s
  | .sent _ _ => s
  | .dma no => s.dmaAll (fun d => decide (d.no = no))
  | .glaze _ _ | .queue _ | .fab _ _ _ => s

/-- A waiting operation of a cache fails with home unavailable (R132, R314). -/
def State.mshrUnavailable (s : State) (r : Mshr) : State :=
  match r.hart, r.op with
  | some h, .store => s.storeFails h r.code 2 r.addr
  | some h, .load | some h, .lr => s.hartTrap h 5 r.addr
  | some h, _ => s.hartTrap h 7 r.addr
  | none, .ratom => { s with cmdEnds := s.cmdEnds ++ [⟨r.agent - 2, r.code / 32, some 0xB, true, 0, false⟩] }
  | none, _ => s

/-- The `n` writes of a line that a cache sent last fail, and with them their stores (R314). -/
def State.writesUnavailable (s : State) (agent line n : Nat) : State :=
  let outs := (s.cache agent).outs
  let mine := outs.filter (fun o => o.line = line)
  let lost := mine.drop (mine.length - n)
  let s1 := s.updCache agent (fun c =>
    { c with outs := outs.filter (fun o => o.line ≠ line) ++ mine.take (mine.length - n) })
  (lost.flatMap (fun o => o.stores)).foldl (fun t p =>
    match (t.hart p.1).stores.find? (fun e => e.id = p.2) with
    | some e => t.storeFails p.1 p.2 2 e.addr
    | none => t) s1

/-- HOME_UNAVAILABLE (R242, R256): 40 ms after the first send, or after the first resend of an accepted request, a request held
toward a stopped die fails; one whose every route is down fails at once. -/
def State.unavailable (s : State) (r : HeldReq) : State :=
  match r with
  | .line agent line =>
    if !s.homeCut agent line then s
    else
      let mine := fun (m : Msg) => decide (m.agent = agent) && decide (m.line = line) && isReq m.kind
      let ms := (s.net ++ s.waitq).filter mine
      if ms = [] then s
      else
        let s1 := { s with net := s.net.filter (fun m => !mine m), waitq := s.waitq.filter (fun m => !mine m),
                           mshrs := s.mshrs.filter (fun x => !(x.agent = agent && x.line = line)) }
        let s2 := (s.mshrs.filter (fun x => x.agent = agent && x.line = line)).foldl (fun t x => t.mshrUnavailable x) s1
        let s3 := s2.writesUnavailable agent line (ms.filter (fun m => m.kind = .wrInv || m.kind = .wrWt)).length
        if isCacheAgent agent || agent = engAgent then s3 else s3.emit (.noHome agent (line * 64))
  | .cmd die core =>
    match (s.td die).cmdq.find? (fun c => c.core = core) with
    | some c =>
      if c.held || !s.dieUp die || !s.cmdAway die c then s
      else
        let s1 := s.updTd die (fun t => { t with cmdq := t.cmdq.filter (fun x => x.id ≠ c.id), sent := t.sent ++ [c] })
        let s2 := s1.logErr die 2 0x04 core 0xB c.target
        { s2 with cmdEnds := s2.cmdEnds ++ [⟨die, c.id, some 0xB, true, 0, true⟩] }
    | none => s
  | .sent die id =>
    match (s.td die).sent.find? (fun c => decide (c.id = id)) with
    | some c =>
      if !s.dieUp die || !s.cmdAway die c || s.cmdEnds.any (fun e => e.die = die && e.id = id) then s
      else
        let s1 := s.logErr die 2 0x04 c.core 0xB c.target
        { s1 with cmdEnds := s1.cmdEnds ++ [⟨die, id, some 0xB, true, 0, true⟩] }
    | none => s
  | .dma no =>
    match s.dmas.find? (fun d => decide (d.no = no)) with
    | some d =>
      let bad := s.addrCut (s.dmaSeat d).1 (s.dmaSeat d).2
      if d.pos < d.len && (bad (d.src + d.pos) || bad (d.dst + d.pos)) then
        let at_ := if bad (d.src + d.pos) then d.src + d.pos else d.dst + d.pos
        (s.updDma no (fun x => { x.failed 0x2 at_ true with pos := x.len })).dmaEnd no
      else s
    | none => s
  | .glaze die v =>
    match s.glzFront die v with
    | some c =>
      let bad := fun (p : Nat × Nat) => (linesOf p.1 p.2).any (fun l => s.addrCut die v (l * 64))
      if !c.ready && (s.glzReads c).any bad then
        s.failFront die v c 0xB
      else s
    | none => s
  | .queue _ | .fab _ _ _ => s

/-! ## The commands of this file: each one's effect, committed -/

/-- RAT_COMMIT (R228). -/
def execRatCommit (s : State) : Host.Outcome State Fault Refusal :=
  s.commit (effRatCommit s)

/-- RAT_COMMIT_DONE (R228). -/
def execRatCommitDone (s : State) : Host.Outcome State Fault Refusal :=
  s.commit (effRatCommitDone s)

/-- DYNAMIC_FLIT_NAK (R244). -/
def execDynamicFlitNak (die router port cls word : Nat) (again : Bool) (s : State) : Host.Outcome State Fault Refusal :=
  s.commit (effDynamicFlitNak die router port cls word again s)

/-- JETTY_FLIT_NAK (R248). -/
def execJettyFlitNak (a b sub word : Nat) (again : Bool) (s : State) : Host.Outcome State Fault Refusal :=
  s.commit (effJettyFlitNak a b sub word again s)

/-- LINK_UP_RECEIVED (R250). -/
def execLinkUpReceived (die peer : Nat) (s : State) : Host.Outcome State Fault Refusal :=
  s.commit (effLinkUpReceived die peer s)

/-- JTY_REJOIN (R264). -/
def execJtyRejoin (die link : Nat) (s : State) : Host.Outcome State Fault Refusal :=
  s.commit (effJtyRejoin die link s)

/-- DIE_RESET (R253). -/
def execDieReset (die : Nat) (s : State) : Host.Outcome State Fault Refusal :=
  s.commit (effDieReset die s)

/-- DIE_RESET_EXIT (R253). -/
def execDieResetExit (die : Nat) (s : State) : Host.Outcome State Fault Refusal :=
  s.commit (effDieResetExit die s)

/-- DOWN_NOTICE (R254). -/
def execDownNotice (die peer : Nat) (s : State) : Host.Outcome State Fault Refusal :=
  s.commit (effDownNotice die peer s)

/-- FORWARDED_CLOCK_LOSS (R254). -/
def execForwardedClockLoss (die peer : Nat) (s : State) : Host.Outcome State Fault Refusal :=
  s.commit (effForwardedClockLoss die peer s)

/-- CLOCK_RETURN (R254). -/
def execClockReturn (die : Nat) (s : State) : Host.Outcome State Fault Refusal :=
  s.commit (effClockReturn die s)

end Sys2Proof.Machine
end

