-- ==== Sys2Proof/Machine/Tidal.lean ====
section
/-!
DEFINITION. The Shelf's initialisation (R361) and the tidal engine: its commands (R352), migrations (R353, R354), and ages
(R356).
-/
namespace Sys2Proof.Machine

/-! ## Shelf initialisation -/

/-- SHELF_INIT (R361). -/
def effShelfInit (s : State) : State := s.fset shDie SHF_SPLIT.INIT 1

/-- A Shelf channel that is not down is zeroed and active (R361). -/
def State.shelfZero (t : State) (ch : Nat) : State :=
  if t.dieUp (shfDie ch) && t.chState ch ≠ 3 then
    ({ t with
      shelf := memClear t.shelf (shelfKey ch 0) (shelfKey (ch + 1) 0),
      shelfRewrite := t.shelfRewrite.filter (fun k => k / 2 ^ 35 ≠ ch) }).fset (shfDie ch) (shfRef ch SHF_CH_STATUS.STATE) 1
  else t

/-- SHELF_INIT_DONE (R361): every channel that is not down holds zeros and is active. -/
def effShelfInitDone (s : State) : State :=
  if !s.fbit shDie SHF_SPLIT.INIT then s
  else
    let s1 := foldN 64 (fun (t : State) ch => t.shelfZero ch) s
    s1.fset shDie SHF_SPLIT.INIT 0

/-! ## Slots -/

/-- Pool slots and counted reserve slots (R348, R349). -/
def State.poolSlots (s : State) : Nat := (16 - s.direct) * 32768
def State.countedSlots (s : State) : Nat := 2048 * s.reserve

def State.slotUsed (s : State) (x : Slot2M) : Bool := s.remap.any (fun e => e.2.slot = x)

/-- A free slot of `n` that `mk` numbers; which one is not stated, so a free value points to where the search begins. -/
def State.freeSlot (s : State) (n : Nat) (mk : Nat → Slot2M) (ok : Nat → Bool) : Option Slot2M × State :=
  let (v, t) := s.free
  match (List.range n).find? (fun i => let k := (v.toNat + i) % n; ok k && !s.slotUsed (mk k)) with
  | some i => (some (mk ((v.toNat + i) % n)), t)
  | none => (none, t)

def State.freePool (s : State) : Option Slot2M × State := s.freeSlot s.poolSlots .pool (fun _ => true)

/-- Reserve slots are numbered 0 to 2,048r; one of them is the spare (R349, R354). -/
def State.freeReserve (s : State) : Option Slot2M × State := s.freeSlot (s.countedSlots + 1) .reserve (fun k => k ≠ s.spare)

/-- The dies on which a slot's homes lie: both Q-dies for a pool slot (R348). -/
def State.slotDies (s : State) (x : Slot2M) : List Nat :=
  match x with
  | .pool _ => [4, 5]
  | .reserve n => [(reservePlace s.reserve n).1]

def State.slotUp (s : State) (x : Slot2M) : Bool := (s.slotDies x).all s.dieUp

/-- Counts that follow the table (R366, R367). -/
def State.tdlCounts (s : State) : State :=
  let res := (s.remap.filter (fun e => match e.2.slot with | .reserve _ => true | .pool _ => false)).length
  let s1 := s.fsets shDie [(TDL_STATUS.ALLOCATED, s.remap.length), (TDL_STATUS.RESERVE_USED, min res s.countedSlots)]
  foldN 64 (fun t a => t.fset shDie (TDL_ACCT.USED.plus (8 * a)) (s.remap.filter (fun e => e.2.account = a)).length) s1

/-- A line of memory at a place, without its caches. -/
def State.placeRead (s : State) (p : Place) : List Byte × Bool × State :=
  match p with
  | .stack die o => s.stackRead die o 64 srcDynamic
  | .shelf ch coff => s.shelfRead ch coff
  | _ => (List.replicate 64 0, true, s)

def State.placeWrite (s : State) (p : Place) (d : List Byte) (poison : Bool) : State :=
  match p with
  | .stack die o => s.stackWrite die o d poison srcDynamic
  | .shelf ch coff => s.shelfWrite ch coff d fullLine poison
  | _ => s

/-- A page copied from slot to slot through the homes (R353). -/
def State.copyPage (s : State) (src dst : Slot2M) : State :=
  foldN 32768 (fun t i =>
    let (d, p, u) := t.placeRead (slotPlace t.direct t.reserve src (64 * i))
    u.placeWrite (slotPlace u.direct u.reserve dst (64 * i)) d p) s

/-- A pool slot zeroed: its data and check bytes on every channel that is open (R352); a down channel discards the
writes. -/
def State.zeroPool (s : State) (n : Nat) : State :=
  foldN 64 (fun (t : State) ch =>
    let lo := t.direct * 2 ^ 30 + n * 2 ^ 15
    if t.chOpen ch then
      { t with
        shelf := memClear (memClear t.shelf (shelfKey ch lo) (shelfKey ch (lo + 2 ^ 15))) (shelfKey ch (checkOff lo))
          (shelfKey ch (checkOff lo + 2 ^ 12)),
        shelfRewrite := t.shelfRewrite.filter (fun k => k < shelfKey ch lo || shelfKey ch (lo + 2 ^ 15) ≤ k) }
    else if t.chState ch = 3 then t.logErr (shfDie ch) 2 0x09 ch 0x6 lo else t) s

/-! ## Commands -/

/-- RESULT codes (R364). -/
def tPOOLFULL : Nat := 1
def tACCTLIMIT : Nat := 2
def tSTATE : Nat := 3
def tHOMEUNAVAIL : Nat := 4
def tNORESERVE : Nat := 5

/-- A command ends: BUSY falls, and a failure is counted (R364, R366). -/
def State.tdlEnd (s : State) (result : Nat) : State :=
  let s1 := ({ s with tdl := Tdl.reset }.tdlCounts).fsets shDie [(TDL_CMD.BUSY, 0), (TDL_CMD.RESULT, result)]
  if result = 0 then s1 else s1.finc shDie TDL_CNT.FAIL_CNT

/-- A command stands in TDL_CMD and the engine is busy with it (R364). -/
def State.tdlStart (s : State) (op page account : Nat) : State :=
  s.fsets shDie [(TDL_CMD.BUSY, 1), (TDL_CMD.RESULT, 0), (TDL_CMD.OP, op), (TDL_CMD.PAGE, page), (TDL_CMD.ACCOUNT, account)]

/-- A command is written: ignored while BUSY (R364). -/
def State.tdlCmd (s : State) (op page account : Nat) (f : State → State) : State :=
  if s.fbit shDie TDL_CMD.BUSY then s else f (s.tdlStart op page account)

def State.page (s : State) (n : Nat) : Option Page := if n < s.pageCount then mapFind s.remap n else none

def State.setPage (s : State) (n : Nat) (p : Page) : State := { s with remap := mapSet s.remap n p }

/-- ALLOC (R352). -/
def effAlloc (page account : Nat) (s : State) : State :=
  s.tdlCmd 1 page account (fun t =>
    let acct := t.rd shDie 0x060 (0x100 + 8 * (account % 64))
    if t.pageCount ≤ page || (mapFind t.remap page).isSome then t.tdlEnd tSTATE
    else if bits acct 19 0 ≤ bits acct 63 44 then t.tdlEnd tACCTLIMIT
    else match t.freePool with
    | (some (.pool n), u) =>
      let p : Page := ⟨.pool n, account % 64, 0, false⟩
      ((u.zeroPool n).setPage page p).tdlEnd 0
    | (_, u) => u.tdlEnd tPOOLFULL)

/-- A migration starts: the page is marked in every copy, and new requests for it wait (R353). A source or destination on a
stopped die fails it. -/
def State.migrate (s : State) (cmd page : Nat) (p : Page) (dst : Slot2M) (second : Option (Nat × Slot2M × Slot2M)) : State :=
  if !s.slotUp p.slot || !s.slotUp dst then s.tdlEnd tHOMEUNAVAIL
  else
    let x : Tdl := { cmd := some (cmd, page, p.account), phase := 1, page := page, src := p.slot, dst := dst, second := second,
                     acks := [] }
    { s.setPage page { p with migrating := true } with tdl := x }

/-- FREE (R352): the page's lines are recalled first. -/
def effFree (page : Nat) (s : State) : State :=
  s.tdlCmd 2 page 0 (fun t =>
    match t.page page with
    | none => t.tdlEnd tSTATE
    | some p => t.migrate 2 page p p.slot none)

/-- The victim of a FLOOD: the reserve page of the greatest age, the lower number on a tie (R352). -/
def State.victim (s : State) (page : Nat) : Option (Nat × Page) :=
  (s.remap.filter (fun e => e.1 ≠ page && (match e.2.slot with | .reserve _ => true | .pool _ => false))).foldl
    (fun (acc : Option (Nat × Page)) e =>
      match acc with
      | none => some e
      | some b => if b.2.age < e.2.age then some e else some b) none

/-- FLOOD (R352, R354). -/
def effFlood (page : Nat) (s : State) : State :=
  s.tdlCmd 3 page 0 (fun t =>
    match t.page page with
    | none => t.tdlEnd tSTATE
    | some p =>
      match p.slot with
      | .reserve _ => t.tdlEnd 0
      | .pool _ =>
        if t.reserve = 0 then t.tdlEnd tNORESERVE
        else match t.freeReserve with
        | (some dst, u) => u.migrate 3 page p dst none
        | (none, u) =>
          -- a spare that still holds a page (R354) leaves no slot to move into: log entry 14
          if u.slotUsed (.reserve u.spare) then u.tdlEnd tHOMEUNAVAIL
          else match u.victim page with
          | some (n, v) => u.migrate 3 page p (.reserve u.spare) (some (n, v.slot, p.slot))
          | none => u.tdlEnd tHOMEUNAVAIL)

/-- EBB (R352). -/
def effEbb (page : Nat) (s : State) : State :=
  s.tdlCmd 4 page 0 (fun t =>
    match t.page page with
    | none => t.tdlEnd tSTATE
    | some p =>
      match p.slot with
      | .pool _ => t.tdlEnd 0
      | .reserve _ =>
        match t.freePool with
        | (some dst, u) => u.migrate 4 page p dst none
        | (none, u) => u.tdlEnd tPOOLFULL)

/-- The word that QUERY answers for an allocated page (R365). -/
def Page.word (p : Page) : Word :=
  let sl : Nat × Nat := match p.slot with | .pool n => (0, n) | .reserve n => (1, n)
  BitVec.ofNat 64 (2 ^ 63 + sl.1 * 2 ^ 62 + b2n p.migrating * 2 ^ 61 + p.age * 2 ^ 48 + p.account * 2 ^ 40 + sl.2)

/-- QUERY (R352, R365). -/
def effQuery (page : Nat) (s : State) : State :=
  s.tdlCmd 5 page 0 (fun t =>
    if t.pageCount ≤ page then t.tdlEnd tSTATE
    else
      let w : Word := match t.page page with | none => 0 | some p => p.word
      (t.wr shDie 0x060 0x010 w).tdlEnd 0)

/-! ## Migrations -/

/-- Does a line lie in a tidal page? -/
def inPage (page line : Nat) : Bool :=
  match regionOf (line * 64) with
  | .tidal x => decide (x / 2 ^ 21 = page)
  | _ => false

/-- The die from which an agent's requests come; agents outside the package enter by a Q-die. -/
def agentDie (a : Nat) : Nat := if isCacheAgent a then cacheDie a else if a = 7 then 5 else 4

/-- Has a die requests for a page that are not yet complete (R353)? -/
def State.pageBusy (s : State) (page die : Nat) : Bool :=
  s.txns.any (fun t => inPage page t.1 && agentDie t.2.req.agent = die) ||
  s.net.any (fun m => inPage page m.line && agentDie m.agent = die &&
    (match m.kind with
     | .datS | .datE | .datNc | .grantE | .cmp => true
     | _ => false))

/-- The lines of a page that its home's directory names are recalled (R353). -/
def State.recallPage (s : State) (page : Nat) : State :=
  (s.dir.filter (fun e => inPage page e.1)).foldl (fun t e =>
    if (mapFind t.txns e.1).isSome then t
    else
      let as := agentsOf e.2.sharers
      let tx : Txn := ⟨mkMsg .evict engAgent e.1, as, [], [], false, true, false⟩
      ({ t with txns := mapSet t.txns e.1 tx }).sendSnoops e.1 as true) s

/-- A page's entry after a migration: its slot, and no longer marked; its waiting requests are released (R353). -/
def State.releasePage (s : State) (page : Nat) (slot : Slot2M) : State :=
  match mapFind s.remap page with
  | some p => (s.setPage page { p with slot := slot, migrating := false }).wake
  | none => s.wake

/-- A migration abandoned: the entry returns to S (R353). Where it was the second of a FLOOD, the victim's slot counts as the
spare (R354). -/
def State.abandon (s : State) : State :=
  let x := s.tdl
  let s1 := s.releasePage x.page x.src
  let s2 :=
    match x.cmd, x.src, x.dst with
    | some (3, _, _), .reserve n, .pool _ => { s1 with spare := n }
    | _, _, _ => s1
  s2.tdlEnd tHOMEUNAVAIL

/-- MIGRATION_ACK (R353): a die's outstanding requests for the page have completed. -/
def effMigrationAck (die : Nat) (s : State) : State :=
  let x := s.tdl
  if x.phase ≠ 1 || 6 ≤ die || !s.dieUp die || x.acks.contains die || s.pageBusy x.page die then s
  else if !s.slotUp x.src || !s.slotUp x.dst then s.abandon
  else
    let acks := die :: x.acks
    if (List.range 6).all (fun d => acks.contains d || !s.dieUp d) then
      ({ s with tdl := { x with acks := acks, phase := 2 } }).recallPage x.page
    else { s with tdl := { x with acks := acks } }

/-- The flip of a migration, with its count; a second migration follows, or the command ends (R353, R354). -/
def State.flip (s : State) : State :=
  let x := s.tdl
  let s1 := s.releasePage x.page x.dst
  let s2 := match x.dst with
    | .reserve _ => s1.finc shDie TDL_CNT.FLOOD_CNT
    | .pool _ => s1.finc shDie TDL_CNT.EBB_CNT
  match x.second with
  | some (v, _, to_) =>
    (match mapFind s2.remap v with
     | some p => if s2.slotUp p.slot && s2.slotUp to_ then s2.migrate 3 v p to_ none
       else
         let s3 := match p.slot with | .reserve n => { s2 with spare := n } | .pool _ => s2
         s3.tdlEnd tHOMEUNAVAIL
     | none => s2.tdlEnd 0)
  | none =>
    -- a reserve slot left while the spare is in use becomes the spare (R354)
    let s3 := match x.src with
      | .reserve n => if s2.slotUsed (.reserve s2.spare) then { s2 with spare := n } else s2
      | .pool _ => s2
    s3.tdlEnd 0

/-- MIGRATION_COPY_DONE (R353): no line of the page is cached, the copy is made, and the entry flips. A FREE frees the slot
in place of the copy. -/
def effMigrationCopyDone (s : State) : State :=
  let x := s.tdl
  if x.phase ≠ 2 then s
  else if !s.slotUp x.src || !s.slotUp x.dst then s.abandon
  else if s.txns.any (fun t => inPage x.page t.1) then s
  else if s.dir.any (fun e => inPage x.page e.1) then s.recallPage x.page
  else
    match x.cmd with
    | some (2, p, _) => (({ s with remap := mapErase s.remap p }).wake).tdlEnd 0
    | _ => (s.copyPage x.src x.dst).flip

/-- EPOCH_ADVANCE (R356, R366): every 1 ms on the Tidemark count. -/
def effEpochAdvance (s : State) : State :=
  ({ s with remap := s.remap.map (fun (e : Nat × Page) => (e.1, { e.2 with age := min 255 (e.2.age + 1) })) }).fset shDie
    TDL_STATUS.EPOCH ((s.fget shDie TDL_STATUS.EPOCH + 1) % 256)

/-! ## The commands of this file: each one's effect, committed -/

/-- SHELF_INIT (R361). -/
def execShelfInit (s : State) : Host.Outcome State Fault Refusal :=
  s.commit (effShelfInit s)

/-- SHELF_INIT_DONE (R361). -/
def execShelfInitDone (s : State) : Host.Outcome State Fault Refusal :=
  s.commit (effShelfInitDone s)

/-- ALLOC (R352). -/
def execAlloc (page account : Nat) (s : State) : Host.Outcome State Fault Refusal :=
  s.commit (effAlloc page account s)

/-- FREE (R352). -/
def execFree (page : Nat) (s : State) : Host.Outcome State Fault Refusal :=
  s.commit (effFree page s)

/-- FLOOD (R352). -/
def execFlood (page : Nat) (s : State) : Host.Outcome State Fault Refusal :=
  s.commit (effFlood page s)

/-- EBB (R352). -/
def execEbb (page : Nat) (s : State) : Host.Outcome State Fault Refusal :=
  s.commit (effEbb page s)

/-- QUERY (R352). -/
def execQuery (page : Nat) (s : State) : Host.Outcome State Fault Refusal :=
  s.commit (effQuery page s)

/-- MIGRATION_ACK (R353). -/
def execMigrationAck (die : Nat) (s : State) : Host.Outcome State Fault Refusal :=
  s.commit (effMigrationAck die s)

/-- MIGRATION_COPY_DONE (R353). -/
def execMigrationCopyDone (s : State) : Host.Outcome State Fault Refusal :=
  s.commit (effMigrationCopyDone s)

/-- EPOCH_ADVANCE (R356). -/
def execEpochAdvance (s : State) : Host.Outcome State Fault Refusal :=
  s.commit (effEpochAdvance s)

end Sys2Proof.Machine
end

