-- ==== Sys2Proof/Machine/Ports.lean ====
section
/-!
DEFINITION. Breakwater ports: training and lanes (R368 to R370), flits, acknowledgement and replay (R371 to R373), widths and
ports going down (R375), violations (R390), identity (R378), directed requests of this package (R379, R403), and reports
(R391 to R393).
-/
namespace Sys2Proof.Machine

/-! ## Going down -/

/-- The neighbour's ID, where it has a valid one (R391, R396). -/
def State.neighbour (s : State) (p : Nat) : Option Nat :=
  let d := portDie p
  if s.fbit d (portRef p BWF_NBR.VALID) && s.fbit d (portRef p BWF_NBR.PEER_IDV) then some (s.fget d (portRef p BWF_NBR2.PEER_ID))
  else none

/-- A fault event about a port's neighbour (R391). -/
def State.linkReport (s : State) (p cls : Nat) : State :=
  match s.neighbour p with
  | some n => s.faultReport (portDie p) n cls
  | none => s

/-- Is a message routed by its destination (R383), rather than sent to the neighbour? -/
def FabMsg.routed (m : FabMsg) : Bool := m.isRequest || m.isResponse || m.typ = mCOL

/-- The parent port of the time source has gone down: holdover (R410). -/
def State.parentLost (s : State) (p : Nat) : State :=
  if s.fbit shDie TMK_CTRL.MASTER || !s.fbit shDie TMK_CTRL.PARENT_VALID || s.fget shDie TMK_CTRL.PARENT_PORT ≠ p then s
  else s.fset (portDie p) TMK_STATUS.HOLDOVER 1

/-- A port goes down: what its unacknowledged flits held, and what waited, is routed again (R375). -/
def State.portDown (s : State) (p : Nat) : State :=
  let d := portDie p
  let t := s.port p
  let msgs := (t.replay.flatMap (fun f => f.2) ++ t.txq).map (fun x => x.2)
  let s1 := (s.linkReport p rLINK).logErr d 3 0x0A p 0x3 ((s.neighbour p).getD 0)
  let s2 := (s1.finc d (portRef p BWF_CNT.DOWN_CNT)).fsets d
    [(portRef p BWF_STATUS.STATE, pDOWN), (portRef p BWF_STATUS.WIDTH, 0), (portRef p BWF_STATUS.LOCKED, 0),
     (portRef p BWF_CTRL.RETRAIN, 0), (portRef p BWF_NBR.VALID, 0)]
  let s3 := (s2.updPort p (fun _ => { FabPort.reset with downAt := some s.now })).parentLost p
  (msgs.filter FabMsg.routed).foldl (fun u m => u.dispatch d m) s3

/-! ## Training (R368 to R370) -/

/-- A port starts training: lanes of LANE_OFF count as failed (R395). -/
def State.portTrain (s : State) (p : Nat) : State :=
  let d := portDie p
  (s.fsets d
    [(portRef p BWF_STATUS.STATE, pTRAINING), (portRef p BWF_STATUS.WIDTH, 0), (portRef p BWF_STATUS.LOCKED, 0),
     (portRef p BWF_STATUS.FAILED, s.fget d (portRef p BWF_CTRL.LANE_OFF))]).updPort p (fun _ => FabPort.reset)

/-- The width that the failed lanes leave (R369): 3 ×8, 1 low, 2 high, 0 none. -/
def widthOf (failed : Nat) : Nat :=
  if failed % 256 = 0 then 3 else if failed % 16 = 0 then 1 else if failed / 16 % 16 = 0 then 2 else 0

/-- Training goes on: to locking once every lane has ended training, to linked once every lane has locked, or down where
no half is left. A port that links at ×4 has narrowed (R369, R391). -/
def State.portProgress (s : State) (p : Nat) : State :=
  let d := portDie p
  let failed := s.fget d (portRef p BWF_STATUS.FAILED)
  let locked := s.fget d (portRef p BWF_STATUS.LOCKED)
  let trained := (s.port p).trained
  let st := s.portState p
  if widthOf failed = 0 then s.portDown p
  else if st = pTRAINING && (trained ||| failed) % 256 = 255 then s.fset d (portRef p BWF_STATUS.STATE) pLOCKING
  else if st = pLOCKING && (locked ||| failed) % 256 = 255 then
    (s.fsets d
      [(portRef p BWF_STATUS.STATE, pLINKED), (portRef p BWF_STATUS.WIDTH, widthOf failed), (portRef p BWF_CTRL.RETRAIN, 0)]).pump p
  else s

def orBit (v i : Nat) : Nat := v ||| 2 ^ i
def clearBit (v i : Nat) : Nat := if v / 2 ^ i % 2 = 1 then v - 2 ^ i else v

/-- A lane is marked failed, counted and recorded (R370, R397, R542). -/
def State.laneFails (s : State) (p lane : Nat) : State :=
  let d := portDie p
  let fl := portRef p BWF_STATUS.FAILED
  let lk := portRef p BWF_STATUS.LOCKED
  ((s.fsets d [(fl, orBit (s.fget d fl) lane), (lk, clearBit (s.fget d lk) lane)]).finc d (portRef p BWF_CNT.LANEFAIL_CNT)).logErr d
    1 0x0A p 0x1 lane

/-- LANE_TRAINING_END (R368): training of a lane ends, or fails it after 500 ms. -/
def effLaneTrainingEnd (port lane : Nat) (ok : Bool) (s : State) : State :=
  if 32 ≤ port || 8 ≤ lane || !s.dieUp (portDie port) || s.portState port ≠ pTRAINING ||
     s.fget (portDie port) (portRef port BWF_STATUS.FAILED) / 2 ^ lane % 2 = 1 then s
  else if ok then (s.updPort port (fun t => { t with trained := orBit t.trained lane })).portProgress port
  else (s.laneFails port lane).portProgress port

/-- LANE_LOCK (R370): eight consecutive codewords decode. -/
def effLaneLock (port lane : Nat) (s : State) : State :=
  let d := portDie port
  if 32 ≤ port || 8 ≤ lane || !s.dieUp d || s.portState port ≠ pLOCKING ||
     s.fget d (portRef port BWF_STATUS.FAILED) / 2 ^ lane % 2 = 1 then s
  else
    (s.fset d (portRef port BWF_STATUS.LOCKED) (orBit (s.fget d (portRef port BWF_STATUS.LOCKED)) lane)).portProgress port

/-- A link control flit (R371): WIDTH is code 1, WIDTH_ACK code 2; their layout is not given (log entry 16). -/
def State.sendCtl (s : State) (p ftype : Nat) (nak : Bool) (code half : Nat) : State :=
  let t := s.port p
  ((s.updPort p FabPort.returned).pmuEvent (portDie p) 0x208 1).emit (.ctlFlit p ftype t.rxLast nak t.returns code half)

/-- LANE_FAILURE (R370, R375): in a linked port the half without it is kept, by WIDTH, or the port goes down. -/
def effLaneFailure (port lane : Nat) (s : State) : State :=
  let d := portDie port
  let st := s.portState port
  if 32 ≤ port || 8 ≤ lane || !s.dieUp d || s.fget d (portRef port BWF_STATUS.FAILED) / 2 ^ lane % 2 = 1 then s
  else if st = pTRAINING || st = pLOCKING then (s.laneFails port lane).portProgress port
  else if st ≠ pLINKED then s
  else
    let s1 := s.laneFails port lane
    let w := widthOf (s1.fget d (portRef port BWF_STATUS.FAILED))
    let now := s1.fget d (portRef port BWF_STATUS.WIDTH)
    if w = 0 || (now ≠ 3 && now ≠ w) then s1.portDown port
    else if now = w then s1
    else (s1.updPort port (fun t => { t with width := some w, held := true })).sendCtl port 2 false 1 w

/-- PORT_RETRAIN_TIMER (R375): 100 ms after going down with EN set, the port trains again. -/
def effPortRetrainTimer (port : Nat) (s : State) : State :=
  if port < 32 && s.dieUp (portDie port) && s.portState port = pDOWN && s.fbit (portDie port) (portRef port BWF_CTRL.EN) then
    s.portTrain port
  else s

/-- BWF_RETRAIN (R395): the port is taken down and trains; an unenabled port does not. -/
def effBwfRetrain (port : Nat) (s : State) : State :=
  if 32 ≤ port || !s.dieUp (portDie port) || !s.fbit (portDie port) (portRef port BWF_CTRL.EN) then s
  else
    let s1 := if s.portState port = pLINKED then s.portDown port else s
    (s1.portTrain port).fset (portDie port) (portRef port BWF_CTRL.RETRAIN) 1

/-- BWF_EN_WRITE (R395, R375): 1 lets the port train and run, 0 takes it down. -/
def effBwfEnWrite (port : Nat) (en : Bool) (s : State) : State :=
  let d := portDie port
  if 32 ≤ port || !s.dieUp d then s
  else
    let was := s.fbit d (portRef port BWF_CTRL.EN)
    let s1 := s.fset d (portRef port BWF_CTRL.EN) (b2n en)
    if en && !was then s1.portTrain port
    else if !en && was then
      (if s.portState port = pDOWN then s1 else s1.portDown port).fset d (portRef port BWF_STATUS.STATE) pDISABLED
    else s1

/-! ## Replay and width changes -/

/-- Every unacknowledged flit is sent again, in order; the 32nd resend of one flit in a row takes the port down (R373). -/
def State.resend (s : State) (p : Nat) : State :=
  let t := s.port p
  if t.replay = [] then s
  else
    let s0 := (s.fadd (portDie p) (portRef p BWF_CNT.REPLAY_CNT) t.replay.length).updPort p (fun u => { u with resends := t.resends + 1 })
    let s1 := s0.pmuEvent (portDie p) 0x20A t.replay.length
    let s2 := t.replay.foldl (fun u f => u.emit (.flit p f.1 t.rxLast [] (f.2.map (fun x => x.2)))) s1
    if 32 ≤ t.resends + 1 then s2.portDown p else s2

/-- Both ends of a port on a new lane set (R375). -/
def State.narrow (s : State) (p half : Nat) : State :=
  let d := portDie p
  let s1 := ((s.fset d (portRef p BWF_STATUS.WIDTH) half).logErr d 1 0x0A p 0x2 ((s.neighbour p).getD 0)).linkReport p rLINK
  ((s1.updPort p (fun t => { t with width := none, held := false })).resend p).pump p

/-- WIDTH (R375): the peer names the half to keep, and is answered with WIDTH_ACK. -/
def effWidth (port half : Nat) (s : State) : State :=
  let d := portDie port
  if !s.portUp port || (half ≠ 1 && half ≠ 2) then s
  else
    let failed := s.fget d (portRef port BWF_STATUS.FAILED)
    let lost := if half = 1 then failed % 16 else failed / 16
    let mine := (s.port port).width
    if lost ≠ 0 || (mine ≠ none && mine ≠ some half) then s.portDown port
    else if s.fget d (portRef port BWF_STATUS.WIDTH) = half then s.sendCtl port 2 false 2 half
    else (s.sendCtl port 2 false 2 half).narrow port half

/-- WIDTH_ACK (R375). -/
def effWidthAck (port half : Nat) (s : State) : State :=
  if s.portUp port && (s.port port).width = some half then s.narrow port half else s

/-- LINK_CONTROL_RESEND (R371): an unanswered WIDTH is sent again. -/
def effLinkControlResend (port : Nat) (s : State) : State :=
  match (s.port port).width with
  | some half => if s.portUp port then s.sendCtl port 2 false 1 half else s
  | none => s

/-! ## Violations (R390) -/

/-- A violation of the neighbour: counted, recorded, and the 64th of a window takes the port down. -/
def State.violate (s : State) (p code typ chan : Nat) : State :=
  let d := portDie p
  let s1 := s.finc d (portRef p BWF_CNT.VIOL_CNT)
  let s2 := if s1.fbit d (portRef p BWF_ERR.VALID) then s1
    else s1.fsets d [(portRef p BWF_ERR.VALID, 1), (portRef p BWF_ERR.CODE, code), (portRef p BWF_ERR.TYPE, typ),
      (portRef p BWF_ERR.CHANNEL, chan)]
  let n := if (s2.port p).violAt.isSome then (s2.port p).viol + 1 else 1
  let s3 := s2.updPort p (fun t => { t with viol := n, violAt := match t.violAt with | some x => some x | none => some s.now })
  if n < 64 then s3
  else
    let s4 := ((s3.finc d (portRef p BWF_CNT.LINKRESET_CNT)).logErr d 3 0x0A p 0x4 ((s3.neighbour p).getD 0)).linkReport p rPROTOCOL
    s4.portDown p

/-- VIOLATION_WINDOW_END (R390): the 1 s window expires. -/
def portWindowEnd (port : Nat) (s : State) : State :=
  if port < 32 then s.updPort port (fun t => { t with viol := 0, violAt := none }) else s

/-! ## Messages in flits -/

/-- A header unit as a message (R376). -/
def headOf (h : Nat) (units : List Nat) : FabMsg :=
  { typ := bitsN h 127 122, hops := bitsN h 121 118, dst := bitsN h 114 103, src := bitsN h 102 91, tag := bitsN h 90 75,
    agent := bitsN h 74 65, aux := bitsN h 64 44, addr := bitsN h 43 0, units := units }

def headLen (h : Nat) : Nat := bitsN h 117 115

/-- Is LEN one that the TYPE permits (R377)? -/
def lenOk (m : FabMsg) : Bool :=
  let n := m.units.length
  if m.typ = mRD || m.typ = mRSPACK || m.typ = mRSPPENDING || m.typ = mNAK then n = 0
  else if m.typ = mWRFULL || m.typ = mGLZ then n = 4
  else if m.typ = mWRMASK then n = 5
  else if m.typ = mATOM || m.typ = mWRREG || m.typ = mRSPOLD then n = 1
  else if m.typ = mRSPDATA then n = 4 || n = 1
  else if m.typ = mCTL then n ≤ 2
  else n ≤ 5

/-- A bit that is reserved in the units of a CTL message: of IDENT bits [41:0], of DR_REQ bits [39:0] of the first and [78:64] of the second
unit (R378, R379). -/
def ctlReserved (m : FabMsg) : Bool :=
  if m.aux = cIDENT then bitsN (m.units.headD 0) 41 0 ≠ 0
  else if m.aux = cDRREQ then bitsN (m.units.headD 0) 39 0 ≠ 0 || bitsN (m.units.getD 1 0) 78 64 ≠ 0
  else !(m.aux = cIDENTACK || m.aux = cDRRSP || m.aux = cREPORT || m.aux = cTICK)

/-- A reserved TYPE, subtype, GOP, collective KIND, or a reserved bit that is set (R377, R390, R418). -/
def msgReserved (m : FabMsg) : Bool :=
  if m.typ = mRD || m.typ = mRSPDATA then 2 ≤ m.aux
  else if m.typ = mWRFULL || m.typ = mWRMASK || m.typ = mWRREG || m.typ = mRSPACK || m.typ = mRSPOLD || m.typ = mRSPPENDING then
    m.aux ≠ 0
  else if m.typ = mATOM then 32 ≤ m.aux
  else if m.typ = mNAK then 16 ≤ m.aux
  else if m.typ = mGLZ then
    let g := m.aux % 16
    8 ≤ g && g ≠ 0xC && g ≠ 0xD
  else if m.typ = mCTL then ctlReserved m
  else if m.typ = mCOL then
    let k := bitsN (m.units.headD 0) 121 118
    m.aux ≠ 0 || k = 0 || 7 ≤ k || bitsN (m.units.headD 0) 1 0 ≠ 0
  else true

/-- The violation of a message, if any (R390). The channel is not carried, so codes about it cannot arise but for credit. -/
def msgViolation (m : FabMsg) : Option Nat :=
  if msgReserved m then some 1 else if !lenOk m || 8 < m.hops then some 5 else none

/-- A request that violates the rules is answered with NAK PROTOCOL. -/
def State.refuseMsg (s : State) (p code : Nat) (m : FabMsg) : State :=
  let s1 := s.violate p code m.typ m.chan
  if m.isRequest then s1.dispatch (portDie p) (nakOf s1.ownId nPROTOCOL m) else s1

/-- A message for another package goes on, one hop further (R383). -/
def State.forward (s : State) (p : Nat) (m : FabMsg) : State :=
  let d := portDie p
  if 8 ≤ m.hops then
    if m.isRequest then s.dispatch d (nakOf s.ownId nHOPLIMIT m) else s.finc d BWF_REQ_CNT.DROP_CNT
  else
    let m1 := { m with hops := m.hops + 1 }
    match s.route d m.dst m1.chan m.addr with
    | some q => s.sendPort q m1
    | none => if m.isRequest || m.typ = mCOL then (s.faultReport d m.dst rUNREACHABLE).dispatch d (nakOf s.ownId nUNREACHABLE m) else s

/-- One message of a flit: it costs the sender credit, and is handled here, forwarded, or dropped as a violation. The space
of a message that stays is given back when it is handled. -/
def State.takeMsgIn (s : State) (p : Nat) (m : FabMsg) : State :=
  let have_ := mapGet fullCredit (s.port p).rxCredit m.chan
  let free := fun (t : State) => t.updPort p (fun u => { u with owed := mapSet u.owed m.chan (mapGet 0 u.owed m.chan + m.size) })
  let s1 := s.updPort p (fun u => { u with rxCredit := mapSet u.rxCredit m.chan (have_ - m.size) })
  if have_ < m.size then s.refuseMsg p 4 m
  else match msgViolation m with
  | some code => (free s1).refuseMsg p code m
  | none =>
    if m.routed && s1.idValid && m.dst ≠ s1.ownId then (free s1).forward p m
    else s1.inbox p m

/-- A message that is handled leaves the inbox, and its space is free again. -/
def State.takeIn (s : State) (p : Nat) (m : FabMsg) : State :=
  match takeFirst (fun (x : Nat × FabMsg) => decide (x = (p, m))) s.fab.inbox with
  | some (_, rest) =>
    let s1 := s.updFab (fun f => { f with inbox := rest })
    if p < 32 then s1.updPort p (fun u => { u with owed := mapSet u.owed m.chan (mapGet 0 u.owed m.chan + m.size) }) else s1
  | none => s

/-- The messages of a payload: whole messages, with idle units between (R374). A message cut short is violation 0x5. -/
def State.takeUnits (s : State) (p : Nat) : Nat → List Nat → State
  | 0, _ => s
  | _, [] => s
  | n + 1, h :: us =>
    let len := headLen h
    let m := headOf h (us.take len)
    if m.typ = 0 then (if h = 0 then s.takeUnits p n us else (s.violate p 1 0 0).takeUnits p n us)
    else if us.length < len then s.refuseMsg p 5 m
    else (s.takeMsgIn p m).takeUnits p n (us.drop len)

/-- Flits in order leave the reorder buffer (R372). -/
def State.drainOrder (s : State) (p : Nat) : Nat → State
  | 0 => s
  | n + 1 =>
    let seq := ((s.port p).rxLast + 1) % 4096
    match mapFind (s.port p).reorder seq with
    | some bs =>
      let s1 := s.updPort p (fun t => { t with reorder := mapErase t.reorder seq, rxLast := seq })
      (s1.takeUnits p 15 (unitsOf bs)).drainOrder p n
    | none => s

/-- An ACK frees the flits it covers; one that covers a flit not sent is violation 0x3 (R373, R390). -/
def State.takeAck (s : State) (p ack : Nat) : State :=
  let t := s.port p
  let ahead := (ack + 4096 - (t.nextSeq + 4095) % 4096) % 4096
  if 0 < ahead && ahead < 2048 then s.violate p 3 0 0
  else
    let kept := t.replay.filter (fun f => let d := (f.1 + 4096 - ack) % 4096; 0 < d && d < 2048)
    s.updPort p (fun u => { u with replay := kept, resends := if kept.length < t.replay.length then 0 else u.resends })

/-- Credit returns (R371, R390). -/
def State.takeCredit (s : State) (p w : Nat) : State :=
  foldN 4 (fun t i =>
    let c := w / 2 ^ (16 * i) % 2 ^ 16
    let n := c % 2048
    let ch := c / 2048
    let have_ := (t.port p).creditOf ch
    if n = 0 then t
    else if 0x12 ≤ ch then t.violate p 1 0 ch
    else if fullCredit < have_ + n then t.violate p 4 0 ch
    else t.updPort p (fun u => { u with credit := mapSet u.credit ch (have_ + n) })) s

/-- FLIT_RECEIVE (R371 to R374, R390): 256 bytes arrive on a port. A flit whose CRC fails is discarded whole and the sender is
told; a payload flit takes its place in order. -/
def effFlitReceive (port : Nat) (bytes : List Byte) (s : State) : State :=
  if !s.portUp port || bytes.length ≠ 256 then s
  else if crc32 ((bytes.take 252).map BitVec.toNat) ≠ leNat (bytes.drop 252) then s.sendCtl port 0 true 0 0
  else
    let h := leNat (bytes.take 12)
    let ftype := bitsN h 95 92
    let seq := bitsN h 91 80
    let s1 := ((s.pmuEvent (portDie port) 0x209 1).takeAck port (bitsN h 79 68)).takeCredit port (bitsN h 63 0)
    let s2 := if bitsN h 67 67 = 1 then s1.resend port else s1
    let s3 := if 3 ≤ ftype || bitsN h 66 64 ≠ 0 || (ftype ≠ 1 && seq ≠ 0) then s2.violate port 1 0 0 else s2
    if !s3.portUp port then s3
    else if ftype ≠ 1 then s3.pump port
    else
      let d := (seq + 4096 - ((s3.port port).rxLast + 1) % 4096) % 4096
      let s4 :=
        if 2048 ≤ d then s3
        else if 64 < d then s3.violate port 2 0 0
        else
          let s5 := (s3.updPort port (fun t => { t with reorder := mapSet t.reorder seq ((bytes.drop 12).take 240) })).drainOrder port 65
          -- the reorder buffer is full before the gap: the flits after the last in order are asked for again
          if d = 64 && s5.portUp port then s5.sendCtl port 0 true 0 0 else s5
      s4.pump port

/-! ## Identity (R378) -/

/-- IDENT leaves by every linked port that has carried payload, for a change of PKG_ID (R378). -/
def State.identAll (s : State) : State :=
  foldN 32 (fun t p =>
    if t.portUp p && (t.port p).carried then
      (t.updPort p (fun u => { u with ident := true })).sendPort p (ctlMsg cIDENT 0 [t.identUnit p])
    else t) s

/-- IDENT (R378, R396). -/
def effIdent (port : Nat) (m : FabMsg) (s : State) : State :=
  if !s.portUp port || m.typ ≠ mCTL || m.aux ≠ cIDENT then s
  else
    let u := m.units.headD 0
    let d := portDie port
    let s1 := (s.takeIn port m).fsets d
      [(portRef port BWF_NBR.VALID, 1), (portRef port BWF_NBR.PEER_IDV, bitsN u 62 62), (portRef port BWF_NBR.PEER_PORT, bitsN u 67 63),
       (portRef port BWF_NBR.PEER_SERIAL, bitsN u 127 80), (portRef port BWF_NBR2.PEER_LEVEL, bitsN u 49 42),
       (portRef port BWF_NBR2.PEER_LOC, bitsN u 79 68), (portRef port BWF_NBR2.PEER_ID, bitsN u 61 50)]
    s1.sendPort port (ctlMsg cIDENTACK 0 [])

/-- IDENT_ACK (R378). -/
def effIdentAck (port : Nat) (m : FabMsg) (s : State) : State :=
  if s.portUp port && m.typ = mCTL && m.aux = cIDENTACK then (s.takeIn port m).updPort port (fun u => { u with ident := false }) else s

/-- IDENT_RESEND (R378): every 1 ms until IDENT_ACK. -/
def effIdentResend (port : Nat) (s : State) : State :=
  if s.portUp port && (s.port port).ident then s.sendPort port (ctlMsg cIDENT 0 [s.identUnit port]) else s

/-! ## Directed requests of this package (R379, R403) -/

/-- A directed message's two units: path, PLEN, PTR, RET and in a response its RESULT, then the origin, write bit and data
(R379; where a response carries its RESULT is log entry 16). -/
structure DrUnits where
  path : Nat
  plen : Nat
  ptr : Nat
  ret : Nat
  result : Nat
  origin : Nat
  write : Bool
  data : Nat

def DrUnits.of (us : List Nat) : DrUnits :=
  let a := us.headD 0
  let b := us.getD 1 0
  { path := bitsN a 127 88, plen := bitsN a 87 84, ptr := bitsN a 83 80, ret := bitsN a 79 40, result := bitsN a 2 0,
    origin := bitsN b 127 80, write := bitsN b 79 79 = 1, data := bitsN b 63 0 }

def DrUnits.units (d : DrUnits) : List Nat :=
  [d.path % 2 ^ 40 * 2 ^ 88 + d.plen % 16 * 2 ^ 84 + d.ptr % 16 * 2 ^ 80 + d.ret % 2 ^ 40 * 2 ^ 40 + d.result % 8,
   d.origin % 2 ^ 48 * 2 ^ 80 + b2n d.write * 2 ^ 79 + d.data % 2 ^ 64]

/-- Port `i` of a list of ports of five bits. -/
def drPort (l i : Nat) : Nat := l / 2 ^ (5 * i) % 32

/-- A directed request of a Q-die ends (R403). -/
def State.drEnd (s : State) (q result : Nat) : State :=
  (s.updFab (fun f => { f with drAt := mapErase f.drAt q })).fsets q [(BWF_DR_CTRL.BUSY, 0), (BWF_DR_CTRL.GO, 0), (BWF_DR_CTRL.RESULT, result)]

/-- BWF_DR_GO (R403): ignored while BUSY. A PLEN outside 1 to 8 sends nothing. -/
def effBwfDrGo (q : Nat) (s : State) : State :=
  if !isQ q || !s.dieUp q || s.fbit q BWF_DR_CTRL.BUSY then s
  else
    let plen := s.fget q BWF_DR_PATH.PLEN
    let path := s.fget q BWF_DR_PATH.PATH
    let tag := s.fab.nextTag
    let s1 := (s.fsets q [(BWF_DR_CTRL.BUSY, 1), (BWF_DR_CTRL.RESULT, 0)]).updFab (fun f =>
      { f with nextTag := (tag + 1) % 65536, drAt := mapSet f.drAt q tag })
    if plen = 0 || 8 < plen then s1
    else if !s1.portUp (drPort path 0) then s1.drEnd q 3
    else
      let d : DrUnits := ⟨path, plen, 0, 0, 0, Config.serial.toNat, s.fbit q BWF_DR_CTRL.WRITE, s.fget q BWF_DR_DATA.DATA⟩
      s1.sendPort (drPort path 0) { ctlMsg cDRREQ (s.fget q BWF_DR_ADDR.ADDR) d.units with tag := tag, agent := q }

/-- DR_TIMEOUT (R403): no response within 1 ms. -/
def effDrTimeout (q : Nat) (s : State) : State := if isQ q && s.fbit q BWF_DR_CTRL.BUSY then s.drEnd q 1 else s

/-- DR_RSP (R379): it returns by RET in reverse order, and ends the request at its origin. -/
def effDrRsp (port : Nat) (m : FabMsg) (s : State) : State :=
  if !s.portUp port || m.typ ≠ mCTL || m.aux ≠ cDRRSP then s
  else
    let s1 := s.takeIn port m
    let d := DrUnits.of m.units
    if 0 < d.ptr then
      let d1 := { d with ptr := d.ptr - 1 }
      s1.sendPort (drPort d.ret (d.ptr - 1)) { m with units := d1.units }
    else if isQ m.agent && mapFind s1.fab.drAt m.agent = some m.tag && s1.fbit m.agent BWF_DR_CTRL.BUSY then
      ((if d.write then s1 else s1.fset m.agent BWF_DR_DATA.DATA d.data).drEnd m.agent d.result)
    else s1

/-- BWF_ASSIGN_WRITE (R400): VALID written 1 raises the fabric interrupt, which follows the register (R540). -/
def effBwfAssignWrite (valid : Bool) (id : Nat) (s : State) : State :=
  s.fsets shDie [(BWF_ASSIGN.VALID, b2n valid), (BWF_ASSIGN.ID, id)]

/-! ## Reports (R391 to R393) -/

/-- REPORT (R392): merged with its period's entry, or sent on at once with LATE. -/
def effReport (port : Nat) (m : FabMsg) (s : State) : State :=
  if s.portUp port && m.typ = mCTL && m.aux = cREPORT then (s.takeIn port m).takeReport (FabReport.ofUnit (m.units.headD 0)) else s

/-- The merged entries of a period leave, and the period counts as forwarded. -/
def State.sendPeriod (s : State) (period : Nat) : State :=
  let mine := s.fab.merged.filter (fun e => e.period ≤ period)
  mine.foldl (fun t e => t.reportUp e)
    (s.updFab (fun f => { f with merged := f.merged.filter (fun e => period < e.period), forwarded := max f.forwarded (period + 1) }))

/-- REPORT_PERIOD_FORWARD (R392): at its depth slot, a package other than the root forwards a period. -/
def effReportPeriodForward (period : Nat) (s : State) : State :=
  if s.fbit shDie BWF_REPORT.ROOT || period < s.fab.forwarded then s else s.sendPeriod period

/-- ROOT_EVENT_DELIVERY (R392): 2 ms after a period the root delivers one event per key. -/
def effRootEventDelivery (period : Nat) (s : State) : State :=
  if !s.fbit shDie BWF_REPORT.ROOT || period < s.fab.forwarded then s else s.sendPeriod period

/-- BWF_EVT_LO and BWF_EVT_HI of the head event (R402). -/
def State.evtWords (s : State) : Word × Word :=
  match s.fab.events with
  | [] => (0, 0)
  | e :: _ =>
    (BitVec.ofNat 64 e.earliest,
     BitVec.ofNat 64 (2 ^ 63 + b2n e.late * 2 ^ 62 + e.cls * 2 ^ 56 + e.target * 2 ^ 44 + e.count * 2 ^ 28 + e.period % 2 ^ 28))

/-- The read of BWF_EVT_HI removes the event (R393). -/
def State.popEvt (s : State) : State := s.updFab (fun f => { f with events := f.events.drop 1 })

/-- BWF_EVT_HI_READ (R393, R402): an agent reads BWF_EVT_HI. -/
def effBwfEvtHiRead (agent : Agent) (s : State) : State := (s.popEvt).emit (.regData agent s.evtWords.2)

/-! ## The commands of this file: each one's effect, committed -/

/-- LANE_TRAINING_END (R368). -/
def execLaneTrainingEnd (port lane : Nat) (ok : Bool) (s : State) : Host.Outcome State Fault Refusal :=
  s.commit (effLaneTrainingEnd port lane ok s)

/-- LANE_LOCK (R370). -/
def execLaneLock (port lane : Nat) (s : State) : Host.Outcome State Fault Refusal :=
  s.commit (effLaneLock port lane s)

/-- LANE_FAILURE (R370). -/
def execLaneFailure (port lane : Nat) (s : State) : Host.Outcome State Fault Refusal :=
  s.commit (effLaneFailure port lane s)

/-- PORT_RETRAIN_TIMER (R375). -/
def execPortRetrainTimer (port : Nat) (s : State) : Host.Outcome State Fault Refusal :=
  s.commit (effPortRetrainTimer port s)

/-- FLIT_RECEIVE (R371). -/
def execFlitReceive (port : Nat) (bytes : List Byte) (s : State) : Host.Outcome State Fault Refusal :=
  s.commit (effFlitReceive port bytes s)

/-- LINK_CONTROL_RESEND (R371). -/
def execLinkControlResend (port : Nat) (s : State) : Host.Outcome State Fault Refusal :=
  s.commit (effLinkControlResend port s)

/-- WIDTH (R375). -/
def execWidth (port half : Nat) (s : State) : Host.Outcome State Fault Refusal :=
  s.commit (effWidth port half s)

/-- WIDTH_ACK (R375). -/
def execWidthAck (port half : Nat) (s : State) : Host.Outcome State Fault Refusal :=
  s.commit (effWidthAck port half s)

/-- BWF_RETRAIN (R395). -/
def execBwfRetrain (port : Nat) (s : State) : Host.Outcome State Fault Refusal :=
  s.commit (effBwfRetrain port s)

/-- BWF_EN_WRITE (R395). -/
def execBwfEnWrite (port : Nat) (en : Bool) (s : State) : Host.Outcome State Fault Refusal :=
  s.commit (effBwfEnWrite port en s)

/-- IDENT (R378). -/
def execIdent (port : Nat) (m : FabMsg) (s : State) : Host.Outcome State Fault Refusal :=
  s.commit (effIdent port m s)

/-- IDENT_ACK (R378). -/
def execIdentAck (port : Nat) (m : FabMsg) (s : State) : Host.Outcome State Fault Refusal :=
  s.commit (effIdentAck port m s)

/-- IDENT_RESEND (R378). -/
def execIdentResend (port : Nat) (s : State) : Host.Outcome State Fault Refusal :=
  s.commit (effIdentResend port s)

/-- DR_RSP (R379). -/
def execDrRsp (port : Nat) (m : FabMsg) (s : State) : Host.Outcome State Fault Refusal :=
  s.commit (effDrRsp port m s)

/-- BWF_DR_GO (R403). -/
def execBwfDrGo (q : Nat) (s : State) : Host.Outcome State Fault Refusal :=
  s.commit (effBwfDrGo q s)

/-- DR_TIMEOUT (R403). -/
def execDrTimeout (q : Nat) (s : State) : Host.Outcome State Fault Refusal :=
  s.commit (effDrTimeout q s)

/-- BWF_ASSIGN_WRITE (R400). -/
def execBwfAssignWrite (valid : Bool) (id : Nat) (s : State) : Host.Outcome State Fault Refusal :=
  s.commit (effBwfAssignWrite valid id s)

/-- REPORT (R392). -/
def execReport (port : Nat) (m : FabMsg) (s : State) : Host.Outcome State Fault Refusal :=
  s.commit (effReport port m s)

/-- REPORT_PERIOD_FORWARD (R392). -/
def execReportPeriodForward (period : Nat) (s : State) : Host.Outcome State Fault Refusal :=
  s.commit (effReportPeriodForward period s)

/-- ROOT_EVENT_DELIVERY (R392). -/
def execRootEventDelivery (period : Nat) (s : State) : Host.Outcome State Fault Refusal :=
  s.commit (effRootEventDelivery period s)

/-- BWF_EVT_HI_READ (R393). -/
def execBwfEvtHiRead (agent : Agent) (s : State) : Host.Outcome State Fault Refusal :=
  s.commit (effBwfEvtHiRead agent s)

end Sys2Proof.Machine
end

