-- ==== Sys2Proof/Machine/TidemarkOps.lean ====
section
/-!
DEFINITION. Tidemark: the time source, markers, offsets and slewing, acquisition and holdover (R405 to R411), and the ballast
ramp of an await (R424).
-/
namespace Sys2Proof.Machine

/-- The Q-die that is the time source (R405, R537). -/
def State.timeSource (s : State) : Nat :=
  let q := if s.fbit shDie TMK_CTRL.MASTER || !s.fbit shDie TMK_CTRL.PARENT_VALID then 4 else portDie (s.fget shDie TMK_CTRL.PARENT_PORT)
  if s.dieUp q then q else peerQ q

/-- The key of a link's end. -/
def tickKey : TickLink → Nat
  | .port p => p
  | .jetty die peer => 64 + die * 8 + peer

/-- The die at this end. -/
def tickDie : TickLink → Nat
  | .port p => portDie p
  | .jetty die _ => die

def TickEnd.reset : TickEnd := { seq := 0, sent := [], peer := none }

def State.tickEnd (s : State) (l : TickLink) : TickEnd := mapGet TickEnd.reset s.tidemark.ends (tickKey l)

def State.updTick (s : State) (l : TickLink) (f : TickEnd → TickEnd) : State :=
  { s with tidemark := { s.tidemark with ends := mapSet s.tidemark.ends (tickKey l) (f (s.tickEnd l)) } }

def State.tickUp (s : State) (l : TickLink) : Bool :=
  match l with
  | .port p => s.portUp p
  | .jetty a b => a < 6 && b < 6 && (linkHome a b).isSome && s.linkState a b = jUP && s.dieUp a && s.dieUp b

/-- A copy in 1/16 ns. -/
def State.tmk16 (s : State) (die : Nat) : Nat := mapGet 0 s.tmk die / 640

/-- The unit of a marker (R407). -/
def tickUnit (tx delta echo seq : Nat) : Nat := tx % 2 ^ 64 * 2 ^ 64 + delta * 2 ^ 32 + echo * 2 ^ 16 + seq

/-- TICK_SEND (R407): every 10 µs, on a linked port or an up Jetty link. -/
def effTickSend (l : TickLink) (s : State) : State :=
  if !s.tickUp l then s
  else
    let e := s.tickEnd l
    let t := s.tmk16 (tickDie l)
    let (delta, echo) := match e.peer with
      | some (n, at_) => (min (t - at_) 0xFFFFFFFE, n)
      | none => (0xFFFFFFFF, 0)
    let u := tickUnit (t / 16) delta echo e.seq
    let s1 := s.updTick l (fun e => { e with seq := (e.seq + 1) % 65536, sent := mapSet e.sent e.seq t })
    match l with
    | .port p => s1.sendPort p (ctlMsg cTICK 0 [u])
    | .jetty a b => { s1 with tidemark := { s1.tidemark with wire := s1.tidemark.wire ++ [(b, a, u)] } }

/-- Link delay and offset of a marker with an echo, in 1/16 ns (R407). -/
def State.tickOffset (s : State) (l : TickLink) (u : Nat) : Option (Int × Int) :=
  let delta := bitsN u 63 32
  match mapFind (s.tickEnd l).sent (bitsN u 31 16) with
  | some t1 =>
    if delta = 0xFFFFFFFF then none
    else
      let rx : Int := s.tmk16 (tickDie l)
      let d := ((rx - (t1 : Int)) - (delta : Int)) / 2
      some (d, rx - ((bitsN u 127 64 : Nat) * 16 + d))
  | none => none

/-- Every copy of the package stepped forward (R409). -/
def State.stepCopies (s : State) (units : Nat) : State :=
  foldN 6 (fun t d => { t with tmk := mapSet t.tmk d (mapGet 0 t.tmk d + units) }) s

/-- ACQUIRED on both Q-dies. -/
def State.setAcquired (s : State) : State := (s.fset 4 TMK_STATUS.ACQUIRED 1).fset 5 TMK_STATUS.ACQUIRED 1

/-- What the time source makes of an offset on its parent port (R408 to R410). -/
def State.sourceOffset (s : State) (q : Nat) (d o : Int) : State :=
  let s1 := s.fsets q [(TMK_STATUS.OFFSET, unsignedN 32 o), (TMK_STATUS.DELAY, unsignedN 16 d), (TMK_STATUS.HOLDOVER, 0)]
  if !s.fbit q TMK_STATUS.ACQUIRED then
    if s.fbit q TMK_STATUS.AHEAD then s1
    else if o ≤ 0 then (s1.stepCopies ((-o).toNat * 640)).setAcquired
    else s1.fset q TMK_STATUS.AHEAD 1
  else
    let offs := (o :: s.tidemark.offs).take 16
    let locked := offs.length = 16 && offs.all (fun x => x.natAbs ≤ 128)
    let s2 := { s1 with tidemark := { s1.tidemark with offs := offs, slew := mapSet s1.tidemark.slew q (-o * 640) } }
    s2.fset q TMK_STATUS.LOCKED (b2n locked)

/-- TICK (R407, R408): a marker arrives; on the parent port of the time source and on the path from it, the offset is
slewed. -/
def effTick (l : TickLink) (u : Nat) (s : State) : State :=
  if !s.tickUp l then s
  else
    let here : Option State := match l with
      | .port p => some (s.takeIn p (ctlMsg cTICK 0 [u]))
      | .jetty a b =>
        match takeFirst (fun (x : Nat × Nat × Nat) => decide (x = (a, b, u))) s.tidemark.wire with
        | some (_, rest) => some { s with tidemark := { s.tidemark with wire := rest } }
        | none => none
    match here with
    | none => s
    | some s1 =>
      let s2 := s1.updTick l (fun e => { e with peer := some (bitsN u 15 0, s.tmk16 (tickDie l)) })
      let src := s.timeSource
      match s.tickOffset l u with
      | none => s2
      | some (d, o) =>
        match l with
        | .port p =>
          if portDie p = src && !s.fbit shDie TMK_CTRL.MASTER && s.fbit shDie TMK_CTRL.PARENT_VALID && s.fget shDie TMK_CTRL.PARENT_PORT = p then
            s2.sourceOffset src d o
          else s2
        | .jetty a b =>
          if a ≠ src && nextDie a src 0 = b then
            { s2 with tidemark := { s2.tidemark with slew := mapSet s2.tidemark.slew a (-o * 640) } }
          else s2

/-- What a copy gains beyond its nominal advance in one event tick: no more than 0.0002 of it and no more than it has to
slew; the rest is not stated, and is a free value (R408). -/
def State.slewStep (s : State) (die : Nat) : Int × State :=
  let x := mapGet 0 s.tidemark.slew die
  if x = 0 then (0, s)
  else
    let (v, t) := s.free
    let n : Int := min x.natAbs (v.toNat % 210)
    let g := if x < 0 then -n else n
    (g, { t with tidemark := { t.tidemark with slew := mapSet t.tidemark.slew die (x - g) } })

/-- Every copy advances by one event tick of 102.4 ns (R405); that of a die that is lost or has no clock does not (R21). -/
def State.tmkAdvance (s : State) : State :=
  foldN 6 (fun t d =>
    if 2 ≤ mapGet 0 t.dieMode d then t
    else
      let (g, u) := t.slewStep d
      { u with tmk := mapSet u.tmk d (((mapGet 0 u.tmk d + 1048576 : Nat) : Int) + g).toNat }) s

/-- TMK_SET_WRITE (R409, R429): on an unacquired master a forward write sets the count; every other write is ignored. -/
def effTmkSetWrite (q : Nat) (time : Word) (s : State) : State :=
  if !isQ q || !s.dieUp q || !s.fbit shDie TMK_CTRL.MASTER || s.fbit q TMK_STATUS.ACQUIRED || time.toNat < s.tmkNs q then s
  else (foldN 6 (fun t d => { t with tmk := mapSet t.tmk d (time.toNat * 10240) }) s).setAcquired

/-- HOLDOVER_FAULT (R410): after 1 s of holdover a LINK fault event names the package itself. -/
def effHoldoverFault (s : State) : State :=
  let q := s.timeSource
  if s.fbit q TMK_STATUS.HOLDOVER && s.idValid then s.faultReport q s.ownId rLINK else s

/-! ## Ballast (R424) -/

/-- The release time of an await, where it is known in advance, in ns: its tick, or that of a pending RELEASE for its
token counter. -/
def State.releaseNs (s : State) (die : Nat) : Option Nat :=
  match (s.td die).fetched with
  | none => none
  | some ws =>
    let c := bSlot ws 15
    let at_ := fun (tick : Nat) => tick * 2 ^ s.tickShift
    if bits c 63 62 = 0 then
      (s.coll.releases.find? (fun (r : Nat × Nat × Nat) => decide (r.1 = die ∧ r.2.1 = bits c 51 48))).map (fun r => at_ r.2.2)
    else some (at_ (s.fget die SEQ_TICKBASE.TICKBASE + bits c 31 0))

/-- RAMP_US ÷ 64 in ns (R434). -/
def State.rampStep (s : State) (die : Nat) : Nat := max 50 (min 1000 (s.fget die SEQ_BALLAST.RAMP_US)) * 1000 / 64

/-- A release for a token counter of a die is learned, `left` ns before it: where the ballast of a token await on that counter is too low to reach
L0 by then, its ramp starts at once and the event is counted (R424). -/
def State.learnRelease (s : State) (die token left : Nat) : State :=
  let t := s.td die
  match t.fetched with
  | none => s
  | some ws =>
    let c := bSlot ws 15
    if s.seqState die ≠ seqAWAITING || !t.step2 || !bBallast ws || bits c 63 62 ≠ 0 || bits c 51 48 ≠ token || t.ballastUp ||
        (t.ballastTop - s.fget die SEQ_BALLAST.LEVEL) * s.rampStep die ≤ left then s
    else (s.updTd die (fun t => { t with ballastUp := true })).finc die SEQ_BALLAST.SHORT_CNT

/-- BALLAST_RAMP_STEP (R424): the level falls by one, or rises by one once the time left to a known release is that of the
rise. -/
def effBallastRampStep (die : Nat) (s : State) : State :=
  let t := s.td die
  match t.fetched with
  | none => s
  | some ws =>
    if !isC die || s.seqState die ≠ seqAWAITING || !t.step2 || !bBallast ws then s
    else
      let level := s.fget die SEQ_BALLAST.LEVEL
      let need := (t.ballastTop - level) * s.rampStep die
      let left := (s.releaseNs die).map (fun r => r - s.tmkNs die)
      let up := t.ballastUp || (match left with | some n => decide (n ≤ need) | none => false)
      if up then (s.updTd die (fun t => { t with ballastUp := true })).fset die SEQ_BALLAST.LEVEL (min t.ballastTop (level + 1))
      else s.fset die SEQ_BALLAST.LEVEL (level - 1)

/-! ## The commands of this file: each one's effect, committed -/

/-- TICK (R407). -/
def execTick (l : TickLink) (u : Nat) (s : State) : Host.Outcome State Fault Refusal :=
  s.commit (effTick l u s)

/-- TICK_SEND (R407). -/
def execTickSend (l : TickLink) (s : State) : Host.Outcome State Fault Refusal :=
  s.commit (effTickSend l s)

/-- TMK_SET_WRITE (R409). -/
def execTmkSetWrite (q : Nat) (time : Word) (s : State) : Host.Outcome State Fault Refusal :=
  s.commit (effTmkSetWrite q time s)

/-- HOLDOVER_FAULT (R410). -/
def execHoldoverFault (s : State) : Host.Outcome State Fault Refusal :=
  s.commit (effHoldoverFault s)

/-- BALLAST_RAMP_STEP (R424). -/
def execBallastRampStep (die : Nat) (s : State) : Host.Outcome State Fault Refusal :=
  s.commit (effBallastRampStep die s)

end Sys2Proof.Machine
end

