-- ==== Sys2Proof/Machine/Iommu.lean ====
section
/-!
DEFINITION. The invalidations of the IOMMUs (R234).
-/
namespace Sys2Proof.Machine

/-- IOMMU_INVALIDATION (R234): an invalidation that one IOMMU completes; the other is not reached. The command at the head of its queue is
done with, where it is one, and the queue runs on. The IOMMU then keeps no translation at all (log entry 59). -/
def effIommuInvalidation (q : Nat) (s : State) : State :=
  if isQ q && s.dieUp q then
    let t := ({ s with iommuGen := mapSet s.iommuGen q (s.iommuAt q + 1) }).updIommu q (fun x => { x with kept := [] })
    if t.iomHeadInv q then
      (t.fset q IOM_CQHT.HEAD ((t.fget q IOM_CQHT.HEAD + 1) % 2 ^ (t.fget q IOM_CQB.LOG2SZ + 1))).iomRun q
    else t
  else s

/-! ## The commands of this file: each one's effect, committed -/

/-- IOMMU_INVALIDATION (R234). -/
def execIommuInvalidation (q : Nat) (s : State) : Host.Outcome State Fault Refusal :=
  s.commit (effIommuInvalidation q s)

end Sys2Proof.Machine
end

