-- ==== Sys2Proof/Machine/Collectives.lean ====
section
/-!
DEFINITION. The collective engines (R412 to R425): groups, commands, the fixed tree, messages, results, failures, barriers and
the floor.
-/
namespace Sys2Proof.Machine

def opREDUCE : Nat := 1
def opALLREDUCE : Nat := 2
def opSCATTER : Nat := 3
def opGATHER : Nat := 4
def opBROADCAST : Nat := 5
def opBARRIER : Nat := 6

/-- KIND codes (R418). -/
def kDATA : Nat := 1
def kRESULT : Nat := 2
def kARRIVE : Nat := 3
def kRELEASE : Nat := 4
def kFAIL : Nat := 5
def kGATHER : Nat := 6

/-- Codes of R420. -/
def fFORMAT : Nat := 1
def fMISMATCH : Nat := 2
def fUNREACHABLE : Nat := 3
def fTIMEOUT : Nat := 4
def fPOISON : Nat := 5
def fTRANSLATION : Nat := 6

def State.updColl (s : State) (f : Coll → Coll) : State := { s with coll := f s.coll }

/-- The rank table that an engine has copied, where its group entry is valid (R412). -/
def State.rankTable (s : State) (q g : Nat) : Option (List Nat) :=
  if g < 64 && s.fbit q (COL_GRP_CFG.VALID.plus (16 * g)) then mapFind s.coll.tables (q * 64 + g) else none

/-- The CRC of a table (R412). -/
def tableCrc (t : List Nat) : Nat := crc32 (t.flatMap (fun e => [e % 256, e / 256]))

def State.inst (s : State) (g seq : Nat) : Option ColInst := s.coll.insts.find? (fun i => decide (i.group = g ∧ i.seq = seq))

def State.setInst (s : State) (i : ColInst) : State :=
  s.updColl (fun c => { c with insts := c.insts.map (fun x => if x.group = i.group ∧ x.seq = i.seq then i else x) })

def State.dropInst (s : State) (g seq : Nat) : State :=
  s.updColl (fun c => { c with insts := c.insts.filter (fun x => !(x.group = g && x.seq = seq)) })

/-- The table an instance runs over: that of its first command's engine, or of any engine that has one. -/
def State.instTable (s : State) (i : ColInst) : List Nat :=
  let qs := (i.cmds.map (fun (c : ColCmd) => c.q)) ++ [4, 5]
  ((qs.filterMap (fun q => s.rankTable q i.group)).head?).getD []

/-- A group is busy while an instance of it is in progress (R433). -/
def State.groupBusy (s : State) (g : Nat) : Bool := s.coll.insts.any (fun i => decide (i.group = g))

/-- COL_GROUP_VALID (R412, R433): COL_GRPn_CFG of a Q-die written VALID copies the table and records its CRC. A table whose
lines a cache outside the package owns is read once they are recalled. One that does not lie in populated memory cannot be read (R220), and
VALID stays 0 (DESIGN CHOICE, log entry 58). -/
def effColGroupValid (q group ranks : Nat) (s : State) : State :=
  if !isQ q || !s.dieUp q || 64 ≤ group || s.groupBusy group || ranks = 0 || 32768 < ranks then s
  else
    let a := s.fget q (COL_GRP_TABLE.ADDR.plus (16 * group)) * 2
    match s.readFrom q 0 idColl a (2 * ranks) with
    | (.wait, t) => t
    | (.refused, t) | (.lost, t) => t.fset q (COL_GRP_CFG.VALID.plus (16 * group)) 0
    | (.got d _, t) =>
      let tbl := (List.range ranks).map (fun r => leNat ((d.drop (2 * r)).take 2))
      (t.updColl (fun c =>
        { c with
          tables := mapSet c.tables (q * 64 + group) tbl, failed := c.failed.filter (· ≠ group),
          ended := mapErase c.ended group })).fsets q
        [(COL_GRP_CFG.VALID.plus (16 * group), 1), (COL_GRP_CFG.RANKS.plus (16 * group), ranks),
         (COL_GRP_CFG.CRC.plus (16 * group), tableCrc tbl)]

/-! ## The tree (R415) -/

/-- Bytes of an element. -/
def colSize (fmt : Nat) : Nat := if fmt = 1 then 2 else 4

/-- Segments of a block of COUNT elements (R418). -/
def ColCmd.segs (c : ColCmd) : Nat := (c.count * colSize c.fmt + 63) / 64

/-- The rank at a position. -/
def posRank (n root pos : Nat) : Nat := (root + pos) % n

def posOf (n root rank : Nat) : Nat := (rank + n - root % n) % n

/-- The package that holds the rank at a position. -/
def holder (tbl : List Nat) (root pos : Nat) : Nat := tbl.getD (posRank tbl.length root pos) 0 % 4096

/-- mid of R415. -/
def colMid (lo hi : Nat) : Nat := lo + 2 ^ (Nat.log2 (hi - lo - 1))

/-- The right children of the tree with the position of their parents: (lo, hi, parent's lo). -/
def colEdges : Nat → Nat → Nat → List (Nat × Nat × Nat)
  | 0, _, _ => []
  | k + 1, lo, hi =>
    if hi - lo ≤ 1 then []
    else
      let m := colMid lo hi
      (m, hi, lo) :: (colEdges k lo m ++ colEdges k m hi)

/-- One element of a combine (R415). -/
def combineElem (fmt red a b : Nat) : Nat :=
  match red with
  | 0 => addElem fmt a b none
  | _ =>
    let mx := red = 1
    match fmt with
    | 0 => f32MinMax mx a b
    | 1 => f32MinMax mx (a * 2 ^ 16) (b * 2 ^ 16) / 2 ^ 16
    | _ =>
      let less := signedN 32 a ≤ signedN 32 b
      if (less && mx) || (!less && !mx) then b else a

/-- The combine of a node, the left operand first. -/
def combine (fmt red : Nat) (a b : List Byte) : List Byte :=
  let z := colSize fmt
  (List.range (a.length / z)).flatMap (fun i =>
    leBytes z (combineElem fmt red (leNat ((a.drop (z * i)).take z)) (leNat ((b.drop (z * i)).take z))))

/-- Segment `i` of block `j` of a source, padded to 64 bytes. -/
def ColCmd.segment (c : ColCmd) (j i : Nat) : List Byte :=
  let block := (c.data.drop (j * c.count * colSize c.fmt)).take (c.count * colSize c.fmt)
  ((block.drop (64 * i)).take 64 ++ List.replicate 64 (0 : Byte)).take 64

/-- What an instance agrees on: its first command. -/
def ColInst.head (i : ColInst) : Option ColCmd := i.cmds.head?

/-- The value of a node, where this package has all that it takes: its own sources, and what its children sent. `seg` is the
segment as messages number it (log entry 19). -/
def ColInst.value (x : ColInst) (c : ColCmd) (own : Nat) (tbl : List Nat) (root seg : Nat) : Nat → Nat → Nat → Option (List Byte)
  | 0, _, _ => none
  | k + 1, lo, hi =>
    if holder tbl root lo ≠ own then
      (x.vals.find? (fun v => decide (v.lo = lo ∧ v.hi = hi ∧ v.seg = seg))).map (fun v => v.data)
    else if hi - lo ≤ 1 then
      match x.cmds.find? (fun m => decide (m.rank = posRank tbl.length root lo) && m.launched) with
      | some m => some (if c.op = opBARRIER then [] else m.segment (seg / max 1 c.segs) (seg % max 1 c.segs))
      | none => none
    else
      let m := colMid lo hi
      match x.value c own tbl root seg k lo m, x.value c own tbl root seg k m hi with
      | some a, some b => some (if c.op = opBARRIER then [] else combine c.fmt c.red a b)
      | _, _ => none

/-- A tree of 32,768 ranks is at most 16 deep. -/
def treeFuel : Nat := 17

/-- The reductions of an instance: block and root (R414). -/
def ColCmd.trees (c : ColCmd) (n : Nat) : List (Nat × Nat) :=
  if c.op = opSCATTER then (List.range n).map (fun j => (j, j))
  else if c.op = opREDUCE then [(0, c.root)]
  else if c.op = opALLREDUCE || c.op = opBARRIER then [(0, 0)]
  else []

/-- Segments that the package combines for an instance: at each inner node that it holds, of each reduction (R415, R595). -/
def ColInst.combined (x : ColInst) (own : Nat) (tbl : List Nat) : Nat :=
  match x.head with
  | none => 0
  | some c =>
    if c.op = opBARRIER then 0
    else ((c.trees tbl.length).map (fun t =>
      ((colEdges treeFuel 0 tbl.length).filter (fun e => decide (holder tbl t.2 e.2.2 = own))).length * c.segs)).sum

/-- The segments of one reduction as messages number them: block × segments + index (log entry 19); a barrier has one. -/
def ColCmd.segNums (c : ColCmd) (j : Nat) : List Nat :=
  if c.op = opBARRIER then [0] else (List.range c.segs).map (fun i => j * c.segs + i)

/-! ## Messages (R418) -/

/-- What an instance sends: destination, kind, positions, segment, and further units. -/
structure ColOut where
  dst : Nat
  kind : Nat
  lo : Nat
  hi : Nat
  seg : Nat
  units : List Nat

/-- The key under which a message is marked as sent. -/
def ColOut.key (o : ColOut) : Nat × Nat × Nat := (o.dst, o.kind * 2 ^ 32 + o.lo * 2 ^ 16 + o.hi, o.seg)

/-- The subheader unit. -/
def colSub (g kind lo hi seq seg tcrc : Nat) : Nat :=
  g % 64 * 2 ^ 122 + kind * 2 ^ 118 + lo % 2 ^ 16 * 2 ^ 102 + hi % 2 ^ 16 * 2 ^ 86 + seq % 2 ^ 32 * 2 ^ 54 + seg % 2 ^ 28 * 2 ^ 26 +
    tcrc % 2 ^ 24 * 4

/-- A collective message on its way; none leaves while the package's ID is not valid (R24). -/
def State.colSend (s : State) (q g seq tcrc : Nat) (o : ColOut) : State :=
  if !s.idValid then s
  else s.dispatch q
    { typ := mCOL, hops := 0, dst := o.dst, src := s.ownId, tag := g * 1024 + seq % 1024, agent := agCol, aux := 0, addr := 0,
      units := colSub g o.kind o.lo o.hi seq o.seg tcrc :: o.units }

/-- The other member packages of a group. -/
def members (tbl : List Nat) (own : Nat) : List Nat := ((tbl.map (· % 4096)).dedup).filter (· ≠ own)

/-- Ranks that this package does not hold. -/
def farRanks (tbl : List Nat) (own : Nat) : List Nat := (List.range tbl.length).filter (fun r => tbl.getD r 0 % 4096 ≠ own)

/-- Every message that an instance may send by now (R415, R416, R418). -/
def ColInst.messages (x : ColInst) (own : Nat) (tbl : List Nat) : List ColOut :=
  match x.head with
  | none => []
  | some c =>
    let n := tbl.length
    let up := (c.trees n).flatMap (fun t =>
      ((colEdges treeFuel 0 n).filter (fun e => holder tbl t.2 e.1 = own && holder tbl t.2 e.2.2 ≠ own)).flatMap (fun e =>
        (c.segNums t.1).filterMap (fun g => (x.value c own tbl t.2 g treeFuel e.1 e.2.1).map (fun v =>
          (⟨holder tbl t.2 e.2.2, if c.op = opBARRIER then kARRIVE else kDATA, e.1, e.2.1, g, unitsOf v⟩ : ColOut)))))
    let result := fun (g : Nat) (v : List Byte) => (farRanks tbl own).map (fun r =>
      (⟨tbl.getD r 0 % 4096, kRESULT, r, r + 1, g, unitsOf v⟩ : ColOut))
    let down :=
      if c.op = opALLREDUCE && holder tbl 0 0 = own then
        (c.segNums 0).flatMap (fun g => match x.value c own tbl 0 g treeFuel 0 n with
          | some v => result g v
          | none => [])
      else if c.op = opBROADCAST then
        match x.cmds.find? (fun m => decide (m.rank = c.root) && m.launched) with
        | some m => (List.range c.segs).flatMap (fun i => result i (m.segment 0 i))
        | none => []
      else if c.op = opGATHER then
        (x.cmds.filter (fun m => m.launched)).flatMap (fun m => (List.range c.segs).flatMap (fun i =>
          (members tbl own).map (fun p => (⟨p, kGATHER, m.rank, m.rank + 1, m.rank * c.segs + i, unitsOf (m.segment 0 i)⟩ : ColOut))))
      else if c.op = opBARRIER then
        match x.release with
        | some t => if holder tbl 0 0 = own then (farRanks tbl own).map (fun r => ⟨tbl.getD r 0 % 4096, kRELEASE, r, r + 1, 0, [t]⟩) else []
        | none => []
      else []
    (up ++ down).filter (fun o => !x.sent.contains o.key)

/-- Segments that may be written by now: rank, block of DST, index, and bytes. -/
def ColInst.deliveries (x : ColInst) (own : Nat) (tbl : List Nat) : List (Nat × Nat × Nat × List Byte) :=
  match x.head with
  | none => []
  | some c =>
    let n := tbl.length
    let S := c.segs
    let here := x.cmds.map (fun (m : ColCmd) => m.rank)
    let tree := fun (root seg : Nat) => x.value c own tbl root seg treeFuel 0 n
    if c.op = opREDUCE then
      if here.contains c.root then (List.range S).filterMap (fun i => (tree c.root i).map (fun v => (c.root, 0, i, v))) else []
    else if c.op = opSCATTER then
      here.flatMap (fun r => (List.range S).filterMap (fun i => (tree r (r * S + i)).map (fun v => (r, 0, i, v))))
    else if c.op = opALLREDUCE then
      if holder tbl 0 0 = own then
        (List.range S).flatMap (fun i => match tree 0 i with
          | some v => here.map (fun r => (r, 0, i, v))
          | none => [])
      else x.inbound.map (fun v => (v.lo, 0, v.seg, v.data))
    else if c.op = opBROADCAST then
      match x.cmds.find? (fun m => decide (m.rank = c.root) && m.launched) with
      | some m => here.flatMap (fun r => (List.range S).map (fun i => (r, 0, i, m.segment 0 i)))
      | none => x.inbound.map (fun v => (v.lo, 0, v.seg, v.data))
    else if c.op = opGATHER then
      here.flatMap (fun r =>
        (x.cmds.filter (fun m => m.launched)).flatMap (fun m => (List.range S).map (fun i => (r, m.rank, i, m.segment 0 i))) ++
        x.inbound.map (fun v => (r, v.lo, v.seg % max 1 S, v.data)))
    else []

/-! ## Ends -/

/-- A token increment of a collective command on the die that TOKEN names (R413, R419);
one toward a stopped die is discarded and counted (R256). -/
def State.colToken (s : State) (c : ColCmd) : State :=
  if c.token < 128 then s
  else if s.dieUp (c.token / 16 % 4) then s.tokenAdd (c.token / 16 % 4) (c.token % 16) 1
  else s.countDiscard c.q (c.token / 16 % 4)

/-- An instance fails here: its commands fail with the code, the group is closed until it is written VALID again, and the
other members are told where this engine found the failure (R420, R432, R542). -/
def State.colFail (s : State) (x : ColInst) (code : Nat) (tell : Bool) : State :=
  let tbl := s.instTable x
  let q0 := match x.cmds with | c :: _ => c.q | [] => 4
  let qs := (x.cmds.map (fun (c : ColCmd) => c.q)).dedup
  let s1 := { s.dropInst x.group x.seq with
    queueEnds := s.queueEnds ++ x.cmds.map (fun (c : ColCmd) => (c.queue, some code)) }
  let s2 := s1.updColl (fun c => { c with failed := if c.failed.contains x.group then c.failed else c.failed ++ [x.group] })
  let s3 := qs.foldl (fun (t : State) q =>
    let t1 := (t.finc q COL_CNT.FAIL_CNT).logErr q 2 0x13 x.group code x.seq
    if t1.fbit q COL_ERR.VALID then t1
    else t1.fsets q [(COL_ERR.VALID, 1), (COL_ERR.CODE, code), (COL_ERR.GROUP, x.group), (COL_ERR.SEQ, x.seq)]) s2
  if tell then
    (members tbl s.ownId).foldl (fun t p => t.colSend q0 x.group x.seq (tableCrc tbl) ⟨p, kFAIL, 0, 0, 0, [code]⟩) s3
  else s3

/-! ## Sources and results -/

/-- Elements that a rank's command reads (R414). -/
def ColCmd.readCount (c : ColCmd) (n : Nat) : Nat :=
  if c.op = opSCATTER then n * c.count
  else if c.op = opBARRIER || (c.op = opBROADCAST && c.rank ≠ c.root) then 0
  else c.count

/-- What reading a source gives: the bytes and the 64 B pieces that read poisoned, a recall that comes first, or a failure. -/
inductive ColRead where
  | got (data : List Byte) (bad : List Nat)
  | wait
  | fault
  | refused

/-- SRC read through the IOMMU (R413, R421). -/
def State.colRead (s : State) (c : ColCmd) (n : Nat) : ColRead × State :=
  match s.translate c.q c.queue c.pasid c.src (c.readCount n * colSize c.fmt) false with
  | (.wait, t) => (.wait, t)
  | (.fault, t) => (.fault, t)
  | (.ok parts, s) =>
    if parts.any (fun p => 2 ^ 44 ≤ p.2.1) then (.fault, s.logErr c.q 2 0x0E c.queue 0x1 c.src)
    else
      parts.foldl (fun (acc : ColRead × State) p =>
        (List.range ((p.2.2 + 63) / 64)).foldl (fun (acc : ColRead × State) i =>
          match acc.1 with
          | .got d bad =>
            (match acc.2.readFrom c.q 0 idColl (p.2.1 + 64 * i) (min 64 (p.2.2 - 64 * i)) with
             | (.got bs p', t) => (.got (d ++ bs) (if p' then bad ++ [(p.1 + 64 * i) / 64] else bad), t)
             | (.wait, t) => (.wait, t)
             | (.refused, t) | (.lost, t) => (.refused, t))
          | r => (r, acc.2)) acc) (.got [] [], s)

/-- What a write to DST answers. -/
inductive ColPut where
  | ok | wait | fault | refused
  deriving DecidableEq

/-- A segment written to DST through the IOMMU; the padding of the last one is not written (R413, R418). -/
def State.colWrite (s : State) (c : ColCmd) (block i : Nat) (d : List Byte) (poison : Bool) : ColPut × State :=
  let size := c.count * colSize c.fmt
  let bs := d.take (min 64 (size - 64 * i))
  let a := c.dst + block * size + 64 * i
  match s.translate c.q c.queue c.pasid a bs.length true with
  | (.wait, t) => (.wait, t)
  | (.fault, t) => (.fault, t)
  | (.ok parts, s) =>
    if parts.any (fun p => 2 ^ 44 ≤ p.2.1) then (.fault, s.logErr c.q 2 0x0E c.queue 0x1 a)
    else
      parts.foldl (fun (acc : ColPut × State) p =>
        match acc.1 with
        | .ok =>
          (match acc.2.writeFrom c.q 0 p.2.1 ((bs.drop p.1).take p.2.2) poison with
           | none => (.refused, acc.2)
           | some (true, t) => (.ok, t)
           | some (false, t) => (.wait, t))
        | _ => acc) (.ok, s)

/-- One delivery: written once, to the command of its rank. -/
def State.colDeliver (s : State) (g seq : Nat) (v : Nat × Nat × Nat × List Byte) : State :=
  match s.inst g seq with
  | none => s
  | some x =>
    match x.cmds.find? (fun m => decide (m.rank = v.1) && m.launched) with
    | none => s
    | some c =>
      let k := v.2.1 * c.segs + v.2.2.1
      if c.got.contains k || c.segs ≤ v.2.2.1 then s
      else match s.colWrite c v.2.1 v.2.2.1 v.2.2.2 false with
      | (.ok, t) =>
        t.setInst { x with cmds := x.cmds.map (fun m => if m.rank = c.rank then { m with got := m.got ++ [k] } else m) }
      | (.wait, t) => t
      | (_, t) => t.colFail x fTRANSLATION true

/-- Did an instance of a group complete here at or after this SEQ (R417)? -/
def State.colEnded (s : State) (g seq : Nat) : Bool :=
  match mapFind s.coll.ended g with
  | some e => decide ((e + 2 ^ 32 - seq) % 2 ^ 32 < 2 ^ 31)
  | none => false

/-- A barrier's release reaches the dies that its commands name: at once and late where the tick has begun, else it waits for
the tick (R423); ballast of the await that it releases may have to rise at once (R424). -/
def State.barrierOut (s : State) (x : ColInst) (tick : Nat) : State :=
  x.cmds.foldl (fun t c =>
    if c.token < 128 then t
    else
      let die := c.token / 16 % 4
      let u := t.learnRelease die (c.token % 16) (tick * 2 ^ t.tickShift - t.tmkNs die)
      if tick ≤ t.tickCount die then (u.colToken c).finc c.q COL_CNT.LATE_CNT
      else if !t.dieUp die then u.colToken c
      else u.updColl (fun y => { y with releases := y.releases ++ [(die, c.token % 16, tick)] })) s

/-- An instance goes as far as it can: the root of a barrier chooses the release tick, messages leave, and results are
written. -/
def State.colStep (s : State) (g seq : Nat) : State :=
  match s.inst g seq with
  | none => s
  | some x0 =>
    let own := s.ownId
    let tbl := s.instTable x0
    match x0.head with
    | none => s
    | some c =>
      let done := c.op = opBARRIER && x0.release = none && holder tbl 0 0 = own &&
        (x0.value c own tbl 0 0 treeFuel 0 tbl.length).isSome
      let q := match x0.cmds.find? (fun m => decide (m.rank = 0)) with | some m => m.q | none => c.q
      let x := if done then { x0 with release := some (s.tickCount q + max 1 (s.fget shDie COL_CTRL.LEAD)) } else x0
      let out := if s.idValid then x.messages own tbl else []
      let s1 := s.setInst { x with sent := x.sent ++ out.map ColOut.key }
      let s2 := if done then s1.barrierOut x (x.release.getD 0) else s1
      let s3 := out.foldl (fun t o => t.colSend c.q g seq (tableCrc tbl) o) s2
      (x.deliveries own tbl).foldl (fun t v => t.colDeliver g seq v) s3

/-! ## Commands -/

/-- The formal defects of a command (R413, R414). -/
def State.colFormat (s : State) (c : ColCmd) : Bool :=
  match s.rankTable c.q c.group with
  | none => true
  | some tbl =>
    c.reserved || 2 < c.fmt || 2 < c.red || (c.scope ≠ 2 && c.scope ≠ 3) || tbl.length ≤ c.rank || tbl.length ≤ c.root ||
    tbl.getD c.rank 0 % 4096 ≠ s.ownId || (c.op = opBARRIER && c.count ≠ 0) ||
    (c.root ≠ 0 && c.op ≠ opREDUCE && c.op ≠ opBROADCAST) || c.op = 0 || 6 < c.op || c.src % 64 ≠ 0 || c.dst % 64 ≠ 0

/-- Does a command disagree with an instance (R417)? -/
def State.colMismatch (s : State) (x : ColInst) (c : ColCmd) : Bool :=
  x.cmds.any (fun m => m.op ≠ c.op || m.fmt ≠ c.fmt || m.red ≠ c.red || m.root ≠ c.root || m.count ≠ c.count || m.rank = c.rank ||
    s.rankTable m.q m.group ≠ s.rankTable c.q c.group)

/-- Is an instance the next of its group (R417)? -/
def State.colTurn (s : State) (g seq : Nat) : Bool :=
  !s.coll.insts.any (fun i => decide (i.group = g ∧ i.seq ≠ seq) && decide ((i.seq + 2 ^ 32 - seq) % 2 ^ 32 ≥ 2 ^ 31))

/-- A poisoned source: the segments of this package's DST that depend on it are written poisoned (R420). -/
def State.colPoison (s : State) (x : ColInst) (c : ColCmd) (n : Nat) (bad : List Nat) : State :=
  let S := max 1 c.segs
  x.cmds.foldl (fun t m =>
    let segs :=
      if c.op = opSCATTER then (List.range c.segs).filter (fun i =>
        bad.any (fun b => let lo := m.rank * c.count * colSize c.fmt + 64 * i; decide (lo < 64 * b + 64) && decide (64 * b < lo + 64)))
      else if c.op = opREDUCE && m.rank ≠ c.root then []
      else bad.filter (fun b => b < S)
    segs.foldl (fun (u : State) i =>
      (u.colWrite m (if c.op = opGATHER then c.rank else 0) i (List.replicate 64 0) true).2) t) (if n = 0 then s else s)

/-- One command launches: it reads its source (R419, R421). -/
def State.colLaunch (s : State) (g seq rank : Nat) : State :=
  match s.inst g seq with
  | none => s
  | some x =>
    match x.cmds.find? (fun m => decide (m.rank = rank) && !m.launched) with
    | none => s
    | some c =>
      if s.coll.failed.contains g then s.colFail x fMISMATCH true
      else if !s.colTurn g seq || (c.tick ≠ 0 && s.tickCount c.q < c.tick) then s
      else
        let n := (s.instTable x).length
        match s.colRead c n with
        | (.wait, t) => t
        | (.fault, t) => t.colFail x fTRANSLATION true
        | (.refused, t) => t.colFail x fTRANSLATION true
        | (.got d bad, t) =>
          if bad ≠ [] then (t.colPoison x c n bad).colFail x fPOISON true
          else
            (t.setInst { x with
              floor := x.floor || (!x.cmds.any (fun m => m.launched) && decide (s.fget shDie COL_CTRL.FLOOR_MS ≠ 0)),
              cmds := x.cmds.map (fun m => if m.rank = rank then { m with launched := true, data := d } else m) }).colStep g seq

/-- An instance, made where none is held yet. -/
def State.needInst (s : State) (g seq : Nat) : State :=
  if (s.inst g seq).isSome then s
  else s.updColl (fun c => { c with insts := c.insts ++ [⟨g, seq, [], [], [], [], none, false⟩] })

/-- A command of an operation reaches its engine (R413, R417, R421). -/
def State.colArrive (s : State) (q op : Nat) : State :=
  match takeFirst (fun (c : ColCmd) => decide (c.q = q ∧ c.op = op)) s.coll.coming with
  | none => s
  | some (c, rest) =>
    if !s.dieUp q then s
    else
      let s1 := (s.updColl (fun y => { y with coming := rest })).needInst c.group c.seq
      match s1.inst c.group c.seq with
      | none => s1
      | some x =>
        let x1 := { x with cmds := x.cmds ++ [c] }
        let s2 := s1.setInst x1
        if s2.colFormat c then s2.colFail x1 fFORMAT true
        else if s2.coll.failed.contains c.group || s2.colMismatch x c then s2.colFail x1 fMISMATCH true
        else
          let s3 := if c.tick ≠ 0 && c.tick < s2.tickCount q then s2.finc q COL_CNT.LATE_CNT else s2
          s3.colLaunch c.group c.seq c.rank

/-- REDUCE (R414). -/
def effReduce (q : Nat) (s : State) : State := s.colArrive q opREDUCE
/-- ALLREDUCE (R414). -/
def effAllreduce (q : Nat) (s : State) : State := s.colArrive q opALLREDUCE
/-- REDUCE_SCATTER (R414). -/
def effReduceScatter (q : Nat) (s : State) : State := s.colArrive q opSCATTER
/-- ALLGATHER (R414). -/
def effAllgather (q : Nat) (s : State) : State := s.colArrive q opGATHER
/-- BROADCAST (R414). -/
def effBroadcast (q : Nat) (s : State) : State := s.colArrive q opBROADCAST
/-- BARRIER (R414, R423). -/
def effBarrier (q : Nat) (s : State) : State := s.colArrive q opBARRIER

/-- Does the engine of a command of an instance run (R509, R537)? -/
def State.engineUp (s : State) (x : ColInst) : Bool := x.cmds.any (fun c => s.dieUp c.q)

/-- COLLECTIVE_LAUNCH (R421): the commands of an instance whose tick has come launch. -/
def effCollectiveLaunch (group seq : Nat) (s : State) : State :=
  match s.inst group seq with
  | none => s
  | some x => if !s.engineUp x then s else ((x.cmds.filter (fun m => !m.launched)).foldl (fun t m => t.colLaunch group seq m.rank) s).colStep group seq

/-! ## Messages received -/

/-- The fields of a subheader (R418). -/
structure ColSub where
  group : Nat
  kind : Nat
  lo : Nat
  hi : Nat
  seq : Nat
  seg : Nat
  tcrc : Nat

def ColSub.of (u : Nat) : ColSub :=
  { group := bitsN u 127 122, kind := bitsN u 121 118, lo := bitsN u 117 102, hi := bitsN u 101 86, seq := bitsN u 85 54,
    seg := bitsN u 53 26, tcrc := bitsN u 25 2 }

/-- A message of a kind taken: `f` changes the instance, which then goes on. A table that differs is a mismatch (R417); a
group that has failed takes nothing, nor does an instance that has completed here (log entry 19), and a package without a valid ID answers with a NAK (R24). -/
def State.colTake (s : State) (p : Nat) (m : FabMsg) (kind : Nat) (f : State → ColInst → ColSub → State) : State :=
  let h := ColSub.of (m.units.headD 0)
  if m.typ ≠ mCOL || h.kind ≠ kind || (p < 32 && !s.portUp p) then s
  else
    let s1 := s.takeIn p m
    if !s.idValid then s1.sendPort p (nakOf s.ownId nNOID m)
    else if s1.coll.failed.contains h.group || s1.colEnded h.group h.seq then s1
    else
      let s2 := s1.needInst h.group h.seq
      match s2.inst h.group h.seq with
      | none => s2
      | some x =>
        let tbl := s2.instTable x
        if tbl ≠ [] && tableCrc tbl % 2 ^ 24 ≠ h.tcrc && kind ≠ kFAIL then s2.colFail x fMISMATCH true
        else (f s2 x h).colStep h.group h.seq

/-- COL_DATA (R415, R418): a child's value. -/
def effColData (port : Nat) (m : FabMsg) (s : State) : State :=
  s.colTake port m kDATA (fun t x h =>
    let v : ColVal := ⟨h.lo, h.hi, h.seg, unitBytes (m.units.drop 1)⟩
    t.setInst { x with vals := x.vals ++ [v] })

/-- COL_RESULT (R418): a result segment. -/
def effColResult (port : Nat) (m : FabMsg) (s : State) : State :=
  s.colTake port m kRESULT (fun t x h =>
    let v : ColVal := ⟨h.lo, h.hi, h.seg, unitBytes (m.units.drop 1)⟩
    t.setInst { x with inbound := x.inbound ++ [v] })

/-- COL_GATHER (R418): a gathered block. -/
def effColGather (port : Nat) (m : FabMsg) (s : State) : State :=
  s.colTake port m kGATHER (fun t x h =>
    let v : ColVal := ⟨h.lo, h.hi, h.seg, unitBytes (m.units.drop 1)⟩
    t.setInst { x with inbound := x.inbound ++ [v] })

/-- COL_ARRIVE (R423). -/
def effColArrive (port : Nat) (m : FabMsg) (s : State) : State :=
  s.colTake port m kARRIVE (fun t x h =>
    let v : ColVal := ⟨h.lo, h.hi, 0, []⟩
    t.setInst { x with vals := x.vals ++ [v] })

/-- COL_RELEASE (R423): the release tick is known, and goes to the dies that the commands name. -/
def effColRelease (port : Nat) (m : FabMsg) (s : State) : State :=
  s.colTake port m kRELEASE (fun t x _ =>
    if x.release.isSome then t
    else
      let tick := m.units.getD 1 0
      let x1 := { x with release := some tick }
      (t.setInst x1).barrierOut x1 tick)

/-- COL_FAIL (R420): the instance stops, and its commands fail with the code. -/
def effColFail (port : Nat) (m : FabMsg) (s : State) : State :=
  s.colTake port m kFAIL (fun t x _ => t.colFail x (m.units.getD 1 0 % 8) false)

/-- COLLECTIVE_TIMEOUT (R420): not complete within TIMEOUT_MS of its launch here. -/
def effCollectiveTimeout (group seq : Nat) (s : State) : State :=
  match s.inst group seq with
  | some x => if s.engineUp x && x.cmds.any (fun m => m.launched) then s.colFail x fTIMEOUT true else s
  | none => s

/-- Has a rank every byte of its DST (R419)? -/
def ColInst.rankDone (x : ColInst) (n : Nat) (c : ColCmd) : Bool :=
  c.launched &&
  (if c.op = opBARRIER then x.release.isSome
   else if c.op = opREDUCE && c.rank ≠ c.root then true
   else decide (c.got.length = (if c.op = opGATHER then n * c.segs else c.segs)))

/-- INSTANCE_COMPLETE (R419): every rank here is done and nothing is left to send; entries complete and tokens are added. -/
def effInstanceComplete (group seq : Nat) (s : State) : State :=
  let s0 := s.colStep group seq
  match s0.inst group seq with
  | none => s0
  | some x =>
    let tbl := s0.instTable x
    if !s0.engineUp x || !x.cmds.all (x.rankDone tbl.length) || (x.messages s0.ownId tbl).length ≠ 0 then s0
    else
      let qs := (x.cmds.map (fun (c : ColCmd) => c.q)).dedup
      let t0 := (s0.dropInst group seq).updColl (fun c => { c with ended := mapSet c.ended group seq })
      let s1 := { t0 with queueEnds := s0.queueEnds ++ x.cmds.map (fun (c : ColCmd) => (c.queue, none)) }
      let s2 := (qs.foldl (fun (t : State) q => t.finc q COL_CNT.DONE_CNT) s1).pmuEvent (qs.headD 4) 0x20D (x.combined s0.ownId tbl)
      x.cmds.foldl (fun t c => if c.op = opBARRIER then t else t.colToken c) s2

/-- RELEASE_TICK_APPLY (R423): the die's tick count has reached a release. -/
def effReleaseTickApply (die : Nat) (s : State) : State :=
  let due := fun (r : Nat × Nat × Nat) => decide (r.1 = die) && decide (r.2.2 ≤ s.tickCount die)
  if !s.dieUp die then s
  else
    (s.coll.releases.filter due).foldl (fun t r => t.tokenAdd die r.2.1 1)
      (s.updColl (fun c => { c with releases := c.releases.filter (fun r => !due r) }))

/-- FLOOR_EXPIRY (R425): the floor has been held for FLOOR_MS. -/
def effFloorExpiry (group seq : Nat) (s : State) : State :=
  match s.inst group seq with
  | some x => s.setInst { x with floor := false }
  | none => s

/-- Is the collective floor held (R425)? -/
def State.floorHeld (s : State) : Bool := s.coll.insts.any (fun i => i.floor)

/-! ## The commands of this file: each one's effect, committed -/

/-- COL_GROUP_VALID (R412). -/
def execColGroupValid (q group ranks : Nat) (s : State) : Host.Outcome State Fault Refusal :=
  s.commit (effColGroupValid q group ranks s)

/-- REDUCE (R414). -/
def execReduce (q : Nat) (s : State) : Host.Outcome State Fault Refusal :=
  s.commit (effReduce q s)

/-- ALLREDUCE (R414). -/
def execAllreduce (q : Nat) (s : State) : Host.Outcome State Fault Refusal :=
  s.commit (effAllreduce q s)

/-- REDUCE_SCATTER (R414). -/
def execReduceScatter (q : Nat) (s : State) : Host.Outcome State Fault Refusal :=
  s.commit (effReduceScatter q s)

/-- ALLGATHER (R414). -/
def execAllgather (q : Nat) (s : State) : Host.Outcome State Fault Refusal :=
  s.commit (effAllgather q s)

/-- BROADCAST (R414). -/
def execBroadcast (q : Nat) (s : State) : Host.Outcome State Fault Refusal :=
  s.commit (effBroadcast q s)

/-- BARRIER (R423). -/
def execBarrier (q : Nat) (s : State) : Host.Outcome State Fault Refusal :=
  s.commit (effBarrier q s)

/-- COLLECTIVE_LAUNCH (R421). -/
def execCollectiveLaunch (group seq : Nat) (s : State) : Host.Outcome State Fault Refusal :=
  s.commit (effCollectiveLaunch group seq s)

/-- COL_DATA (R418). -/
def execColData (port : Nat) (m : FabMsg) (s : State) : Host.Outcome State Fault Refusal :=
  s.commit (effColData port m s)

/-- COL_RESULT (R418). -/
def execColResult (port : Nat) (m : FabMsg) (s : State) : Host.Outcome State Fault Refusal :=
  s.commit (effColResult port m s)

/-- COL_GATHER (R418). -/
def execColGather (port : Nat) (m : FabMsg) (s : State) : Host.Outcome State Fault Refusal :=
  s.commit (effColGather port m s)

/-- COL_ARRIVE (R423). -/
def execColArrive (port : Nat) (m : FabMsg) (s : State) : Host.Outcome State Fault Refusal :=
  s.commit (effColArrive port m s)

/-- COL_RELEASE (R423). -/
def execColRelease (port : Nat) (m : FabMsg) (s : State) : Host.Outcome State Fault Refusal :=
  s.commit (effColRelease port m s)

/-- COL_FAIL (R420). -/
def execColFail (port : Nat) (m : FabMsg) (s : State) : Host.Outcome State Fault Refusal :=
  s.commit (effColFail port m s)

/-- COLLECTIVE_TIMEOUT (R420). -/
def execCollectiveTimeout (group seq : Nat) (s : State) : Host.Outcome State Fault Refusal :=
  s.commit (effCollectiveTimeout group seq s)

/-- INSTANCE_COMPLETE (R419). -/
def execInstanceComplete (group seq : Nat) (s : State) : Host.Outcome State Fault Refusal :=
  s.commit (effInstanceComplete group seq s)

/-- RELEASE_TICK_APPLY (R423). -/
def execReleaseTickApply (die : Nat) (s : State) : Host.Outcome State Fault Refusal :=
  s.commit (effReleaseTickApply die s)

/-- FLOOR_EXPIRY (R425). -/
def execFloorExpiry (group seq : Nat) (s : State) : Host.Outcome State Fault Refusal :=
  s.commit (effFloorExpiry group seq s)

end Sys2Proof.Machine
end

