-- ==== Sys2Proof/Machine/Host.lean ====
section
/-!
DEFINITION. Host ports and companion sites (chapter 16): CXL.mem, snoops of the host, DPORT apertures, P2P, link loss and
recovery, violations, and admission of companions.
-/
namespace Sys2Proof.Machine

/-! ## Exposure (R436, R441) -/

/-- The ports by number. -/
def isPort (q : Nat) : Bool := q < 2

/-- The port that exposes a local address (R436). -/
def State.exposedBy (s : State) (a : Nat) : Option Nat :=
  [0, 1].find? (fun q => (s.hostPort q).hdm.any (fun d => d.2.1 ≤ a && a < d.2.1 + d.2.2))

/-- Does a port's link carry requests of the host? -/
def State.linkUp (s : State) (q : Nat) : Bool :=
  isPort q && s.dieUp (4 + q) && s.hpu q HPU_STATUS.LINK = 2 && !s.fbit (4 + q) HPU_STATUS.RESETTING

/-- May a decoder cover a DPA range: stack, Shelf direct window and tidal range only (R441)? -/
def dpaOk (base size : Nat) : Bool :=
  let inside := fun (lo hi : Nat) => decide (lo ≤ base) && decide (base + size ≤ hi)
  size ≠ 0 && (inside 0 0x18000000000 || inside 0x20000000000 0x38000000000)

/-- HDM_COMMIT (R436, R441): a decoder of a port commits, or its error bit sets. -/
def effHdmCommit (port dec base size : Nat) (s : State) : State :=
  if !isPort port || 4 ≤ dec || !s.dieUp (4 + port) then s
  else
    let clash := (s.hostPort (1 - port)).hdm.any (fun d => base < d.2.1 + d.2.2 && d.2.1 < base + size)
    if dpaOk base size && !clash then
      s.updHost port (fun p =>
        { p with hdm := p.hdm.filter (fun d => d.1 ≠ dec) ++ [(dec, base, size)], hdmErr := p.hdmErr.filter (· ≠ dec) })
    else
      s.updHost port (fun p =>
        { p with hdm := p.hdm.filter (fun d => d.1 ≠ dec), hdmErr := p.hdmErr.filter (· ≠ dec) ++ [dec] })

/-! ## Link loss (R447) -/

/-- The host lines under a port's window. -/
def State.portLines (s : State) (q : Nat) : List (Nat × HostLine) :=
  s.hostLines.filter (fun l => match regionOf (l.1 * 64) with | .host p _ => decide (p = q) | _ => false)

def onPort (q line : Nat) : Bool :=
  match regionOf (line * 64) with
  | .host p _ => decide (p = q)
  | _ => false

/-- One host line taken from every holder of the package, its dirty data discarded; true where any was (R447). A companion that holds it is
snooped. -/
def State.loseHostLine (s : State) (line : Nat) : State × Bool :=
  let dirtyHere :=
    match mapFind s.hostLines line with
    | some h => h.dirty
    | none => false
  let agents := List.range 6
  let dirty := dirtyHere || agents.any (fun a =>
    (match s.held a line with
     | some l => decide (l.st = .m)
     | none => false) || (mapFind (s.cache a).wb line).isSome)
  let s1 := agents.foldl (fun t a => if (t.held a line).isSome then (t.setHeld a line none).dropL1 a line else t) s
  let s2 := ((agentsOf (entryOf s line).sharers).filter (fun a => !isCacheAgent a)).foldl (fun t a => t.emit (.snoop a line true)) s1
  (((({ s2 with hostLines := mapErase s2.hostLines line }).loseResv line (fun _ => true)).setDir line false 0), dirty)

/-- Answers on their way for a port's lines are discarded with the lines they grant, and their requests wait at the proxy
again. -/
def State.unanswer (s : State) (q : Nat) : State :=
  let isDat := fun (m : Msg) => onPort q m.line &&
    (m.kind = .datS || m.kind = .datE || m.kind = .datNc || m.kind = .grantE)
  let again := (s.net.filter isDat).map (fun m =>
    { mkMsg (if m.kind = .datS then .rdS else if m.kind = .datNc then .rdNc else .rdE) m.agent m.line with tag := m.tag })
  { s with net := s.net.filter (fun m => !isDat m), waitq := s.waitq ++ again }

/-- The items whose host write by a port is not acknowledged (R447): a transfer, atomic or write that has not ended, or a
completion record, that goes to the port's window. -/
def State.uncertainBy (s : State) (q : Nat) (r : JRec) : Bool :=
  let dmaHere := s.dmas.any (fun d =>
    d.pos < d.len && onPort q ((d.dst + d.pos) / 64) &&
    (match d.who with
     | .queue n => decide (n = r.queue)
     | .stream die _ _ => decide (r.die = some die)))
  match r.phase with
  | .running => dmaHere || (r.opcode = 4 && onPort q (r.num 0x20 8 / 64) && r.parts ≠ 0)
  | .done | .ended | .drain => onPort q ((s.queue r.queue).ctx.cpl / 64)
  | _ => false

/-- The items whose atomic or write-back to a port's host memory is lost (R448). -/
def State.lostBy (s : State) (q : Nat) (r : JRec) : Bool :=
  match r.phase, r.die with
  | .running, some die =>
    s.mshrs.any (fun m => m.agent = die + 2 && m.op = .ratom && onPort q m.line) ||
    (s.portLines q).any (fun l =>
      match s.held (die + 2) l.1 with
      | some c => decide (c.st = .m)
      | none => false) ||
    s.hostWbs.any (fun w => w.1 = die + 2 && onPort q w.2)
  | _, _ => false

/-- UNCERTAIN and PENDING follow the marked items (R455). -/
def State.hpuMarks (s : State) (q : Nat) : State :=
  let n := (s.hq.journal.filter (fun r => r.uncertain && (s.carryPort r.queue = q || onPort q (r.num 0x28 8 / 64)))).length
  let s1 := s.fset (4 + q) HPU_LOSS.UNCERTAIN (min n 0xFFFF)
  if n = 0 then s1.fset (4 + q) HPU_LOSS.PENDING 0 else s1

/-- What a link loss does at the home proxy and the homes (R447, steps 3 and 4). -/
def State.dropHost (s : State) (q : Nat) : State :=
  -- requests in service wait again
  let mine := s.txns.filter (fun t => onPort q t.1)
  let s1 : State := { s with
    txns := s.txns.filter (fun (t : Nat × Txn) => !onPort q t.1),
    waitq := s.waitq.filter (fun (m : Msg) => !(onPort q m.line && m.agent = engAgent)) ++
      ((mine.map (fun (t : Nat × Txn) => t.2.req)).filter (fun (m : Msg) => m.agent ≠ engAgent)) }
  let s2 := s1.unanswer q
  let lines := (s2.portLines q).map (·.1) ++ ((s2.dir.filter (fun (e : Nat × DirEnt) => onPort q e.1)).map (fun (e : Nat × DirEnt) => e.1))
  let (s3, n) := lines.dedup.foldl (fun (acc : State × Nat) l =>
    let r := acc.1.loseHostLine l
    (r.1, acc.2 + b2n r.2)) (s2, 0)
  -- write-backs on their way to the host are discarded, and acknowledged to their senders
  let back := s3.hostWbs.filter (fun w => onPort q w.2)
  let s4 := back.foldl (fun t w => t.send (mkMsg .wback w.1 w.2)) { s3 with hostWbs := s3.hostWbs.filter (fun w => !onPort q w.2) }
  let s5 := s4.fadd (4 + q) HPU_CNT.HOST_DIRTY_LOST n
  -- bit 6 leaves the entries of the lines that the port exposes
  let named := s5.dir.filter (fun e => s5.exposedBy (e.1 * 64) = some q && bitOf e.2.sharers 6)
  let s6 := named.foldl (fun t e => t.dropSharer e.1 6) s5
  let waits := s6.txns.filter (fun t => s6.exposedBy (t.1 * 64) = some q && t.2.snoops.contains 6)
  let s7 := waits.foldl (fun t e => t.recvRsp .rspI 6 e.1) s6
  s7.fadd (4 + q) HPU_CNT.BI_DROP_CNT named.length

/-- A link loss (R447): 0 DL_Down, 1 Detect, 2 Hot Reset, 3 Link Disable, 4 PERST#, 5 Function Level Reset, 6 violation
reset. -/
def State.linkLoss (s : State) (q cause : Nat) : State :=
  let d := 4 + q
  let mark := fun (r : JRec) => { r with uncertain := r.uncertain || s.uncertainBy q r, lost := r.lost || s.lostBy q r }
  let s0 : State := { s with hq := { s.hq with journal := s.hq.journal.map mark } }
  let s1 := (s0.fsets d [(HPU_STATUS.LINK, 0), (HPU_STATUS.RESETTING, 1), (HPU_STATUS.BME, 0), (HPU_STATUS.MEM_EN, 0),
    (HPU_STATUS.CACHE_EN, 0), (HPU_STATUS.WIDTH, 0), (HPU_STATUS.SPEED, 0)]).finc d HPU_LOSS.LOSS_CNT
  let s2 := s1.updHost q (fun p =>
    { p with downAt := some s.now,
             pba := if cause = 2 || cause = 4 || cause = 5 then [] else p.pba })
  let s3 := s2.dropHost q
  let marked := s3.hq.journal.any (fun r => r.uncertain)
  (s3.hpuMarks q).fset d HPU_LOSS.PENDING (b2n marked)

/-- HOST_LINK_LOSS (R447). -/
def effHostLinkLoss (port cause : Nat) (s : State) : State :=
  if isPort port && s.dieUp (4 + port) && s.hpu port HPU_STATUS.LINK ≠ 0 then s.linkLoss port cause else s

/-! ## Violations (R449) -/

/-- A violation by the host. -/
def State.hostViol (s : State) (q code a : Nat) : State :=
  let d := 4 + q
  let s1 := (s.finc d HPU_CNT.VIOL_CNT).logErr d 2 0x11 0 code a
  let s2 := if s1.fbit d HPU_ERR.VALID then s1
    else s1.fsets d [(HPU_ERR.VALID, 1), (HPU_ERR.CODE, code), (HPU_ERR.ADDR, a % 2 ^ 44)]
  let n := (s2.hostPort q).viol + 1
  let s3 := s2.updHost q (fun p => { p with viol := n, violAt := some (p.violAt.getD s.now) })
  if n < 64 then s3
  else ((s3.updHost q (fun p => { p with viol := 0, violAt := none })).finc d HPU_CNT.LINKRESET_CNT).linkLoss q 6

def SiteLink.reset : SiteLink := { viol := 0, violAt := none, hot := false, side := [], ended := false }

def State.site (s : State) (i : Nat) : SiteLink := mapGet SiteLink.reset s.sites i

def State.updSite (s : State) (i : Nat) (f : SiteLink → SiteLink) : State :=
  { s with sites := mapSet s.sites i (f (s.site i)) }

/-- The configuration code's state of a site (R3). -/
def cfgState (i : Nat) : FieldRef := if i = 0 then PKG_CFGCODE.CS0_STATE else PKG_CFGCODE.CS1_STATE

/-- A companion's level in PKG_REVLEVEL, 0 while its site is not admitted (R26). -/
def csLevel (i : Nat) : FieldRef := if i = 0 then PKG_REVLEVEL.CS0 else PKG_REVLEVEL.CS1

/-- Admission starts (R451): a site that the configuration code does not allow is not trained or is held capped. -/
def State.admitSite (s0 : State) (i : Nat) : State :=
  let s := s0.fset shDie (csLevel i) 0
  let d := 4 + i
  let fused := s.fbit shDie PKG_CFGCODE.FUSED
  let st := s.fget shDie (cfgState i)
  if fused && st = 0 then s
  else if fused && st ≠ 1 then s.fsets d [(UCI_STATUS.STATE, 5), (UCI_STATUS.RESULT, 9)]
  else s.fsets d [(UCI_STATUS.STATE, 1), (UCI_STATUS.RESULT, 0), (UCI_STATUS.MODULES, 0), (UCI_STATUS.RATE, 0),
    (UCI_STATUS.LEVEL, 0), (UCI_CTRL.ADMIT, 1)]

/-- A violation by a companion: the 64th of a window trains the site again. -/
def State.siteViol (s : State) (i code a : Nat) : State :=
  let d := 4 + i
  let s1 := (s.finc d UCI_CNT.VIOL_CNT).logErr d 2 0x12 i code a
  let s2 := if s1.fbit d UCI_ERR.VALID then s1
    else s1.fsets d [(UCI_ERR.VALID, 1), (UCI_ERR.CODE, code), (UCI_ERR.ADDR, a % 2 ^ 44)]
  let n := (s2.site i).viol + 1
  let s3 := s2.updSite i (fun p => { p with viol := n, violAt := some (p.violAt.getD s.now) })
  if n < 64 then s3
  else ((s3.updSite i (fun p => { p with viol := 0, violAt := none })).finc d UCI_CNT.LINKRESET_CNT).admitSite i

/-- VIOLATION_WINDOW_END (R390, R449): of a Breakwater port 0–31, of host port 32 or 33, of site 34 or 35. -/
def effViolationWindowEnd (port : Nat) (s : State) : State :=
  if port < 32 then portWindowEnd port s
  else if port < 34 then s.updHost (port - 32) (fun p => { p with viol := 0, violAt := none })
  else if port < 36 then s.updSite (port - 34) (fun p => { p with viol := 0, violAt := none })
  else s

/-! ## CXL.mem and snoops (R439, R441) -/

/-- A CXL.mem request of the host is refused: violation 0x3, poisoned MemData for a read, Cmp for a write. -/
def State.memRefused (s : State) (q line : Nat) (write : Bool) : State :=
  (s.hostViol q 0x3 (line * 64)).emit
    (.hostDone q (if write then 1 else 3) (line * 64) (if write then [] else List.replicate 64 0))

/-- Is a line homed on a Q-die that is lost (R537)? -/
def State.lostHome (s : State) (line : Nat) : Bool :=
  let d := (s.homeOf line).die
  isQ d && mapGet 0 s.dieMode d = 3 && s.homeOf line ≠ .none

/-- May a port ask its package for a line: CXL.mem enabled, the line exposed by the port and populated (R436, R441)? -/
def State.memOk (s : State) (q line : Nat) : Bool :=
  s.fbit (4 + q) HPU_STATUS.MEM_EN && s.exposedBy (line * 64) = some q && s.homeOf line ≠ .none

/-- MEM_RD (R286, R441): 0 RD_S, 1 RD_E, 2 RD_NC. -/
def effMemRd (port line snp : Nat) (s : State) : State :=
  if !s.linkUp port then s
  else if !s.memOk port line then s.memRefused port line false
  else if s.lostHome line then s.emit (.hostDone port 3 (line * 64) (List.replicate 64 0))
  else s.recvReq (s.withClass homeTable (mkMsg (if snp = 0 then .rdS else if snp = 1 then .rdE else .rdNc) 6 line))

/-- MEM_WR (R286, R441): a write-back of a line the host holds, which it keeps shared or not; or, where it holds none, an
invalidating write of the masked bytes. -/
def effMemWr (port line : Nat) (data : List Byte) (mask : Nat) (poison keepS : Bool) (s : State) : State :=
  let d := (data ++ List.replicate 64 (0 : Byte)).take 64
  if !s.linkUp port then s
  else if !s.memOk port line then s.memRefused port line true
  else if s.lostHome line then s.emit (.hostDone port 1 (line * 64) [])
  else if bitOf (entryOf s line).sharers 6 && mask % 2 ^ 64 = fullLine then
    if s.dieUp (s.homeOf line).die then
      s.recvWb { mkMsg .wb 6 line with data := d, mask := fullLine, poison := poison, keepS := keepS }
    else s
  else s.recvReq (s.withClass homeTable { mkMsg .wrInv 6 line with data := d, mask := mask % 2 ^ 64, poison := poison })

/-- A host snoop of a line that the proxy holds: every holder, or the owner, is snooped, and the host is answered with the
data of any write-back (R439). While a companion that may own the line has still to answer, the snoop waits, and is sent again (log entry 27). -/
def State.h2d (s : State) (q line : Nat) (inv : Bool) : State :=
  match s.homeOf line, mapFind s.hostLines line with
  | .proxy p, some h0 =>
    let as := engSnoops (entryOf s line) inv noAgent
    if p ≠ q then s.hostViol q 0x1 (line * 64)
    else if h0.owned && !as.all isCacheAgent then s.engRecall inv line
    else
      let s1 := (as.filter (fun a => !isCacheAgent a)).foldl (fun t a => t.emit (.snoop a line inv)) s
      let s2 := as.foldl (fun t a => t.snoopNow a line inv) s1
      (match mapFind s2.hostLines line with
       | none => s2.emit (.h2d q line none)
       | some h =>
         let dat := if h.dirty then some h.data else none
         if h.leaving then s2.emit (.h2d q line dat)
         else if inv then
           (({ s2 with hostLines := mapErase s2.hostLines line }).loseResv line (fun _ => true)).emit (.h2d q line dat)
         else
           ({ s2 with hostLines := mapSet s2.hostLines line { h with owned := false, dirty := false } }).emit (.h2d q line dat))
  | _, _ => s.emit (.h2d q line none)

/-- H2D_SNP_INV (R439). -/
def effH2dSnpInv (port line : Nat) (s : State) : State := if s.linkUp port then s.h2d port line true else s

/-- H2D_SNP_DATA (R439). -/
def effH2dSnpData (port line : Nat) (s : State) : State := if s.linkUp port then s.h2d port line false else s

/-- H2D_SNP_CUR (R439). -/
def effH2dSnpCur (port line : Nat) (s : State) : State := if s.linkUp port then s.h2d port line false else s

/-- The answer of a CXL.io read reaches its requester (R444). -/
def State.ioAnswer (s : State) (r : IoRead) (a : Option (List Byte)) : State :=
  let drop := { s with ios := s.ios.filter (fun x => x ≠ r) }
  match r.who, a with
  | .engine, _ => { s with ios := s.ios.map (fun x => if x = r then { x with answer := some a } else x) }
  | .drain _, _ => s
  | .hart h own mask, some d => drop.emit (.data (.hart h) r.addr (mergeMask (d.take r.len) own mask) false)
  | .hart h _ _, none => drop.hartTrap h 5 r.addr
  | .other g, some d => drop.emit (.data g r.addr d false)
  | .other g, none => drop.emit (.refused g r.addr)

/-- A line on its way to the host has its GO: its bytes go, the proxy holds it no more, and its write-backs are answered (R438). -/
def State.goLeaving (s : State) (line : Nat) (h : HostLine) : State :=
  let backs := s.hostWbs.filter (fun w => w.2 = line)
  let s1 := ({ s with
    hostLines := mapErase s.hostLines line,
    hostWbs := s.hostWbs.filter (fun w => w.2 ≠ line) }).emit (.hostData line h.data fullLine)
  (backs.foldl (fun u w => u.send (mkMsg .wback w.1 w.2)) s1).wake

/-- A request of the proxy is answered by the host: the proxy holds the line, and the transaction goes on (R438). -/
def State.goFilled (s : State) (line : Nat) (hl : HostLine) (t : Txn) : State :=
  (({ s with
    hostLines := mapSet s.hostLines line hl,
    txns := mapSet s.txns line { t with hostWait := false } }).advance line).wake

/-- HOST_GO (R438): GO for a line on its way to the host, data or permission that a request of the proxy waits for, or the
data of a CXL.io read; any other answer is violation 0x1. -/
def effHostGo (port addr : Nat) (data : List Byte) (poison : Bool) (s : State) : State :=
  if !s.linkUp port then s
  else
    let line := addr / 64
    let d := (data ++ List.replicate 64 (0 : Byte)).take 64
    let fresh : Option State :=
      match mapFind s.hostLines line, mapFind s.txns line with
      | some h, t =>
        if h.leaving then some (s.goLeaving line h)
        else
          (match t with
           | some t =>
             if !t.hostWait then none
             else some (s.goFilled line
               { h with owned := h.owned || s.wantsOwn t, lent := h.lent && !(s.hostOp t).2 } t)
           | none => none)
      | none, some t =>
        if !t.hostWait then none
        else some (s.goFilled line
          { data := d, poison := poison, owned := s.wantsOwn t, dirty := false, lent := !(s.hostOp t).2, leaving := false } t)
      | none, none => none
    match fresh with
    | some t => t
    | none =>
      match s.ios.find? (fun r => r.port = port && r.addr = addr && r.answer = none && r.len ≠ 0) with
      | some r => s.ioAnswer r (some ((data ++ List.replicate r.len (0 : Byte)).take r.len))
      | none => s.hostViol port 0x1 addr

/-- BIRSP (R286): the host's answer to a back-invalidate, as RSP_I or RSP_S. -/
def effBirsp (port line : Nat) (keepS : Bool) (s : State) : State :=
  if !s.linkUp port then s
  else
    let waits : Bool :=
      match mapFind s.txns line with
      | some t => t.snoops.contains 6
      | none => false
    if waits && s.exposedBy (line * 64) = some port then s.recvRsp (if keepS then .rspS else .rspI) 6 line
    else s.hostViol port 0x1 (line * 64)

/-! ## Data port (R442, R443) -/

def dportRef (ap : Nat) (f : FieldRef) : FieldRef := { f with off := f.off + 16 * ap }

/-- The bytes of a DPORT access lie wholly in one populated target range (R442). -/
def State.dportOk (s : State) (a n : Nat) : Bool :=
  s.populated a n &&
  (match regionOf a with
   | .stack .. | .shelf _ | .tidal _ => true
   | .slab die core _ => !s.isFenced die core
   | _ => false)

/-- One TLP performed: none while a line it needs is not ready. -/
def State.dportDo (s : State) (q : Nat) (t : DportTlp) : Option State × State :=
  let d := 4 + q
  let adr := fun ap => s.fget d (dportRef ap HPU_DPORT_ADDR.ADDR) * 4
  let step := fun (u : State) (ap n : Nat) (ok : Bool) =>
    let u1 := u.fset d (dportRef ap HPU_DPORT_ADDR.ADDR) ((adr ap + n) / 4 % 2 ^ 42)
    if ok then u1.fset d (dportRef ap HPU_DPORT_STATUS.BYTES) ((u1.fget d (dportRef ap HPU_DPORT_STATUS.BYTES) + n) % 2 ^ 48)
    else u1.fset d (dportRef ap HPU_DPORT_STATUS.ERR) 1
  match t with
  | .setAddr ap a => (some ((s.fset d (dportRef ap HPU_DPORT_ADDR.ADDR) (a / 4)).fset d (dportRef ap HPU_DPORT_STATUS.BYTES) 0), s)
  | .status ap =>
    (some (s.emit (.hostDone q 0 (0x108 + 16 * ap) (leBytes 8 (s.rd d 0x150 (0x108 + 16 * ap)).toNat))), s)
  | .write ap dat =>
    if !s.dportOk (adr ap) dat.length then (some ((step s ap dat.length false).emit (.hostDone q 2 (adr ap) [])), s)
    else
      (match s.anyWrite engHome (adr ap) dat false with
       | none => (some ((step s ap dat.length false).emit (.hostDone q 2 (adr ap) [])), s)
       | some (false, u) => (none, u)
       | some (true, u) => (some (step u ap dat.length true), s))
  | .read ap n =>
    if !s.dportOk (adr ap) n then (some ((step s ap n false).emit (.hostDone q 2 (adr ap) [])), s)
    else
      (match s.anyRead engHome (adr ap) n with
       | (.got bs p, u) => (some ((step u ap n true).emit (.hostDone q (if p then 3 else 0) (adr ap) bs)), s)
       | (.wait, u) => (none, u)
       | (_, u) => (some ((step u ap n false).emit (.hostDone q 2 (adr ap) [])), s))

/-- TLPs that wait are performed in arrival order as far as they can be. -/
def State.dportRun (s : State) (q : Nat) : Nat → State
  | 0 => s
  | k + 1 =>
    match (s.hostPort q).tlps with
    | [] => s
    | t :: rest =>
      match s.dportDo q t with
      | (some u, _) => (u.updHost q (fun p => { p with tlps := rest })).dportRun q k
      | (none, u) => u

/-- A TLP arrives. -/
def State.dport (s : State) (q : Nat) (t : DportTlp) : State :=
  let s1 := s.updHost q (fun p => { p with tlps := p.tlps ++ [t] })
  s1.dportRun q (s1.hostPort q).tlps.length

/-- The MSI-X table and the pending-bit array in BAR2 (R437), as the model lays them out by PCIe: 16 B an entry, and bit n
of the array for vector n. -/
def msixDefault : Nat := 2 ^ 96

def State.msixEntry (s : State) (q v : Nat) : Nat := mapGet msixDefault (s.hostPort q).msix v

/-- DPORT_WRITE (R437, R442): a memory write TLP to BAR2. One that reaches no aperture waits for those before it, and is sent again. -/
def effDportWrite (port off : Nat) (data : List Byte) (s : State) : State :=
  if !s.linkUp port then s
  else if off + data.length ≤ 0x400000 && off / 2 ^ 20 = (off + data.length - 1) / 2 ^ 20 then s.dport port (.write (off / 2 ^ 20) data)
  else if (s.hostPort port).tlps ≠ [] then s
  else if 0x400000 ≤ off && off + data.length ≤ 0x408000 && off / 16 = (off + data.length - 1) / 16 then
    let v := (off - 0x400000) / 16
    let e := leNat (putBytes (leBytes 16 (s.msixEntry port v)) (off % 16) data)
    s.updHost port (fun p => { p with msix := mapSet p.msix v e })
  else (s.hostViol port 0x4 off).emit (.hostDone port 2 off [])

/-- DPORT_READ (R437, R442): a memory read TLP to BAR2; as for a write. -/
def effDportRead (port off len : Nat) (s : State) : State :=
  if !s.linkUp port then s
  else if off + len ≤ 0x400000 && off / 2 ^ 20 = (off + len - 1) / 2 ^ 20 then s.dport port (.read (off / 2 ^ 20) len)
  else if (s.hostPort port).tlps ≠ [] then s
  else if 0x400000 ≤ off && off + len ≤ 0x408000 && off / 16 = (off + len - 1) / 16 then
    s.emit (.hostDone port 0 off (((leBytes 16 (s.msixEntry port ((off - 0x400000) / 16))).drop (off % 16)).take len))
  else if 0x480000 ≤ off && off + len ≤ 0x480100 then
    let bytes := (List.range len).map (fun i =>
      BitVec.ofNat 8 ((List.range 8).foldl (fun acc b =>
        if (s.hostPort port).pba.contains (8 * (off - 0x480000 + i) + b) then acc + 2 ^ b else acc) 0))
    s.emit (.hostDone port 0 off bytes)
  else (s.hostViol port 0x4 off).emit (.hostDone port 2 off [])

/-- DPORT_STATUS_READ (R443). -/
def effDportStatusRead (port ap : Nat) (s : State) : State :=
  if s.linkUp port && ap < 4 then s.dport port (.status ap) else s

/-! ## P2P (R444) -/

/-- P2P_REQUEST (R444): a package request to a P2P window travels as CXL.io: a posted write, or a read that is awaited. -/
def effP2pRequest (agent : Agent) (addr len : Nat) (write : Bool) (data : List Byte) (s : State) : State :=
  match regionOf addr with
  | .host q _ =>
    if (s.p2pOf q addr).isNone then s
    else if !s.populated addr (if write then data.length else len) then s.emit (.refused agent addr)
    else if !s.ioUp q then s
    else if write then (s.emit (.hostIo q addr data.length true data)).emit (.done agent addr)
    else s.ioAsk q (match agent with | .hart h => let o := s.ownBytes h addr len; .hart h o.1 o.2 | .engine => .engine | a => .other a) addr len
  | _ => s

/-- P2P_TIMEOUT (R444): a CXL.io read that fails, with no completion in 50 ms or with Unsupported Request or completer abort,
is home unavailable. -/
def effP2pTimeout (port addr : Nat) (s : State) : State :=
  match s.ios.find? (fun r => r.port = port && r.addr = addr && r.answer = none && r.len ≠ 0) with
  | some r => s.ioAnswer r none
  | none => s

/-- DRAIN_READ_COMPLETION (R445): a drain read of a queue's item completes, or times out. -/
def effDrainReadCompletion (queue : Nat) (timeout : Bool) (s : State) : State :=
  match takeFirst (fun (r : IoRead) => decide (r.who = .drain queue)) s.ios, s.frontRec queue with
  | some (_, rest), some r =>
    ({ s with ios := rest }).setRec { r with drains := r.drains - 1, late := r.late || timeout }
  | _, _ => s

/-! ## Link states (R440, R446 to R448) -/

/-- HOST_RETRAIN (R446): the link returns to L0 at a rate and width. -/
def effHostRetrain (port speed width : Nat) (s : State) : State :=
  if s.linkUp port && (speed = 1 || speed = 2) && (width = 1 || width = 2) then
    (s.fsets (4 + port) [(HPU_STATUS.SPEED, speed), (HPU_STATUS.WIDTH, width)]).finc (4 + port) HPU_LOSS.RETRAIN_CNT
  else s

/-- HPU_RESET_DONE (R447): the self-reset ends. -/
def effHpuResetDone (port : Nat) (s : State) : State :=
  if isPort port then s.fset (4 + port) HPU_STATUS.RESETTING 0 else s

/-- HOST_LINK_UP (R440): the link trains to L0 at 32 or 64 GT/s and ×8 or ×16 (R435). -/
def effHostLinkUp (port speed width : Nat) (s : State) : State :=
  if !isPort port || !s.dieUp (4 + port) || s.fbit (4 + port) HPU_STATUS.RESETTING || s.hpu port HPU_STATUS.LINK = 2 ||
     !(speed = 1 || speed = 2) || !(width = 1 || width = 2) then s
  else
    (s.fsets (4 + port) [(HPU_STATUS.LINK, 2), (HPU_STATUS.SPEED, speed), (HPU_STATUS.WIDTH, width)]).updHost port
      (fun p => { p with downAt := none })

/-- Uncertain host writes are issued again (R448). -/
def State.reissue (s : State) (port : Nat) : State :=
  let j := s.hq.journal.map (fun (r : JRec) => if r.uncertain && !r.noReissue then { r with reissued := true } else r)
  let ds := s.dmas.map (fun (x : Dma) =>
    if onPort port (x.dst / 64) && x.pos < x.len && x.pos = x.acked then { x with pos := 0, acked := 0 } else x)
  let u : State := { s with hq := { s.hq with journal := j }, dmas := ds }
  u.fset (4 + port) HPU_LOSS.DISCARD 0

/-- HOST_ENABLE (R440, R448): the host's Bus Master Enable, CXL.mem and CXL.cache enables. With both BME and CXL.cache the
port enters service; requests that waited go on, and uncertain host writes are issued again. -/
def effHostEnable (port : Nat) (bme mem cache : Bool) (s : State) : State :=
  if !s.linkUp port then s
  else
    let d := 4 + port
    let s1 := s.fsets d [(HPU_STATUS.BME, b2n bme), (HPU_STATUS.MEM_EN, b2n mem), (HPU_STATUS.CACHE_EN, b2n cache)]
    let s2 := if bme && cache then s1.fset d HPU_STATUS.IN_SERVICE 1 else s1
    let s3 := if !bme then s2 else s2.reissue port
    s3.wake

/-- The requests held toward a port fail with home unavailable (R440). -/
def State.failHeld (s : State) (q : Nat) : State :=
  let mine := s.waitq.filter (fun m => onPort q m.line)
  let keys := (mine.map (fun m => (m.agent, m.line))).dedup
  keys.foldl (fun t k => t.unavailable (.line k.1 k.2)) s

/-- PORT_OUT_OF_SERVICE (R440): the link has been down for 40 ms; what was held fails, and the window follows R220. -/
def effPortOutOfService (port : Nat) (s : State) : State :=
  if !isPort port || s.hpu port HPU_STATUS.LINK = 2 || !s.fbit (4 + port) HPU_STATUS.IN_SERVICE then s
  else (s.failHeld port).fset (4 + port) HPU_STATUS.IN_SERVICE 0

/-- Nothing uncertain on a port is issued again (R448). -/
def State.dropUncertain (s : State) (port : Nat) : State :=
  let drop := fun (r : JRec) => r.uncertain && (s.carryPort r.queue = port || onPort port (r.num 0x28 8 / 64))
  let qs := (s.hq.journal.filter drop).map (·.queue)
  let j := s.hq.journal.map (fun (r : JRec) => if drop r then { r with noReissue := true } else r)
  let ds := s.dmas.map (fun (x : Dma) =>
    match x.who with
    | .queue n => if qs.contains n && onPort port (x.dst / 64) then { x with pos := x.len, acked := x.len } else x
    | _ => x)
  { s with hq := { s.hq with journal := j }, dmas := ds }

/-- HPU_LOSS_DISCARD (R448, R455): nothing uncertain is issued again. -/
def effHpuLossDiscard (port : Nat) (s : State) : State :=
  if !isPort port || s.hpu port HPU_LOSS.UNCERTAIN = 0 || s.fbit (4 + port) HPU_STATUS.BME then s
  else
    (s.dropUncertain port).fset (4 + port) HPU_LOSS.DISCARD 1

/-! ## Companion sites (R451, R452) -/

/-- A site that fails admission is capped, and the failure is recorded (R4, R451). Fusing follows (R451, step 4). -/
def State.admitEnd (s : State) (i result : Nat) : State :=
  let d := 4 + i
  let s1 := s.fsets d [(UCI_STATUS.STATE, if result = 0 then 4 else 5), (UCI_STATUS.RESULT, result), (UCI_CTRL.ADMIT, 0)]
  let s2 := if result = 0 then s1 else (s1.fset d UCI_STATUS.MODULES 0).fixedCause 0x84 (256 * i + result)
  let s3 := s2.updSite i (fun p => { p with ended := true })
  let s4 :=
    if s3.fbit shDie PKG_CFGCODE.FUSED then s3
    else
      let v := if result = 0 then 1 else if result = 1 then 0 else 2
      let t := s3.fset shDie (cfgState i) v
      if (t.site 0).ended && (t.site 1).ended then t.fset shDie PKG_CFGCODE.FUSED 1 else t
  let lvl := if result = 0 then s4.fget d UCI_STATUS.LEVEL else 0
  s4.fset shDie (csLevel i) lvl

/-- COMPANION_ADMISSION (R451, step 1): admission starts; a partner that answers trains with its modules (a mask), rate and
protocol. -/
def linkAdmission (site modules rate : Nat) (cxl present : Bool) (s : State) : State :=
  let d := 4 + site
  if 2 ≤ site || !s.dieUp d then s
  else
    let st := s.fget d UCI_STATUS.STATE
    let s1 := if st = 0 || st = 5 then s.admitSite site else s
    if s1.fget d UCI_STATUS.STATE ≠ 1 || !present then s1
    else
      let s2 := s1.fsets d [(UCI_STATUS.MODULES, modules % 16), (UCI_STATUS.RATE, rate), (UCI_STATUS.PROTO, b2n cxl)]
      if modules % 16 = 15 && 1 ≤ rate && rate ≤ 3 then s2.fset d UCI_STATUS.STATE 2 else s2.admitEnd site 2

/-- Do two windows of a descriptor overlap? -/
def winClash (a b : Nat × Nat) : Bool := a.1 < b.1 + b.2 && b.1 < a.1 + a.2

/-- The checks of a descriptor (R452) in the order of the RESULT codes. -/
def descResult (b : List Byte) : Nat :=
  let f := dNum b
  let wins := (List.range 4).map (fun i => (f (0x20 + 16 * i) 8, f (0x28 + 16 * i) 8))
  let used := wins.filter (fun w => w.2 ≠ 0)
  let badWin := used.any (fun w => w.1 % 2 ^ 21 ≠ 0 || w.2 % 2 ^ 21 ≠ 0 || 2 ^ 39 < w.1 + w.2) ||
    used.zipIdx.any (fun x => used.zipIdx.any (fun y => decide (x.2 < y.2) && winClash x.1 y.1))
  if f 0 4 ≠ 0x44435342 || f 4 2 ≠ 1 || crc32 ((b.take 0xFC).map BitVec.toNat) ≠ f 0xFC 4 then 4
  else if 60000 < f 0x18 4 || f 0x1D 1 ≤ f 0x1C 1 || 125 < f 0x1D 1 then 5
  else if badWin then 6
  else if f 6 1 = 0 || 1 < f 7 1 then 7
  else 0

/-- DESCRIPTOR_RECEIVED (R451, steps 2 to 4; R452). -/
def linkDescriptor (site : Nat) (bytes : List Byte) (s : State) : State :=
  let d := 4 + site
  if 2 ≤ site || !s.dieUp d || s.fget d UCI_STATUS.STATE ≠ 2 then s
  else
    let b := (bytes ++ List.replicate 256 (0 : Byte)).take 256
    let s1 := foldN 32 (fun t n => t.wr d 0x160 (0x100 + 8 * n) (BitVec.ofNat 64 (dNum b (8 * n) 8))) s
    let s2 := s1.fset d UCI_STATUS.LEVEL (dNum b 6 1)
    let r := descResult b
    if r ≠ 0 then s2.admitEnd site r
    else if s2.fbit d UCI_CTRL.MEASURE then
      let (nonce, s3) := s2.free
      s3.admitEnd site (if Config.siteMeasured nonce b then 0 else 8)
    else s2.admitEnd site 0

/-- ADMISSION_TIMEOUT (R451): no partner within 100 ms, or no descriptor within 10 ms. -/
def linkTimeout (site : Nat) (s : State) : State :=
  let st := s.fget (4 + site) UCI_STATUS.STATE
  if 2 ≤ site then s
  else if st = 1 then s.admitEnd site 1
  else if st = 2 then s.admitEnd site 3
  else s

/-- A register access on a sideband ends: the agent receives the value, or a hart's store is performed (R308, R453). -/
def State.sideEnd (s : State) (g : Agent) (a : Nat) (w : Bool) (v : Word) : State :=
  if !w then s.emit (.regData g v)
  else match g with
  | .hart h =>
    match (s.hart h).stores.find? (fun e => e.sent && e.addr = a) with
    | some e => s.storeDone h e.id
    | none => s.emit (.done g a)
  | _ => s.emit (.done g a)

/-- SIDEBAND_TIMEOUT (R453): a companion register access with no answer reads as unoccupied (R9). -/
def effSidebandTimeout (site : Nat) (s : State) : State :=
  match (s.site site).side with
  | [] => s
  | (g, a, w) :: rest =>
    (s.updSite site (fun p => { p with side := rest })).sideEnd g a w 0

/-! ## The commands of this file: each one's effect, committed -/

/-- VIOLATION_WINDOW_END (R390). -/
def execViolationWindowEnd (port : Nat) (s : State) : Host.Outcome State Fault Refusal :=
  s.commit (effViolationWindowEnd port s)

/-- MEM_RD (R441). -/
def execMemRd (port line snp : Nat) (s : State) : Host.Outcome State Fault Refusal :=
  s.commit (effMemRd port line snp s)

/-- MEM_WR (R441). -/
def execMemWr (port line : Nat) (data : List Byte) (mask : Nat) (poison keepS : Bool) (s : State) :
    Host.Outcome State Fault Refusal :=
  s.commit (effMemWr port line data mask poison keepS s)

/-- H2D_SNP_INV (R439). -/
def execH2dSnpInv (port line : Nat) (s : State) : Host.Outcome State Fault Refusal :=
  s.commit (effH2dSnpInv port line s)

/-- H2D_SNP_DATA (R439). -/
def execH2dSnpData (port line : Nat) (s : State) : Host.Outcome State Fault Refusal :=
  s.commit (effH2dSnpData port line s)

/-- H2D_SNP_CUR (R439). -/
def execH2dSnpCur (port line : Nat) (s : State) : Host.Outcome State Fault Refusal :=
  s.commit (effH2dSnpCur port line s)

/-- HOST_GO (R438). -/
def execHostGo (port addr : Nat) (data : List Byte) (poison : Bool) (s : State) : Host.Outcome State Fault Refusal :=
  s.commit (effHostGo port addr data poison s)

/-- BIRSP (R286). -/
def execBirsp (port line : Nat) (keepS : Bool) (s : State) : Host.Outcome State Fault Refusal :=
  s.commit (effBirsp port line keepS s)

/-- HDM_COMMIT (R436). -/
def execHdmCommit (port dec base size : Nat) (s : State) : Host.Outcome State Fault Refusal :=
  s.commit (effHdmCommit port dec base size s)

/-- DPORT_WRITE (R442). -/
def execDportWrite (port off : Nat) (data : List Byte) (s : State) : Host.Outcome State Fault Refusal :=
  s.commit (effDportWrite port off data s)

/-- DPORT_READ (R442). -/
def execDportRead (port off len : Nat) (s : State) : Host.Outcome State Fault Refusal :=
  s.commit (effDportRead port off len s)

/-- DPORT_STATUS_READ (R443). -/
def execDportStatusRead (port ap : Nat) (s : State) : Host.Outcome State Fault Refusal :=
  s.commit (effDportStatusRead port ap s)

/-- P2P_REQUEST (R444). -/
def execP2pRequest (agent : Agent) (addr len : Nat) (write : Bool) (data : List Byte) (s : State) :
    Host.Outcome State Fault Refusal :=
  s.commit (effP2pRequest agent addr len write data s)

/-- P2P_TIMEOUT (R444). -/
def execP2pTimeout (port addr : Nat) (s : State) : Host.Outcome State Fault Refusal :=
  s.commit (effP2pTimeout port addr s)

/-- DRAIN_READ_COMPLETION (R445). -/
def execDrainReadCompletion (queue : Nat) (timeout : Bool) (s : State) : Host.Outcome State Fault Refusal :=
  s.commit (effDrainReadCompletion queue timeout s)

/-- HOST_RETRAIN (R446). -/
def execHostRetrain (port speed width : Nat) (s : State) : Host.Outcome State Fault Refusal :=
  s.commit (effHostRetrain port speed width s)

/-- HOST_LINK_LOSS (R447). -/
def execHostLinkLoss (port cause : Nat) (s : State) : Host.Outcome State Fault Refusal :=
  s.commit (effHostLinkLoss port cause s)

/-- HPU_RESET_DONE (R447). -/
def execHpuResetDone (port : Nat) (s : State) : Host.Outcome State Fault Refusal :=
  s.commit (effHpuResetDone port s)

/-- HOST_ENABLE (R440). -/
def execHostEnable (port : Nat) (bme mem cache : Bool) (s : State) : Host.Outcome State Fault Refusal :=
  s.commit (effHostEnable port bme mem cache s)

/-- PORT_OUT_OF_SERVICE (R440). -/
def execPortOutOfService (port : Nat) (s : State) : Host.Outcome State Fault Refusal :=
  s.commit (effPortOutOfService port s)

/-- HPU_LOSS_DISCARD (R448). -/
def execHpuLossDiscard (port : Nat) (s : State) : Host.Outcome State Fault Refusal :=
  s.commit (effHpuLossDiscard port s)

/-- SIDEBAND_TIMEOUT (R453). -/
def execSidebandTimeout (site : Nat) (s : State) : Host.Outcome State Fault Refusal :=
  s.commit (effSidebandTimeout site s)

/-- HOST_LINK_UP (R440). -/
def execHostLinkUp (port speed width : Nat) (s : State) : Host.Outcome State Fault Refusal :=
  s.commit (effHostLinkUp port speed width s)

end Sys2Proof.Machine
end

