-- ==== Sys2Proof/Machine/Queues.lean ====
section
/-!
DEFINITION. Harbour queues (chapter 17): contexts and doorbells, acceptance, running entries, commit and discard,
completion and notification.
-/
namespace Sys2Proof.Machine

/-! ## Classes, engines -/

/-- May a queue's rings and accept pointer lie at an address: the classes of R466? -/
def queueClass (a : Nat) : Bool :=
  match regionOf a with
  | .stack .. | .shelf _ | .tidal _ | .host .. => true
  | _ => false

/-- Does the engine of a queue run: ENABLE reads 1, with both regions configured, on a die that runs (R471)? -/
def State.hqRuns (s : State) (q : Nat) : Bool :=
  q < 4096 && s.dieUp (s.queueDie q) && s.fbit (homeQ q) HQ_CTRL.ENABLE && s.fbit (homeQ q) HQ_JRNL.VALID &&
  s.fbit (homeQ q) HQ_JMIR.VALID

/-- Records of a Q-die's journal (R486). -/
def State.hqRecords (s : State) (h : Nat) : Nat := min 32768 (s.fget h HQ_JRNL.RECORDS)

/-- The lowest record number that is free in the journal of a Q-die's queues; none where it is full (R473). -/
def State.freeRec (s : State) (h : Nat) : Option Nat :=
  let used := (s.hq.journal.filter (fun r => homeQ r.queue = h)).map (fun r => r.jid % 32768)
  (List.range (s.hqRecords h)).find? (fun r => !used.contains r)

/-- FREE of HQ_STATUS (R490). -/
def State.hqFree (s : State) (h : Nat) : Nat :=
  s.hqRecords h - (s.hq.journal.filter (fun r => homeQ r.queue = h)).length

/-- A queue stops (R467, R478, R492). -/
def State.stopQueue (s : State) (q stop code : Nat) : State :=
  (s.updQueue q (fun x => { x with st := 2, stop := stop, fetched := [] })).hqErr (s.queueDie q) code q

/-! ## Contexts (R466, R488) -/

/-- A context as it stands in memory. -/
def QCtx.of (b : List Byte) : QCtx :=
  let f := dNum b
  { ring := f 0 8, cpl := f 8 8, accept := f 0x10 8, log2 := f 0x18 1, account := f 0x19 1, meter := f 0x1A 1,
    flags := f 0x1B 1, pasid := f 0x1C 4, notify := f 0x20 8 }

/-- The checks of R466 on a context's fields. -/
def ctxOk (b : List Byte) : Bool :=
  let c := QCtx.of b
  dNum b 0x28 8 = 0 && dNum b 0x30 8 = 0 && dNum b 0x38 8 = 0 && c.flags / 8 = 0 && c.pasid / 2 ^ 20 % 2 ^ 11 = 0 &&
  c.notify / 2 ^ 24 % 2 ^ 37 = 0 && 4 ≤ c.log2 && c.log2 ≤ 16 && c.ring % 4096 = 0 && c.cpl % 4096 = 0 && c.accept % 8 = 0 &&
  queueClass c.ring && queueClass c.cpl && queueClass c.accept

/-- HQ_QCMD as a command takes it: ignored while another command runs; the same command goes on. -/
def State.qcmd (s : State) (die op loc : Nat) (f : State → State) : State :=
  let busy := s.fbit die HQ_QCMD.BUSY
  if !isQ die || !s.dieUp die || 2048 ≤ loc then s
  else if busy && !(s.fget die HQ_QCMD.OP = op && s.fget die HQ_QCMD.QUEUE = loc) then s
  else f (s.fsets die [(HQ_QCMD.BUSY, 1), (HQ_QCMD.RESULT, 0), (HQ_QCMD.OP, op), (HQ_QCMD.QUEUE, loc)])

def State.qcmdEnd (s : State) (die result : Nat) : State :=
  s.fsets die [(HQ_QCMD.BUSY, 0), (HQ_QCMD.RESULT, result)]

/-- The queue of a local index of a Q-die. -/
def queueOf (die loc : Nat) : Nat := (die - 4) * 2048 + loc

/-- HQ_ENABLE (R466, R467, R488): the context and the accept pointer are read, and the queue is enabled. -/
def effHqEnable (die loc : Nat) (s : State) : State :=
  s.qcmd die 1 loc (fun s0 =>
    let q := queueOf die loc
    let st := (s0.queue q).st
    if st = 1 || st = 3 then s0.qcmdEnd die 2
    else
      let at_ := s0.fget die HQ_CTX.BASE * 2 ^ 17 + 64 * loc
      match s0.readFrom die 0 idQueue at_ 64 with
      | (.wait, t) => t
      | (.refused, t) | (.lost, t) => t.qcmdEnd die 1
      | (.got b bad, t) =>
        if bad || !ctxOk b then t.qcmdEnd die 1
        else
          let c := QCtx.of b
          match t.readFrom die 0 idQueue c.accept 8 with
          | (.wait, u) => u
          | (.refused, u) | (.lost, u) => u.qcmdEnd die 1
          | (.got p bad2, u) =>
            if bad2 then u.qcmdEnd die 1
            else
              let held := (u.hq.journal.filter (fun r => r.queue = q && r.counted)).map (·.seq)
              let n := held.foldl max (leNat p)
              (u.updQueue q (fun _ => { st := 1, stop := 0, ctx := c, tail := n, accepted := n, ptr := leNat p, fetched := [] })).qcmdEnd
                die 0)

/-- HQ_DISABLE (R488): nothing more is accepted, and the queue drains. -/
def effHqDisable (die loc : Nat) (s : State) : State :=
  s.qcmd die 2 loc (fun s0 =>
    let q := queueOf die loc
    let st := (s0.queue q).st
    if st = 0 || st = 3 then s0.qcmdEnd die 2
    else (s0.updQueue q (fun x => { x with st := 3, fetched := [] })).qcmdEnd die 0)

/-- HQ_QUERY (R488, R489). -/
def effHqQuery (die loc : Nat) (s : State) : State :=
  s.qcmd die 3 loc (fun s0 =>
    let x := s0.queue (queueOf die loc)
    (s0.fsets die [(HQ_QSTAT.STATE, x.st), (HQ_QSTAT.STOP, x.stop), (HQ_QSTAT.ACCEPTED, x.accepted % 2 ^ 48)]).qcmdEnd die 0)

/-- QUEUE_DRAINED (R488): a draining queue has finished its accepted entries. -/
def effQueueDrained (queue : Nat) (s : State) : State :=
  if (s.queue queue).st = 3 && (s.frontRec queue).isNone then s.updQueue queue (fun x => { x with st := 0 }) else s

/-! ## Doorbells and acceptance -/

/-- DOORBELL (R467, R473, R483): the highest TAIL is kept. -/
def effDoorbell (queue : Nat) (tail : Word) (s : State) : State :=
  let x := s.queue queue
  let n := tail.toNat
  if 4096 ≤ queue || x.st ≠ 1 || !s.dieUp (s.queueDie queue) || n ≤ x.accepted then s
  else
    let s1 := if (s.freeRec (homeQ queue)).isNone then s.finc (s.queueDie queue) HQ_CNT.JRNL_FULL_CNT else s
    if x.accepted + 2 ^ x.ctx.log2 < n then s1.stopQueue queue 2 0x2
    else s1.updQueue queue (fun y => { y with tail := max y.tail n })

/-- ENTRY_FETCHED (R467): the next entry is read from the ring, and its SEQ is checked. -/
def effEntryFetched (queue : Nat) (s : State) : State :=
  let x := s.queue queue
  let n := (x.fetched.map (·.1)).foldl max x.accepted + 1
  if x.st ≠ 1 || !s.hqRuns queue || x.tail < n then s
  else
    -- the entries before one that stops the queue are accepted first
    let halt := fun (t : State) (stop : Nat) => if x.fetched = [] then t.stopQueue queue stop stop else s
    match s.readFrom (s.queueDie queue) 0 idQueue (x.ctx.ring + 256 * (n % 2 ^ x.ctx.log2)) 256 with
    | (.wait, t) => t
    | (.refused, t) | (.lost, t) => halt t 3
    | (.got b bad, t) =>
      if bad then halt t 3
      else if dNum b 8 8 ≠ n then halt t 1
      else t.updQueue queue (fun y => { y with fetched := y.fetched ++ [(n, b)] })

/-- The accept pointer written, where it lags and its line is ready (R471). -/
def State.putPointer (s : State) (q : Nat) : State :=
  let x := s.queue q
  if x.ptr = x.accepted then s
  else
    match s.writeFrom (s.queueDie q) 0 x.ctx.accept (leBytes 8 x.accepted) false with
    | some (true, t) => t.updQueue q (fun y => { y with ptr := y.accepted })
    | some (false, t) => t
    | none => s

/-- A record whose acceptance is complete (R471, R474). -/
def State.accepted (s : State) (r : JRec) : State :=
  let s1 := ((s.updRec r.jid (fun x => { x with counted := true })).finc (s.queueDie r.queue) HQ_CNT.ACCEPT_CNT).pmuEvent
    (s.queueDie r.queue) 0x20B 1
  let s2 := s1.updQueue r.queue (fun x => { x with accepted := r.seq })
  s2.fset (s2.queueDie r.queue) HQ_STATUS.PARTNER_DOWN
    (if s2.partnered r.queue then 0 else s2.fget (s2.queueDie r.queue) HQ_STATUS.PARTNER_DOWN)

/-- A record as it is made. -/
def JRec.fresh (jid q n : Nat) (b : List Byte) : JRec :=
  { jid := jid, queue := q, seq := n, entry := b, st := 1, reruns := 0, die := none, touch := [], cpl := [], counted := false,
    mirror := 0, phase := .accepted, parts := 0, bad := none, res := none, again := false, tried := [], over17 := false,
    started := [], applied := [], pkgs := [], uncertain := false, lost := false, noReissue := false, reissued := false,
    paths := [], drains := 0, late := false }

/-- A fetched entry leaves the fetched ones and is journaled in both regions (R471, R472). -/
def State.entryJournaled (s : State) (queue : Nat) (r : JRec) (rest : List (Nat × List Byte)) : State :=
  ({ s.updQueue queue (fun y => { y with fetched := rest }) with
    hq := { (s.updQueue queue (fun y => { y with fetched := rest })).hq with journal := s.hq.journal ++ [r] } } : State).jWrite r

/-- ENTRY_ACCEPT (R471 to R474): the next fetched entry is journaled in both regions, and at the partner; then the accept
pointer advances. -/
def effEntryAccept (queue : Nat) (s : State) : State :=
  let x := s.queue queue
  let h := homeQ queue
  if !s.hqRuns queue then s
  else
    match s.hq.journal.find? (fun r => r.queue = queue && !r.counted) with
    | some r =>
      -- its acceptance waits for the partner, which is asked again after a timeout
      if r.mirror ≠ 0 then s
      else if s.partnered queue && s.fbit (s.queueDie queue) HQ_STATUS.PARTNER_DOWN then s.mirrorOut r
      else (s.accepted r).putPointer queue
    | none =>
      match x.st, x.fetched, s.freeRec h with
      | 1, (n, b) :: rest, some r =>
        let jid := (h - 4) * 2 ^ 15 + r
        let s2 := s.entryJournaled queue (JRec.fresh jid queue n b) rest
        if !s2.partnered queue then (s2.accepted (JRec.fresh jid queue n b)).putPointer queue
        else if s2.fbit (s2.queueDie queue) HQ_STATUS.PARTNER_DOWN then s2.mirrorOut (JRec.fresh jid queue n b)
        else s2
      | _, _, _ => s.putPointer queue

/-- The answer of the partner to one line of a record (R474). -/
def State.mirrorAnswer (s : State) (jid : Nat) (ack : Bool) : State :=
  match s.recOf jid with
  | none => s
  | some r =>
    if !ack then s
    else
      let s1 := s.setRec { r with mirror := r.mirror - 1 }
      if r.mirror = 1 && !r.counted then (s1.accepted { r with mirror := 0 }).putPointer r.queue else s1

/-- PARTNER_TIMEOUT (R474, R391): a write to the partner is not answered in time. -/
def effPartnerTimeout (queue : Nat) (s : State) : State :=
  match s.hq.journal.find? (fun r => r.queue = queue && r.mirror ≠ 0) with
  | none => s
  | some r =>
    let d := s.queueDie queue
    let gone := fun (x : FabReq) => x.origin = .mirror r.jid
    let s1 := s.updFab (fun f => { f with reqs := f.reqs.filter (fun x => !gone x) })
    let s2 := (s1.updRec r.jid (fun x => { x with mirror := 0 })).fset d HQ_STATUS.PARTNER_DOWN 1
    (s2.hqErr d 0x5 queue).faultReport d (s2.fget (homeQ queue) HQ_PARTNER.PKG) rTIMEOUT

/-! ## Checks of an entry (R470) -/

/-- Inline bytes that an opcode admits (R469). -/
def inlineLimit (op : Nat) : Nat := if op = 1 then 120 else if op = 4 then 192 else 0

/-- Is a Glaze operation idempotent (R133)? -/
def glzIdempotent (gop : Nat) : Bool := gop = 0 || gop = 1 || gop = 6 || gop = 7

/-- The status that R470 gives an entry at its start: FORMAT, DENIED, or none. -/
def State.entryStatus (s : State) (r : JRec) : Option Nat :=
  let op := r.opcode
  let bad := 5 < op || 8 ≤ r.num 1 1 || r.mode = 3 || r.num 3 1 ≠ 0 || r.num 6 2 ≠ 0 || r.num 0x18 8 ≠ 0 ||
    inlineLimit op < r.inlineLen || !(r.scope = 2 || r.scope = 3) ||
    (op = 1 && (r.num 0x38 1 % 16 = 0 || 16 ≤ r.num 0x38 1)) ||
    (op = 2 && (7 < r.num 0x28 1 || (r.mode = 0 && !glzIdempotent (r.num 0x28 1)))) ||
    (op = 3 && 2 ^ 32 ≤ r.num 0x30 8)
  if bad then some 0x01
  else if op = 1 && (s.queue r.queue).ctx.flags / 4 % 2 = 0 then some 0x02
  else none

/-- The record whose entry may start now with an opcode (R475, R478). -/
def State.startable (s : State) (q op : Nat) : Option JRec :=
  match s.frontRec q with
  | some r =>
    if r.phase = .accepted && r.counted && r.opcode = op && s.hqRuns q && (s.queue q).stop ≠ 4 && s.written r then some r
    else none
  | none => none

/-- An entry that ends with a status. A JOURNAL entry discards its key before any status but DONE, and commits it for
DONE (R477, R479). -/
def State.endWith (s : State) (r : JRec) (status detail : Nat) : State :=
  if status = 0x01 || status = 0x02 then s.setRec { r with phase := .ended, res := some (status, detail) }
  else if r.mode = 1 then
    let base := { r with res := some (status, detail), again := false, started := [], applied := [], pkgs := r.touch }
    if status = 0 then s.jWrite { base with st := 3, phase := .commit } else s.setRec { base with phase := .discard }
  else s.setRec { r with phase := .ended, res := some (status, detail) }

/-- An entry starts: its status under R470, or its record in STATE RUNNING and its work. -/
def State.startEntry (s : State) (q op : Nat) (work : State → JRec → State) : State :=
  match s.startable q op with
  | none => s
  | some r =>
    match s.entryStatus r with
    | some st => s.endWith r st 0
    | none =>
      if r.st = 2 then work s r
      else
        let s1 := s.jWrite { r with st := 2 }
        match s1.recOf r.jid with
        | some r' => if s1.written r' then work s1 r' else s1
        | none => s1

/-! ## Engine entries -/

/-- NOP (R469). -/
def effNop (queue : Nat) (s : State) : State := s.startEntry queue 0 (fun t r => t.endWith r 0 0)

/-- A written range of a queue entry translated (R195): none while it waits for the IOMMU's tables; 0x2 where a page does not translate, 0x4
where the range is not contiguous, for it then lies in no one placed share or stripe (R191). -/
def State.translateOne (s : State) (q : Nat) (c : QCtx) (a n : Nat) : Option (Except Nat Nat) × State :=
  match s.translate (s.queueDie q) q c.pasid a (max 1 n) true with
  | (.wait, t) => (none, t)
  | (.fault, t) | (.ok [], t) => (some (.error 0x2), t)
  | (.ok (p :: ps), t) => (some (if ps.all (fun x => x.2.1 = p.2.1 + x.1) then .ok p.2.1 else .error 0x4), t)

/-- A source of a queue entry translated: its physical address, or above `glzVirt` its own with the parts it translates to (R195). -/
def State.translateSrc (s : State) (q : Nat) (c : QCtx) (a n : Nat) : Option (Except Nat (Nat × List (Nat × Nat × Nat))) × State :=
  match s.translate (s.queueDie q) q c.pasid a n false with
  | (.wait, t) => (none, t)
  | (.fault, t) => (some (.error 0x2), t)
  | (.ok [], t) => (some (.ok (a, [])), t)
  | (.ok (p :: ps), t) =>
    (some (.ok (if ps.all (fun x => x.2.1 = p.2.1 + x.1) then (p.2.1, [])
      else (glzVirt + a, (p :: ps).map (fun x => (glzVirt + a + x.1, x.2.1, x.2.2))))), t)

/-- The journal key of an entry (R477). -/
def State.entryKey (s : State) (r : JRec) : Option (Nat × Nat) := if r.mode = 1 then some (s.ownId, r.jid) else none

/-- A queue Glaze command with its addresses translated by the IOMMU, or the code of R211 of its failure, or nothing yet while the tables are
waited for (R195, R235). The rows of a gather on this package translate as it reads them; a command for another package carries the
translated base of its rows, and its sources must be contiguous, since it travels with one physical address for each (log entry 55). -/
def State.queueGlz (s0 : State) (queue : Nat) (r : JRec) : Option (Except Nat GlzCmd) × State :=
  let c := (s0.queue queue).ctx
  let gop := r.num 0x28 1
  let desc := (r.entry.drop 0x40).take 64
  let sh := glzShape gop desc
  let sp := glzSpans gop desc
  let g0 : GlzCmd :=
    { src := .queue queue, gop := gop, aop := 0, target := 0, srcA := gSrcA desc, srcB := gSrcB desc, srcC := gSrcC desc,
      desc := desc, operand := 0, compare := 0, key := s0.entryKey r, stroke := 0, ready := false, writes := [], old := 0,
      remote := [], have_ := [], asked := [], port := 0, early := 0, dev := some (s0.queueDie queue, queue, c.pasid) }
  match s0.translateOne queue c (r.num 0x20 8) (glzLen gop 0 desc) with
  | (none, s1) => (none, s1)
  | (some (.error e), s1) => (some (.error e), s1)
  | (some (.ok tg), s1) =>
    let far := decide (2 ^ 44 ≤ tg)
    let one := fun (t : State) (used written : Bool) (a n : Nat) =>
      if !used || n = 0 then ((some (.ok (a, [])) : Option (Except Nat (Nat × List (Nat × Nat × Nat)))), t)
      else if written then
        (match t.translateOne queue c a n with
         | (some (.ok x), u) => (some (.ok (x, [])), u)
         | (some (.error e), u) => (some (.error e), u)
         | (none, u) => (none, u))
      else
        (match t.translateSrc queue c a n with
         | (some (.ok (x, ps)), u) => (some (if far && ps ≠ [] then .error 0x2 else .ok (x, ps)), u)
         | x => x)
    let (a, s2) := one s1 (sh.srcs.getD 0 false) (gop = 4) (gSrcA desc) sp.1
    let (b, s3) := if gop = 6 && !far then (some (.ok (glzVirt + gSrcB desc, [])), s2)
      else one s2 (sh.srcs.getD 1 false) (gop = 4) (gSrcB desc) (if gop = 6 then 1 else sp.2.1)
    let (d, s4) := one s3 (sh.srcs.getD 2 false) (gop = 6) (gSrcC desc) sp.2.2
    match a, b, d with
    | some (.ok a), some (.ok b), some (.ok d) =>
      (some (.ok { g0 with target := tg, srcA := a.1, srcB := b.1, srcC := d.1, parts := a.2 ++ b.2 ++ d.2 }), s4)
    | some (.error e), _, _ | _, some (.error e), _ | _, _, some (.error e) => (some (.error e), s4)
    | _, _, _ => (none, s4)

/-- GLAZE (R195, R469, R476): a queue Glaze command, translated by the IOMMU; translation failures fail it with WINDOW. -/
def effGlaze (queue : Nat) (s : State) : State :=
  s.startEntry queue 2 (fun s0 r =>
    match s0.queueGlz queue r with
    | (none, s1) => s1
    | (some (.error e), s1) => s1.endWith r 0x05 e
    | (some (.ok g), s1) =>
      let tg := g.target
      let run := s1.setRec { r with phase := .running, parts := 1 }
      if 2 ^ 44 ≤ tg then
        let dst := run.dstOf (tg / 2 ^ 44)
        if !run.idValid then run.endWith r 0x05 0x3
        else if run.candidates dst = [] then run.endWith r 0x05 0xB
        else
          (match if g.key.isSome then run.touchPkg r.jid dst else (run, true) with
           | (t, true) => t.fabAsk (t.queueDie queue) (.queueGlz queue) (t.glzMsg (agQueue queue) dst g)
           | (t, false) => t.endWith { r with over17 := true } 0x0B 0)
      else
        (match regionOf tg with
         | .stack .. =>
           if run.placeOfAddr tg = .nowhere then run.endWith r 0x05 0x3
           else if run.wayCut (run.unitWay (run.queueDie queue) 0 tg) then
             (run.countWay (run.unitWay (run.queueDie queue) 0 tg)).endWith r 0x05 0xB
           else run.toUnit (run.queueDie queue) 0 0 g
         | _ => run.endWith r 0x05 0x3))

/-- Two translated ranges cut where either breaks: source, destination and length of each part. -/
def pairParts (src dst : List (Nat × Nat × Nat)) (n : Nat) : List (Nat × Nat × Nat) :=
  let cuts := ((src.map (·.1)) ++ (dst.map (·.1))).foldl (fun (acc : List Nat) x => if acc.contains x then acc else acc ++ [x]) []
  let at_ := fun (l : List (Nat × Nat × Nat)) (o : Nat) =>
    (l.find? (fun p => p.1 ≤ o && o < p.1 + p.2.2)).map (fun p => p.2.1 + (o - p.1))
  cuts.filterMap (fun o =>
    let next := (cuts.filter (fun x => o < x)).foldl min n
    match at_ src o, at_ dst o with
    | some a, some b => some (a, b, next - o)
    | _, _ => none)

/-- QUEUE_DMA (R235, R386, R469): a copy, put or get, translated page by page. -/
def effQueueDma (queue : Nat) (s : State) : State :=
  s.startEntry queue 3 (fun s0 r =>
    let c := (s0.queue queue).ctx
    let q := s0.queueDie queue
    let n := r.num 0x30 8
    match s0.translate q queue c.pasid (r.num 0x20 8) n false with
    | (.wait, t) => t
    | (.fault, t) => t.endWith r 0x06 0x1
    | (.ok a, t) =>
    match t.translate q queue c.pasid (r.num 0x28 8) n true with
    | (.wait, t) => t
    | (.fault, t) => t.endWith r 0x06 0x1
    | (.ok b, s0) =>
      let parts := if n = 0 then [] else pairParts a b n
      let far := fun (x : Nat) => decide (2 ^ 44 ≤ x)
      if parts = [] then s0.endWith r 0 0
      else if parts.any (fun p => far p.1 || far p.2.1) && !s0.idValid then s0.endWith r 0x06 0x6
      else
        let s1 := s0.setRec { r with phase := .running, parts := parts.length }
        parts.foldl (fun t p => (t.notePath (t.recOf r.jid) p.2.1 p.2.2).dmaStart (.queue queue) p.1 p.2.1 p.2.2) s1)

/-- A part of a WRITE cut at 64 B lines: offset, address, length. -/
def linePieces (off a n : Nat) : List (Nat × Nat × Nat) :=
  (linesOf a n).map (fun l =>
    let lo := max a (l * 64)
    let hi := min (a + n) (l * 64 + 64)
    (off + (lo - a), lo, hi - lo))

/-- The pieces of an inline write at addresses of this package; whether one waits, and whether one is refused. Every piece must be
ready before the write is done (R476). -/
def State.inlineHere (s : State) (r : JRec) (bs : List Byte) (here : List (Nat × Nat × Nat)) : State × Bool × Bool :=
  here.foldl (fun (acc : State × Bool × Bool) p =>
    match acc.1.writeFrom (acc.1.queueDie r.queue) 0 p.2.1 ((bs.drop p.1).take p.2.2) false with
    | none => (acc.1, acc.2.1, true)
    | some (true, t) => (t.notePath (t.recOf r.jid) p.2.1 p.2.2, acc.2.1, acc.2.2)
    | some (false, t) => (t, true, acc.2.2)) (s, false, false)

/-- WRITE (R469, R476): the inline bytes written as invalidating writes. -/
def effWrite (queue : Nat) (s : State) : State :=
  s.startEntry queue 4 (fun s0 r =>
    let c := (s0.queue queue).ctx
    let q := s0.queueDie queue
    let bs := (r.entry.drop 0x40).take r.inlineLen
    match s0.translate q queue c.pasid (r.num 0x20 8) bs.length true with
    | (.wait, t) => t
    | (.fault, t) => t.endWith r 0x06 0x1
    | (.ok parts, s0) =>
      let ps := parts.flatMap (fun p => linePieces p.1 p.2.1 p.2.2)
      let here := ps.filter (fun p => p.2.1 < 2 ^ 44)
      let far := ps.filter (fun p => 2 ^ 44 ≤ p.2.1)
      if far ≠ [] && !s0.idValid then s0.endWith r 0x06 0x6
      else
        let (s1, waits, bad) := s0.inlineHere r bs here
        if bad then s1.endWith r 0x06 0x6
        else if waits then s1
        else
          let r1 := (s1.recOf r.jid).getD r
          if far = [] then s1.endWith r1 0 0
          else
            far.foldl (fun t p => t.fabAsk q (.queueWr queue)
              (wrMsg (agQueue queue) (t.dstOf (p.2.1 / 2 ^ 44)) (p.2.1 % 2 ^ 44) ((bs.drop p.1).take p.2.2)))
              (s1.setRec { r1 with phase := .running, parts := far.length }))

/-- The collective command of an entry (R413). -/
def State.entryCol (s : State) (r : JRec) : ColCmd :=
  let f := dNum ((r.entry.drop 0x40).take 64)
  { q := s.queueDie r.queue, queue := r.queue, pasid := (s.queue r.queue).ctx.pasid, op := f 0 1, fmt := f 1 1, red := f 2 1,
    group := f 3 1, rank := f 4 2, root := f 6 2, seq := f 8 4, count := f 0xC 4, src := f 0x10 8, dst := f 0x18 8,
    tick := f 0x20 8, scope := f 0x28 1, token := f 0x29 1,
    reserved := f 0x2A 8 ≠ 0 || f 0x32 8 ≠ 0 || f 0x3A 6 ≠ 0, launched := false, data := [], got := [] }

/-- COLLECTIVE (R413, R469): the command goes to the collective engine. -/
def effCollective (queue : Nat) (s : State) : State :=
  s.startEntry queue 5 (fun s0 r =>
    (s0.setRec { r with phase := .running, parts := 1 }).updColl (fun x => { x with coming := x.coming ++ [s0.entryCol r] }))

/-! ## RUN (R475, R476) -/

/-- Is a C-die available for a RUN (R475)? -/
def State.dieFree (s : State) (die : Nat) : Bool :=
  let st := s.seqState die
  s.dieUp die && (st = seqIDLE || st = seqREADY || st = seqSTOPPED) && (s.dieRec die).isNone

/-- The dies of DIE_MASK that a RUN may still try. -/
def JRec.mask (r : JRec) : List Nat := (List.range 4).filter (fun d => r.num 0x38 1 / 2 ^ d % 2 = 1 && !r.tried.contains d)

/-- The die of a RUN: the lowest of its mask that is free, unless a lower queue waits for it (R475). -/
def State.pickDie (s : State) (r : JRec) : Option Nat :=
  match r.mask.find? (fun d => s.dieFree d) with
  | none => none
  | some d =>
    let ahead := s.hq.journal.any (fun x =>
      x.queue < r.queue && x.phase = .accepted && x.counted && x.opcode = 1 && x.mask.contains d &&
      (s.frontRec x.queue).map (·.jid) = some x.jid && (s.queue x.queue).stop ≠ 4 && s.hqRuns x.queue &&
      (s.entryStatus x).isNone)
    if ahead then none else some d

/-- The window table written from a window image (R105, R469). -/
def State.putWindows (s : State) (die : Nat) (b : List Byte) : State :=
  foldN 64 (fun t w =>
    let f := fun o => dNum b (32 * w + o) 8
    (((t.wr die 0 (0x1000 + 32 * w) (BitVec.ofNat 64 (f 0 % 2 ^ 44))).wr die 0 (0x1008 + 32 * w)
      (BitVec.ofNat 64 (f 8 % 2 ^ 45))).wr die 0 (0x1010 + 32 * w) (BitVec.ofNat 64 (f 16 % 2 ^ 56))).wr die 0 (0x1018 + 32 * w)
      (BitVec.ofNat 64 (f 24 / 2 ^ 63 * 2 ^ 63 + f 24 % 8))) s

/-- The image of a RUN is on a die already (R476, step 3). -/
def State.sameImage (s : State) (die base : Nat) : Bool :=
  match (s.td die).image with
  | some im => decide (im.base = base) && (s.seqState die = seqREADY || s.seqState die = seqSTOPPED)
  | none => false

/-- A die cannot load the image after folding: the other dies of the mask are tried, and with none left the entry ends with
LOAD (R480). Any other load failure ends it at once. -/
def State.loadFails (s : State) (r : JRec) (die code : Nat) : State :=
  if code ≠ 4 then s.endWith r 0x08 code
  else
    let r1 := { r with tried := r.tried ++ [die] }
    if r1.mask = [] then s.endWith r1 0x08 code else s.setRec r1

/-- Steps 4 to 7 of R476. -/
def State.runOn (s : State) (r : JRec) (die : Nat) : State :=
  let n := r.inlineLen
  let bs := (r.entry.drop 0x88).take n
  match s.writeFrom (s.queueDie r.queue) 0 (r.num 0x30 8) bs false with
  | none => s.endWith r 0x06 0x6
  | some (false, t) => t
  | some (true, t) =>
    let t0 := t.notePath (t.recOf r.jid) (r.num 0x30 8) n
    let t1 := foldN 8 (fun u i => u.wr die 0 (0x080 + 8 * i) (BitVec.ofNat 64 (r.num (0x40 + 8 * i) 8))) t0
    let t2 := (t1.fset die SEQ_TICKBASE.TICKBASE (r.num 0x80 8)).fsets die
      [(GLZ_JOURNAL.ACTIVE, b2n (r.mode = 1)), (GLZ_JOURNAL.JID, if r.mode = 1 then r.jid else t1.fget die GLZ_JOURNAL.JID)]
    let t3 := effSeqStart die (t2.updTd die (fun x => { x with results := [] }))
    let r1 := (t3.recOf r.jid).getD r
    if t3.running die then t3.jWrite { r1 with phase := .running, die := some die, parts := 1 }
    else t3.loadFails r1 die (t3.fget die SEQ_LOAD_RESULT.CODE)

/-- RUN (R469, R475, R476). -/
def effRun (queue : Nat) (s : State) : State :=
  s.startEntry queue 1 (fun s0 r =>
    match s0.pickDie r with
    | none => s0
    | some die =>
      match s0.readFrom (s0.queueDie queue) 0 idQueue (r.num 0x28 8) 2048 with
      | (.wait, t) => t
      | (.refused, t) | (.lost, t) => t.endWith r 0x08 0x6
      | (.got b bad, t) =>
        if bad then t.endWith r 0x08 0x6
        else
          let s1 := t.putWindows die b
          if s1.sameImage die (r.num 0x20 8 / 4096 * 4096) then s1.runOn r die
          else
            let s2 := s1.fset die SEQ_IMAGE_BASE.BASE (r.num 0x20 8 / 4096)
            let s3 := effImageLoadDone die (effSeqLoad die s2)
            if s3.seqState die = seqREADY then s3.runOn r die
            -- the vaults of the image are not free yet: the entry waits
            else if s3.seqState die = seqLOADING then t
            else s3.loadFails r die (s3.fget die SEQ_LOAD_RESULT.CODE))

/-! ## The end of a run (R477, R480) -/

/-- How a run ended: its status and detail, and whether R480 runs it again. -/
def State.runStatus (s : State) (r : JRec) (die : Nat) (x : RunResult) : Nat × Nat × Bool :=
  match x.cause with
  | none => (0, 0, false)
  | some .arith | some .replayLimit | some .fenced | some .dieStop => (0x09, 0, true)
  | some .aborted =>
    if r.over17 then (0x0B, 0, false) else (0x04, x.failCode, x.failCode = 0xB && x.homeOnPackage)
  | some _ => (0x03, s.fget die SEQ_FAULT.FIRST_KIND, false)

/-- What follows a run that R480 does not complete (R480). -/
def State.rerun (s : State) (r : JRec) : State :=
  if r.mode = 2 then s.endWith r 0x09 0
  else if s.fget (homeQ r.queue) HQ_CTRL.RERUN_LIMIT < r.reruns + 1 then s.endWith r 0x0A 0
  else if r.mode = 1 then
    s.setRec { r with phase := .discard, again := true, res := none, started := [], applied := [], pkgs := r.touch }
  else
    (s.jWrite { r with phase := .accepted, reruns := r.reruns + 1, tried := [], parts := 0 }).finc (s.queueDie r.queue)
      HQ_CNT.RERUN_CNT

/-- The parts of an engine entry that have ended; the first failure holds. -/
def State.takeParts (s : State) (r : JRec) : State × JRec :=
  let mine := s.queueEnds.filter (fun e => e.1 = r.queue)
  let bad := (mine.map (fun e => e.2)).foldl (fun (acc : Option Nat) e =>
    match acc with
    | some c => some c
    | none => e) r.bad
  let s1 := { s with queueEnds := s.queueEnds.filter (fun e => e.1 ≠ r.queue) }
  let r1 := { r with parts := r.parts - mine.length, bad := bad }
  (s1.setRec r1, r1)

/-- Commit or discard of a key: every C-die through GLZ_APPLY, and then every package touched (R477). -/
def State.applyKey (s : State) (r : JRec) (commit : Bool) : State :=
  let op := if commit then 1 else 2
  let own := s.ownId
  let (s1, r1) := (List.range 4).foldl (fun (acc : State × JRec) die =>
    let (t, x) := acc
    if x.applied.contains die || !t.dieUp die || t.fbit die GLZ_APPLY.BUSY then acc
    else if x.started.contains die && t.fget die GLZ_APPLY.OP = op && t.fget die GLZ_APPLY.PKG = own &&
        t.fget die GLZ_APPLY.JID = x.jid then (t, { x with applied := x.applied ++ [die] })
    else (t.applyStart die op own x.jid, { x with started := x.started ++ [die] })) (s, r)
  let s2 := s1.setRec r1
  if r1.applied.length < 4 then s2
  else r1.pkgs.foldl (fun t pkg =>
    if t.fab.reqs.any (fun q => q.origin = .queueKey r.queue pkg) then t
    else t.fabAsk (t.queueDie r.queue) (.queueKey r.queue pkg)
      { typ := mGLZ, hops := 0, dst := pkg, src := 0, tag := 0, agent := agQueue r.queue,
        aux := (if commit then 0xC else 0xD) + r.jid * 16, addr := 0, units := [0, 0, 0, 0] }) s2

/-- A discard may start only once all four C-dies are up (R480). -/
def State.allC (s : State) : Bool := (List.range 4).all (fun d => s.dieUp d)

/-- Is a transfer that of a queue? -/
def Dma.ofQueue (d : Dma) (queue : Nat) : Bool := match d.who with | .queue x => decide (x = queue) | _ => false

/-- RUN_END (R477, R480): a run or engine entry has ended, or its commit or discard goes on. -/
def effRunEnd (queue : Nat) (s : State) : State :=
  match s.frontRec queue with
  | none => s
  | some r =>
    if !s.hqRuns queue || !s.written r then s
    else
      match r.phase with
      | .running =>
        if r.opcode = 1 then
          let die := r.die.getD 0
          (match (s.td die).results with
           | [] => s
           | x :: rest =>
             let s1 := s.updTd die (fun t => { t with results := rest })
             let (st, det, again) := s1.runStatus r die x
             if again then s1.rerun r else s1.endWith r st det)
        else
          let s0 := s.dmaAll (fun d => d.ofQueue queue)
          let (s1, r1) := s0.takeParts ((s0.recOf r.jid).getD r)
          if r1.parts ≠ 0 then s1
          else
            (match r1.bad with
             | none => s1.endWith r1 0 0
             | some c => s1.endWith r1 (if r.opcode = 2 then 0x05 else if r.opcode = 5 then 0x07 else 0x06) c)
      | .commit | .discard =>
        if r.phase = .discard && r.started = [] && !s.allC then s
        else
          let s1 := s.applyKey r (decide (r.phase = .commit))
          let r1 := (s1.recOf r.jid).getD r
          if r1.applied.length < 4 || r1.pkgs ≠ [] then s1
          else if r1.again then
            let r2 := { r1 with phase := .accepted, st := 2, reruns := r1.reruns + 1, again := false, touch := [], tried := [], parts := 0 }
            (s1.jWrite r2).finc (s1.queueDie queue) HQ_CNT.RERUN_CNT
          else s1.setRec { r1 with phase := .ended }
      | _ => s

/-- The answer of a package to a commit or discard (R477). -/
def State.keyAnswer (s : State) (queue pkg : Nat) (ack : Bool) : State :=
  match s.frontRec queue with
  | some r => if ack then s.setRec { r with pkgs := r.pkgs.filter (· ≠ pkg) } else s
  | none => s

/-! ## Completion (R478, R445) -/

/-- The completion record of an entry (R478). -/
def State.cplBytes (s : State) (r : JRec) (status detail : Nat) : List Byte :=
  leBytes 8 r.seq ++ leBytes 8 (r.num 0x10 8) ++ leBytes 1 status ++ leBytes 1 detail ++ leBytes 1 r.reruns ++
  leBytes 1 (b2n r.reissued) ++ leBytes 4 0 ++ leBytes 8 (s.tmkNs (s.queueDie r.queue))

/-- The status that a record carries after link losses and drains (R445, R448). -/
def JRec.finalStatus (r : JRec) : Nat × Nat :=
  let (st, det) := r.res.getD (0, 0)
  if st ≠ 0 then (st, det)
  else if r.lost then (0x0D, 0)
  else if r.uncertain && r.noReissue then (0x0C, 0)
  else if r.late then (0x0E, 0)
  else (0, 0)

/-- May an MSI-X vector of a port send now (R478)? -/
def State.msixOpen (s : State) (q v : Nat) : Bool :=
  s.fbit (4 + q) HPU_STATUS.IN_SERVICE && s.ioUp q && s.msixEntry q v / 2 ^ 96 % 2 = 0

/-- An MSI-X notification: sent, or held in the pending-bit array (R478). -/
def State.msixNotify (s : State) (q v : Nat) : State :=
  if s.msixOpen q v then
    s.emit (.msix q v (s.msixEntry q v % 2 ^ 64) (s.msixEntry q v / 2 ^ 64 % 2 ^ 32))
  else if (s.hostPort q).pba.contains v then s
  else s.updHost q (fun p => { p with pba := p.pba ++ [v] })

/-- MSIX_PENDING_SEND (R478). -/
def effMsixPendingSend (port vector : Nat) (s : State) : State :=
  if (s.hostPort port).pba.contains vector && s.msixOpen port vector then
    (s.updHost port (fun p => { p with pba := p.pba.filter (· ≠ vector) })).msixNotify port vector
  else s

/-- The notification of an entry (R478). -/
def State.entryNotify (s : State) (r : JRec) : State :=
  if r.num 1 1 / 4 % 2 = 0 then s
  else
    let w : Word := BitVec.ofNat 64 (s.queue r.queue).ctx.notify
    match bits w 63 62 with
    | 1 => s.msixNotify (bits w 61 61) (bits w 10 0)
    | 2 => s.sendMsi (bits w 23 18) (bits w 16 16) (bits w 7 0)
    | _ => s

/-- The drain reads of COMPLETE_ALL_PATHS are sent, one for each path (R445). -/
def State.drainReads (s : State) (r : JRec) : State :=
  let ps := r.paths
  ps.foldl (fun t p =>
    let port := p.1 % 2
    t.ioAsk port (.drain r.queue) p.2 0) (s.setRec { r with phase := .drain, drains := ps.length, paths := [] })

/-- A record in STATE DONE is written to CPL, the notification is sent, and the record is freed (R472, R478). -/
def State.writeCpl (s : State) (r : JRec) : State :=
  let x := s.queue r.queue
  let a := x.ctx.cpl + 32 * (r.seq % 2 ^ x.ctx.log2)
  if r.uncertain && !r.noReissue && !r.reissued then s
  else
    match s.writeFrom (s.queueDie r.queue) 0 a r.cpl false with
    | none => s.stopQueue r.queue 4 0x6
    | some (false, t) => t
    | some (true, t) =>
      let t1 := t.entryNotify r
      let t2 := { t1 with hq := { t1.hq with journal := t1.hq.journal.filter (fun y => y.jid ≠ r.jid) } }
      let t3 := t2.regionPut r.queue (t2.fget (homeQ r.queue) HQ_JRNL.BASE) { r with st := 0 }
      let t4 := t3.regionPut r.queue (t3.fget (homeQ r.queue) HQ_JMIR.BASE) { r with st := 0 }
      (t4.hpuMarks 0).hpuMarks 1

/-- STATE DONE with the completion record (R478, step 1), and on to CPL. -/
def State.journalDone (s : State) (r : JRec) : State :=
  let (st, det) := r.finalStatus
  let s1 := s.jWrite { r with st := 4, phase := .done, cpl := s.cplBytes r st det, res := some (st, det) }
  let s2 := if st = 0 then s1 else s1.finc (s1.queueDie r.queue) HQ_CNT.FAIL_CNT
  match s2.recOf r.jid with
  | some r' => if s2.written r' then s2.writeCpl r' else s2
  | none => s2

/-- ENTRY_COMPLETE (R478). An entry of a reserved opcode completes here with FORMAT (R470). -/
def effEntryComplete (queue : Nat) (s : State) : State :=
  match s.frontRec queue with
  | none => s
  | some r =>
    if !s.hqRuns queue || !s.written r || ((s.queue queue).stop = 4 && (s.queue queue).st = 2) then s
    else
      match r.phase with
      | .accepted =>
        if 5 < r.opcode && r.counted then s.journalDone { r with res := some (0x01, 0) } else s
      | .ended =>
        if (s.queue queue).ctx.flags % 2 = 1 && r.paths ≠ [] then s.drainReads r else s.journalDone r
      | .drain => if r.drains = 0 then s.journalDone r else s
      | .done => s.writeCpl r
      | _ => s

/-! ## Home unavailable and takeover -/

/-- Is an address out of the reach of a queue's engine (R242, R252, R256)? -/
def State.unreachable (s : State) (queue a n : Nat) : Bool :=
  n ≠ 0 && s.populated a n && (linesOf a n).any (fun l => s.addrCut (s.queueDie queue) 0 (l * 64))

/-- What the engine of a queue waits for at a stopped home fails after 40 ms (R256, R466, R467, R476, R478). -/
def State.queueUnavailable (s : State) (q : Nat) : State :=
  let x := s.queue q
  let d := homeQ q
  let s0 :=
    if s.fbit d HQ_QCMD.BUSY && s.fget d HQ_QCMD.OP = 1 && queueOf d (s.fget d HQ_QCMD.QUEUE) = q &&
       s.unreachable q (s.fget d HQ_CTX.BASE * 2 ^ 17 + 64 * (q % 2048)) 64 then s.qcmdEnd d 1
    else s
  let n := (x.fetched.map (·.1)).foldl max x.accepted + 1
  let s1 :=
    if x.st = 1 && n ≤ x.tail && s0.unreachable q (x.ctx.ring + 256 * (n % 2 ^ x.ctx.log2)) 256 then s0.stopQueue q 3 0x3 else s0
  match s1.frontRec q with
  | none => s1
  | some r =>
    match r.phase with
    | .accepted =>
      if r.opcode = 1 && r.st = 2 then
        (if s1.unreachable q (r.num 0x28 8) 2048 then s1.endWith r 0x08 0x6
         else if s1.unreachable q (r.num 0x30 8) r.inlineLen then s1.endWith r 0x06 0x2
         else s1)
      else if r.opcode = 4 && r.st = 2 then
        (match (s1.translate (s1.queueDie q) q x.ctx.pasid (r.num 0x20 8) r.inlineLen true).1 with
         | .ok ps => if ps.any (fun p => p.2.1 < 2 ^ 44 && s1.unreachable q p.2.1 p.2.2) then s1.endWith r 0x06 0x2 else s1
         | _ => s1)
      else s1
    | .running =>
      -- the oldest Glaze command of the queue that its unit, out of reach, has not ended (R256)
      if r.opcode ≠ 2 then s1
      else
        let mine := fun (c : GlzCmd) => decide (c.src = .queue q) && s1.addrCut (s1.queueDie q) 0 c.target
        if !s1.glz.any (fun e => (e.2.cmds ++ e.2.coming ++ e.2.kept).any (fun c => !c.orphan && mine c)) then s1
        else
          let gone := fun (c : GlzCmd) => if mine c then { c with orphan := true } else c
          ({ s1 with glz := s1.glz.map (fun (e : Nat × GlzUnit) =>
              (e.1, { e.2 with cmds := e.2.cmds.map gone, kept := e.2.kept.map gone,
                               coming := e.2.coming.filter (fun c => !mine c) })) }).endWith r 0x05 0xB
    | .done =>
      if s1.unreachable q (x.ctx.cpl + 32 * (r.seq % 2 ^ x.ctx.log2)) 32 then s1.stopQueue q 4 0x6 else s1
    | _ => s1

/-- REQUEST_RESEND (R256). The engine of a queue tries again what it waits for. -/
def State.heldResend (s : State) (r : HeldReq) : State :=
  match r with
  | .queue q => (effEntryComplete q (effEntryAccept q (effEntryFetched q s)))
  | _ => s.resendReq r

/-- HOME_UNAVAILABLE (R256). -/
def State.heldUnavailable (s : State) (r : HeldReq) : State :=
  match r with
  | .queue q => s.queueUnavailable q
  | _ => s.unavailable r

/-- The queues of a lost Q-die pass to the survivor (R480, R537): those whose memory was homed on the lost die stop, and
what its own engines ran is run again, interrupted, or goes on. -/
def State.takeQueues (s : State) (lost : Nat) : State :=
  let mine := fun (q : Nat) => decide (homeQ q = lost)
  let onLost := fun (a : Nat) => (s.homeOf (a / 64)).die = lost && s.homeOf (a / 64) ≠ .none
  let s1 := (s.hq.queues.filter (fun (e : Nat × Queue) => mine e.1 && (e.2.st = 1 || e.2.st = 3))).foldl (fun t (e : Nat × Queue) =>
    let c := e.2.ctx
    let ctxAt := s.fget lost HQ_CTX.BASE * 2 ^ 17 + 64 * (e.1 % 2048)
    if onLost ctxAt || onLost c.ring || onLost c.cpl || onLost c.accept then t.stopQueue e.1 3 0x3 else t) s
  let keep := fun (d : Dma) =>
    match d.who with
    | .queue q => !mine q
    | _ => true
  let s2 : State := { s1 with dmas := s1.dmas.filter keep }
  let again := fun (r : JRec) => mine r.queue && r.phase = .running && (r.opcode ≠ 1 || r.mode = 2)
  (s2.hq.journal.filter again).foldl (fun t (r : JRec) => t.rerun r) s2

/-! ## The commands of this file: each one's effect, committed -/

/-- DOORBELL (R467). -/
def execDoorbell (queue : Nat) (tail : Word) (s : State) : Host.Outcome State Fault Refusal :=
  s.commit (effDoorbell queue tail s)

/-- ENTRY_FETCHED (R467). -/
def execEntryFetched (queue : Nat) (s : State) : Host.Outcome State Fault Refusal :=
  s.commit (effEntryFetched queue s)

/-- ENTRY_ACCEPT (R471). -/
def execEntryAccept (queue : Nat) (s : State) : Host.Outcome State Fault Refusal :=
  s.commit (effEntryAccept queue s)

/-- PARTNER_TIMEOUT (R474). -/
def execPartnerTimeout (queue : Nat) (s : State) : Host.Outcome State Fault Refusal :=
  s.commit (effPartnerTimeout queue s)

/-- NOP (R469). -/
def execNop (queue : Nat) (s : State) : Host.Outcome State Fault Refusal :=
  s.commit (effNop queue s)

/-- RUN (R476). -/
def execRun (queue : Nat) (s : State) : Host.Outcome State Fault Refusal :=
  s.commit (effRun queue s)

/-- GLAZE (R469). -/
def execGlaze (queue : Nat) (s : State) : Host.Outcome State Fault Refusal :=
  s.commit (effGlaze queue s)

/-- QUEUE_DMA (R469). -/
def execQueueDma (queue : Nat) (s : State) : Host.Outcome State Fault Refusal :=
  s.commit (effQueueDma queue s)

/-- WRITE (R469). -/
def execWrite (queue : Nat) (s : State) : Host.Outcome State Fault Refusal :=
  s.commit (effWrite queue s)

/-- COLLECTIVE (R469). -/
def execCollective (queue : Nat) (s : State) : Host.Outcome State Fault Refusal :=
  s.commit (effCollective queue s)

/-- RUN_END (R480). -/
def execRunEnd (queue : Nat) (s : State) : Host.Outcome State Fault Refusal :=
  s.commit (effRunEnd queue s)

/-- ENTRY_COMPLETE (R478). -/
def execEntryComplete (queue : Nat) (s : State) : Host.Outcome State Fault Refusal :=
  s.commit (effEntryComplete queue s)

/-- MSIX_PENDING_SEND (R478). -/
def execMsixPendingSend (port vector : Nat) (s : State) : Host.Outcome State Fault Refusal :=
  s.commit (effMsixPendingSend port vector s)

/-- HQ_ENABLE (R488). -/
def execHqEnable (die loc : Nat) (s : State) : Host.Outcome State Fault Refusal :=
  s.commit (effHqEnable die loc s)

/-- HQ_DISABLE (R488). -/
def execHqDisable (die loc : Nat) (s : State) : Host.Outcome State Fault Refusal :=
  s.commit (effHqDisable die loc s)

/-- HQ_QUERY (R488). -/
def execHqQuery (die loc : Nat) (s : State) : Host.Outcome State Fault Refusal :=
  s.commit (effHqQuery die loc s)

/-- QUEUE_DRAINED (R488). -/
def execQueueDrained (queue : Nat) (s : State) : Host.Outcome State Fault Refusal :=
  s.commit (effQueueDrained queue s)

end Sys2Proof.Machine
end

