-- ==== Sys2Proof/Machine/Power.lean ====
section
/-!
DEFINITION. Power, clocks, thermal limits and events: operating points (R493 to R496), droop (R497, R498), the power cap (R499
to R503), temperature (R504 to R508), the stop and package reset (R509, R510), event arbitration (R511, R512) and energy (R513,
R514).
-/
namespace Sys2Proof.Machine

/-- A PWR_ field, or the EVT_ field of the same kind on a Q-die (chapter 18, Registers). -/
def pwr (die : Nat) (f : FieldRef) : FieldRef :=
  if isQ die then { f with blk := 0x190, off := f.off + (if f.off < 0x100 then 0x100 else 0x80) } else f

def State.updPower (s : State) (f : Power → Power) : State := { s with power := f s.power }

def State.updP (s : State) (die : Nat) (f : DiePower → DiePower) : State :=
  s.updPower (fun p => { p with dies := mapSet p.dies die (f (s.dieP die)) })

/-- The package runs: it is powered, out of reset and not stopped. -/
def State.runs (s : State) : Bool :=
  (s.power.phase = .released || s.power.phase = .started) && !s.isStopped

/-! ## Ceilings and points -/

def State.level (s : State) : Nat := s.fget shDie PKG_CAPSTAT.LEVEL

/-- The cap ceiling of a die at a throttle level (R500). -/
def capCeil (die level : Nat) : Nat :=
  if isC die then 15 - level else if 19 ≤ level then 33 - level else 15

/-- The timing ceiling (R170, R495): 1.3 GHz is point 7. -/
def State.timingCeil (s : State) (die : Nat) : Nat := if isC die && s.fbit die MFS_SPLIT.TIMING then 7 else 15

/-- The lowest ceiling of a die (R495). -/
def State.ceiling (s : State) (die : Nat) : Nat :=
  min (min (capCeil die s.level) (s.dieP die).therm) (min (s.dieP die).neigh (s.timingCeil die))

/-- The point that R495 gives. -/
def State.point (s : State) (die : Nat) : Nat := min (s.fget die (pwr die PWR_POINT.REQ)) (s.ceiling die)

/-- CEIL and the flags of the ceilings below REQ (R515). -/
def State.showCeil (s : State) (die : Nat) : State :=
  let req := s.fget die (pwr die PWR_POINT.REQ)
  let flag := fun (c : Nat) => b2n (decide (c < req))
  let s1 := s.fsets die
    [(pwr die PWR_POINT.CAP, flag (capCeil die s.level)), (pwr die PWR_POINT.THERM, flag (s.dieP die).therm),
     (pwr die PWR_POINT.NEIGHBOUR, flag (s.dieP die).neigh), (pwr die PWR_POINT.CEIL, s.ceiling die)]
  if isC die then s1.fset die PWR_POINT.TIMING (flag (s.timingCeil die)) else s1

/-- REQ or a ceiling of a die changes: its frequency change goes to the arbiter (R495, R511). -/
def State.freqEvent (s : State) (die : Nat) : State :=
  if s.dieUp die then (s.showCeil die).raise ⟨7, die, 0, 0⟩ else s

/-- A frequency change is carried out (R496): a lower point switches at once and then lowers its voltage, a higher point
first raises its voltage. -/
def State.changePoint (s : State) (die : Nat) : State :=
  let n := s.point die
  let cur := s.fget die (pwr die PWR_POINT.CUR)
  if n = cur && (s.dieP die).target = none then s.fset die (pwr die PWR_POINT.BUSY) 0
  else
    let s1 := (s.updP die (fun p => { p with target := some n })).fset die (pwr die PWR_POINT.BUSY) 1
    if n < cur then s1.fset die (pwr die PWR_POINT.CUR) n else s1

/-- A die's frequency changes wait: it is in droop or settles (R498). -/
def State.droops (s : State) (die : Nat) : Bool := (s.dieP die).droop ≠ [] || (s.dieP die).settling

/-- A frequency change is resolved (R498, R511). -/
def State.freqChange (s : State) (die : Nat) : State :=
  if !s.dieUp die then s
  else if s.droops die then
    (s.fsets die [(pwr die PWR_POINT.DEFERRED, 1), (pwr die PWR_POINT.BUSY, 1)]).finc s.arb EVT_CNT.DEFER_CNT
  else s.changePoint die

/-- PWR_REQ_WRITE (R495, R515). -/
def effPwrReqWrite (die point : Nat) (s : State) : State :=
  if die < 6 && s.dieUp die then (s.fset die (pwr die PWR_POINT.REQ) (point % 16)).freqEvent die else s

/-- VOLTAGE_RAMP_DONE (R496): the change is complete; a ramp stands still in droop (R498). -/
def effVoltageRampDone (die : Nat) (s : State) : State :=
  match (s.dieP die).target with
  | some n =>
    if s.droops die || !s.dieUp die then s
    else (s.updP die (fun p => { p with target := none })).fsets die [(pwr die PWR_POINT.CUR, n), (pwr die PWR_POINT.BUSY, 0)]
  | none => s

/-! ## Droop -/

/-- DROOP (R497): domain 0 is Tide or Headland, domain 1 the NoC of a Q-die. -/
def effDroop (die dom : Nat) (s : State) : State :=
  if 6 ≤ die || !s.dieUp die || (s.dieP die).droop.contains dom || !(dom = 0 || (dom = 1 && isQ die)) then s
  else
    let s1 := s.updP die (fun p => { p with droop := p.droop ++ [dom], settling := false })
    ((s1.fset die (pwr die PWR_DROOP.ACTIVE) 1).finc die (pwr die PWR_DROOP.DROOP_CNT)).raise ⟨4, die, dom, 0⟩

/-- DROOP_CLEAR (R497): once no domain of the die is in droop, it settles. -/
def effDroopClear (die dom : Nat) (s : State) : State :=
  if !s.dieUp die || !(s.dieP die).droop.contains dom then s
  else
    let rest := (s.dieP die).droop.filter (· ≠ dom)
    let s1 := s.updP die (fun p => { p with droop := rest, settling := decide (rest = []) })
    if rest = [] then s1.fset die (pwr die PWR_DROOP.ACTIVE) 0 else s1

/-- DROOP_SETTLE_END (R498): the changes deferred together are applied as one. -/
def effDroopSettleEnd (die : Nat) (s : State) : State :=
  if !s.dieUp die || !(s.dieP die).settling then s
  else
    let s1 := s.updP die (fun p => { p with settling := false })
    if s1.fbit die (pwr die PWR_POINT.DEFERRED) then (s1.fset die (pwr die PWR_POINT.DEFERRED) 0).changePoint die else s1

/-! ## The power cap -/

/-- The slow and fast limits in W (R499, R520). -/
def State.limits (s : State) : Nat × Nat :=
  let w := s.power.cap.getD (resetWord shDie 0x180 0x080)
  let cap := min 1600 (max 600 (bits w 15 0))
  let fast := min 1760 (max cap (bits w 31 16))
  let tray := min cap (max 600 (bits w 47 32))
  if s.fbit shDie PKG_CAPSTAT.TRAY_LIMIT then (tray, tray) else (cap, fast)

/-- A notice under EVT_NOTIFY (R526); the flag is ON_CAP, ON_THERM or ON_SW. -/
def State.evtNotice (s : State) (flag : FieldRef) : State :=
  if s.fbit s.arb flag then s.notify (s.rd s.arb 0x190 0x020) else s

/-- The throttle level changes, and with it the cap ceilings (R500). -/
def State.setLevel (s : State) (n : Nat) : State :=
  let old := s.level
  let s1 := s.fset shDie PKG_CAPSTAT.LEVEL n
  let s2 := foldN 6 (fun t d => if capCeil d old ≠ capCeil d n then t.freqEvent d else t) s1
  if old = 0 && n ≠ 0 then s2.evtNotice EVT_NOTIFY.ON_CAP else s2

/-- PKG_CAP_WRITE (R502, R520). -/
def effPkgCapWrite (w : Word) (s : State) : State :=
  let v := w &&& fieldMask 51 0
  if s.power.phase = .off || s.power.phase = .held then s
  else (s.wr shDie 0x180 0x080 v).raise ⟨5, s.arb, 0, v.toNat⟩

/-- CAP_LIMIT_EDGE (R502, R609): CAP_LIMIT_N becomes asserted or deasserted. -/
def effCapLimitEdge (asserted : Bool) (s : State) : State :=
  if s.power.capN = !asserted then s
  else
    let s1 := s.updPower (fun p => { p with capN := !asserted })
    if s.power.phase = .off || s.power.phase = .held then s1 else s1.raise ⟨5, s.arb, 1, b2n asserted⟩

/-- A power-cap change is resolved (R502). -/
def State.capChange (s : State) (e : Event) : State :=
  let s1 := s.finc s.arb EVT_CNT.CAPCHG_CNT
  if e.arg = 0 then s1.updPower (fun p => { p with cap := some (BitVec.ofNat 64 e.detail) })
  else if e.arg = 1 then
    let s2 := s1.fset shDie PKG_CAPSTAT.TRAY_LIMIT e.detail
    let w := s2.power.cap.getD (resetWord shDie 0x180 0x080)
    if e.detail = 1 && s2.level < 15 - bits w 51 48 then s2.setLevel (15 - bits w 51 48) else s2
  else s1.emit (.tray 1 [e.detail])

/-- The throttle level at the end of a period, and whether OVER_CAP sets or clears (R501, R503). -/
def State.adjustLevel (s : State) : State :=
  let fastSum := (s.power.periods.take 10).foldl (· + ·) 0
  let slowSum := s.power.periods.foldl (· + ·) 0
  let (sl, fl) := s.limits
  let hot := fl * 1024 < fastSum || sl * 102400 < slowSum
  let cool := fastSum * 100 ≤ fl * 1024 * 97 && slowSum * 100 ≤ sl * 102400 * 97
  let low := if cool then min 10 (s.power.low + 1) else 0
  let lv := s.level
  let at33 := if lv = 33 then min 10 (s.power.at33 + 1) else 0
  let n := if hot then (if s.floorHeld && 15 ≤ lv then lv else min 33 (lv + 1)) else if low = 10 then lv - 1 else lv
  let fastOver := s.floorHeld && fl * 1024 < fastSum
  let s1 := s.updPower (fun p => { p with low := low, at33 := at33, overFast := fastOver })
  let s2 := if fastOver && !s.power.overFast then
      (List.range 2).foldl (fun t q => if t.dieUp (4 + q) then t.finc (4 + q) COL_CNT.FLOOR_CNT else t) s1
    else s1
  let s3 := s2.fsets shDie [(PKG_CAPSTAT.FAST_AVG, min 0xFFFF (fastSum / 1024)), (PKG_CAPSTAT.SLOW_AVG, min 0xFFFF (slowSum / 102400))]
  let s4 := if n ≠ lv then s3.setLevel n else s3
  if n < lv then s4.fset shDie PKG_CAPSTAT.OVER_CAP 0
  else if at33 = 10 && sl * 102400 < slowSum && !s4.fbit shDie PKG_CAPSTAT.OVER_CAP then
    (((s4.fset shDie PKG_CAPSTAT.OVER_CAP 1).raise ⟨6, s4.arb, 0, 0⟩).fireTriggers 4 1 0 1).evtNotice EVT_NOTIFY.ON_CAP
  else s4

/-! ## Temperature -/

/-- Control periods in 10 ms, rounded up. -/
def cool10ms : Nat := 98

/-- A thermal or neighbour ceiling at the end of a period, with the periods it has been cool (R506, R507). -/
def stepCeil (c cool : Nat) (hot isCool : Bool) : Nat × Nat :=
  if hot then (c - 1, 0)
  else if !isCool then (c, 0)
  else if cool10ms ≤ cool + 1 && c < 15 then (c + 1, 0)
  else (c, min cool10ms (cool + 1))

/-- The layer readings of a C-die's stack (R188). -/
def State.layers (s : State) (die : Nat) : List Nat :=
  (List.range 8).map (fun i => bits (s.rd die MFS_THERM.L0.blk MFS_THERM.L0.off) (8 * i + 7) (8 * i))

/-- The ceilings of one die at the end of a period, from the junction readings (R504, R506, R507). -/
def State.thermStep (s : State) (temps : List Nat) (die : Nat) : State :=
  if !s.dieUp die then s
  else
    let t := temps.getD die 0
    let tj := s.fget die (pwr die PWR_THERM.TJ_THROT)
    let st := s.fget die PWR_THERM.STACK_THROT
    let ls := if isC die then s.layers die else []
    let hot := decide (tj ≤ t) || ls.any (fun l => decide (st ≤ l))
    let isCool := decide (t + 3 ≤ tj) && ls.all (fun l => decide (l + 3 ≤ st))
    let ps := (jtyPeers die).filter s.dieUp
    let nHot := ps.any (fun p => decide (temps.getD p 0 + 20 < t))
    let nCool := ps.all (fun p => decide (t ≤ temps.getD p 0 + 16))
    let d := s.dieP die
    let (c1, k1) := stepCeil d.therm d.thermCool hot isCool
    let (c2, k2) := stepCeil d.neigh d.neighCool nHot nCool
    let s1 := (s.fset die (pwr die PWR_THERM.TJ_MAX) (min 255 t)).updP die (fun p =>
      { p with therm := c1, thermCool := k1, neigh := c2, neighCool := k2 })
    let s2 := if c1 ≠ d.therm || c2 ≠ d.neigh then s1.freqEvent die else s1
    let fell := b2n (decide (d.therm = 15 && c1 < 15)) * 2 + b2n (decide (d.neigh = 15 && c2 < 15)) * 4
    let s3 := if fell ≠ 0 then (s2.fireTriggers 4 fell 0 fell).evtNotice EVT_NOTIFY.ON_THERM else s2
    if 105 ≤ t then s3.raise ⟨2, die, if isC die then 2 else 4, t⟩ else s3

/-! ## Energy -/

/-- An energy counter. -/
def State.addEnergy (s : State) (die : Nat) (f : FieldRef) (uj : Nat) : State :=
  s.fset die f ((s.fget die f + uj) % 2 ^ 64)

/-- 1 µJ in units of 1/256 pJ. -/
def perUj : Nat := 256 * 10 ^ 6

/-- A queue's activities of a period on its tenant meter (R514). -/
def State.meter (s : State) (a : Nat × List Nat) : State :=
  let m := (s.queue a.1).ctx.meter
  if m / 128 % 2 = 0 then s
  else
    let k := m % 8
    let e := (List.range 8).foldl (fun n i => n + a.2.getD i 0 * bits (s.rd shDie 0x180 (0x100 + 8 * i)) 31 0)
      (mapGet 0 s.power.frac k)
    let f : FieldRef := { PKG_TMETER.ENERGY_UJ with off := 0x0C0 + 8 * k }
    (s.updPower (fun p => { p with frac := mapSet p.frac k (e % perUj) })).addEnergy shDie f (e / perUj)

/-- CONTROL_PERIOD_END (R499 to R507, R513, R514): the energies of dies 0 to 5 and of the package in µJ, the hottest junction
reading of each die, and the activities of each metered queue. -/
def effControlPeriodEnd (energies : List Nat) (package : Nat) (temps : List Nat) (acts : List (Nat × List Nat)) (s : State) : State :=
  if !s.runs then s
  else
    let s1 := foldN 6 (fun t d => if t.dieUp d then t.addEnergy d (pwr d PWR_ENERGY.ENERGY_UJ) (energies.getD d 0) else t) s
    let s2 := acts.foldl (fun t a => t.meter a) (s1.addEnergy shDie PKG_ENERGY.ENERGY_UJ package)
    let s3 := (s2.updPower (fun p => { p with periods := (package :: p.periods).take 1000 })).fset shDie PKG_CAPSTAT.PERIOD_W
      (min 0xFFFF (package * 10 / 1024))
    foldN 6 (fun t d => t.thermStep temps d) s3.adjustLevel

/-! ## Companions and Shelf devices -/

/-- T_THROTTLE and T_LIMIT of the descriptor (R452). -/
def State.siteTemps (s : State) (i : Nat) : Nat × Nat :=
  let w := s.rd (4 + i) 0x160 (0x100 + 8 * 3)
  (bits w 39 32, bits w 47 40)

/-- COMPANION_TEMP_SAMPLE (R453, R502, R504). -/
def effCompanionTempSample (site temp : Nat) (s : State) : State :=
  let d := 4 + site
  if 2 ≤ site || !s.dieUp d || s.fget d UCI_STATUS.STATE ≠ 4 then s
  else
    let (thr, lim) := s.siteTemps site
    let s1 := s.fset d UCI_STATUS.TEMP (min 255 temp)
    let s2 :=
      if temp < thr then s1
      else
        let t := s1.finc d UCI_CNT.THERM_CNT
        if (s.site site).hot then t else (t.updSite site (fun p => { p with hot := true })).raise ⟨5, d, 2, site⟩
    if lim ≤ temp then s2.raise ⟨2, d, 5, temp⟩ else s2

/-- COMPANION_THROTTLE_END (R502). -/
def effCompanionThrottleEnd (site : Nat) (s : State) : State :=
  if site < 2 && (s.site site).hot && s.fget (4 + site) UCI_STATUS.TEMP + 5 ≤ (s.siteTemps site).1 then
    s.updSite site (fun p => { p with hot := false })
  else s

/-- SHELF_TEMPERATURE_READ (R504): the derating that the devices of a channel report, and whether one is above its operating
range. -/
def effShelfTemperatureRead (channel derate : Nat) (tooHot : Bool) (s : State) : State :=
  if 64 ≤ channel || !s.dieUp (shfDie channel) then s
  else
    let s1 := s.updPower (fun p => { p with derate := mapSet p.derate channel derate })
    if tooHot then s1.raise ⟨2, shfDie channel, 6, channel⟩ else s1

/-! ## Stop and package reset -/

/-- COOLANT_OK_LOW (R509). -/
def effCoolantOkLow (s : State) : State :=
  let s1 := s.updPower (fun p => { p with coolant := false })
  if s.power.phase = .off || s.power.phase = .held then s1 else s1.raise ⟨1, s.arb, 0, 0⟩

/-- TRAY_PWR_OK_LOW (R509). -/
def effTrayPwrOkLow (s : State) : State :=
  let s1 := s.updPower (fun p => { p with tray := false })
  if s.power.phase = .off || s.power.phase = .held then s1 else s1.raise ⟨1, s.arb, 1, 0⟩

/-- RAIL_FAULT (R607): VIN_CORE or VDD_MGMT leaves tolerance while TRAY_PWR_OK reads high. -/
def effRailFault (s : State) : State :=
  if s.power.phase = .off || s.power.phase = .held || !s.power.tray then s else s.raise ⟨1, s.arb, 1, 1⟩

/-- COOLANT_OK_HIGH (R510). -/
def effCoolantOkHigh (s : State) : State := s.updPower (fun p => { p with coolant := true })

/-- TRAY_PWR_OK_HIGH (R510, R556): the next reset counts a power cycle. -/
def effTrayPwrOkHigh (s : State) : State :=
  let s1 := s.updPower (fun p => { p with tray := true })
  if s.power.tray then s1 else { s1 with lht := { s1.lht with rose := true } }

/-- PKG_RESET_ASSERT (R511, R609). -/
def effPkgResetAssert (s : State) : State :=
  let s1 := s.updPower (fun p => { p with resetN := false })
  if s.power.phase = .off || s.power.phase = .held then s1 else s1.raise ⟨3, s.arb, 0, 0⟩

/-- A C-die that stops with the package: the cores of its work item, and those of an item that has ended early, read 0b10 until
package reset (R55). -/
def State.stopLast (s : State) (die : Nat) : State :=
  foldN 64 (fun t c =>
    if s.fget die (TC_STATUS.STATE.unit c) = 1 || s.fget die (TC_STATUS.STATE.unit c) = 2 then t.fset die (TC_STATUS.STATE.unit c) 2 else t)
    (s.stopDie die 3)

/-- The package stops (R509): its dies stop, its vaults and Shelf channels are in self-refresh, its ports, host ports and sites are down. -/
def State.stopPackage (s : State) (src : Nat) : State :=
  let a := s.arb
  let s0 := s.fsets a [(EVT_STATUS.STOPPED, 1), (EVT_STATUS.STOP_SRC, src), (EVT_STATUS.STOP_TICK, s.fget a EVT_TICK.TICK % 2 ^ 48)]
  let s1 := foldN 4 (fun t d => if t.dieUp d then t.stopLast d else t.setMode d 3) s0
  let s2 : State := { (s1.setMode 4 3).setMode 5 3 with
    net := [], waitq := [], txns := [], mshrs := [], dmas := [], cmdEnds := [], queueEnds := [], ios := [], hostWbs := [],
    fab := Fabric.reset, vwrInv := [] }
  let s3 := (List.range 2).foldl (fun t q => (t.fsets (4 + q) [(HPU_STATUS.LINK, 0), (UCI_STATUS.STATE, 0)]).fset shDie (csLevel q) 0) s2
  let s4 := foldN 64 (fun t ch => if t.chOpen ch then t.fset (shfDie ch) (shfRef ch SHF_CH_STATUS.STATE) 2 else t) s3
  s4.fixedCause 0x83 src

/-- The registers that keep their values across a package reset: the configuration code once fused (R4), the progress of the Strandline
store (R573), and STATE of a vault that holds contents: it is in self-refresh (R173, R207; DEDUCED, log entry 54). -/
def State.resetKeeps (s : State) : SMap Word :=
  s.regs.filterMap (fun (e : Nat × Word) =>
    let die := e.1 / 2 ^ 32
    let blk := e.1 / 2 ^ 16 % 2 ^ 16
    if (e.1 = regKey shDie 0x180 0x008 && bitAt e.2 7) || e.1 = regKey 4 0x1A0 0x000 || e.1 = regKey 4 0x1A0 0x008 then some e
    else if isC die && 0x200 ≤ blk && blk < 0x240 && e.1 % 2 ^ 16 = 0 && (bits e.2 1 0 = vACTIVE || bits e.2 1 0 = vSELFREF) then
      some (e.1, BitVec.ofNat 64 vSELFREF)
    else none)

/-- Every die held: in reset, or without power. -/
def allHeld : SMap Nat := (List.range 6).map (fun d => (d, 3))

/-- A package reset while power stays: every register and unit returns to its reset value; the stack, the Glaze records in it,
the Strandline store, the boot flash and the fuses stay (R207, R509, R510, R573). -/
def State.packageReset (s : State) : State :=
  let r := State.reset
  { r with
    pending := s.pending, out := s.out, now := s.now, freeCtr := s.freeCtr, regs := s.resetKeeps, stack := s.stack, shelf := s.shelf,
    vaults := s.vaults.map (fun (e : Nat × Vault) => (e.1, { Vault.reset with code := e.2.code })),
    glz := s.glz.map (fun (e : Nat × GlzUnit) =>
      let u := e.2.stopped
      (e.1, { u with coming := [], kept := u.kept.map (fun c => { c with orphan := true }) })),
    dieMode := if s.power.resetN then [] else allHeld,
    strand := { s.strand with fired := [] },
    power := { Power.reset with coolant := s.power.coolant, tray := s.power.tray, resetN := s.power.resetN, capN := s.power.capN,
                                phase := if s.power.resetN then .released else .held },
    lht := { s.lht with granted := false, harbour := false }, i3c := s.i3c, sberr := s.sberr }

/-! ## Event arbitration -/

/-- A fault report is delivered (R512, R576). One without a record is that of OVER_CAP (R501). -/
def State.faultEvent (s : State) (e : Event) : State :=
  let v := e.arg / 2 ^ 16 % 2 ^ 16
  let sev := e.arg / 2 ^ 40
  if v = 0 then s else s.fireTriggers 1 v sev (sev * 2 ^ 16 + v)

/-- A software event is delivered (R511, R526, R576). -/
def State.swEvent (s : State) (e : Event) : State :=
  ((s.finc s.arb EVT_CNT.SW_CNT).fireTriggers 2 (e.detail % 2 ^ 16) 0 (e.detail % 2 ^ 16)).evtNotice EVT_NOTIFY.ON_SW

/-- The events of one class, in the order in which they were sampled. -/
def ofClass (es : List Event) (c : Nat) : List Event := es.filter (fun e => decide (e.cls = c))

/-- The sources of a stop (R523). -/
def stopSrc (es : List Event) : Nat := es.foldl (fun n e => orBit n e.arg) 0

/-- The events of one tick take effect (R512). -/
def State.resolveEvents (s : State) (es : List Event) : State :=
  let stops := es.filter (fun e => decide (e.cls ≤ 2))
  if stops ≠ [] && !s.isStopped then
    let lost := (es.filter (fun e => decide (3 ≤ e.cls) && decide (e.cls ≠ 6))).length
    let s1 := (ofClass es 6).foldl (fun t e => t.faultEvent e) (s.fadd s.arb EVT_CNT.DISCARD_CNT lost)
    s1.stopPackage (stopSrc stops)
  else
    let s1 := s.fadd s.arb EVT_CNT.DISCARD_CNT stops.length
    if ofClass es 3 ≠ [] then
      let lost := (es.filter (fun e => decide (4 ≤ e.cls))).length
      let t := s1.packageReset
      t.fadd t.arb EVT_CNT.DISCARD_CNT lost
    else
      let s2 := (ofClass es 5).foldl (fun t e => t.capChange e) s1
      let s3 := (ofClass es 6).foldl (fun t e => t.faultEvent e) s2
      let s4 := (ofClass es 7).foldl (fun t e => t.freqChange e.die) s3
      (ofClass es 8).foldl (fun t e => t.swEvent e) s4

/-- EVENT_TICK_RESOLVE (R511, R512): the events of the tick are resolved together, and the tick and every Tidemark copy
advance by 102.4 ns. -/
def effEventTickResolve (s : State) : State :=
  if s.power.phase = .off || s.power.phase = .held then { s with now := s.now + 1024 }
  else
    let s1 := ({ s with events := [] } : State).resolveEvents s.events
    let s2 : State := { s1.tmkAdvance with now := s1.now + 1024 }
    if s2.power.phase = .held then s2
    else s2.fset s2.arb EVT_TICK.TICK ((s2.fget s2.arb EVT_TICK.TICK + 1) % 2 ^ 64)

/-- EVT_SW_WRITE (R524). -/
def effEvtSwWrite (code : Nat) (s : State) : State :=
  if s.power.phase = .off || s.power.phase = .held then s else s.raise ⟨8, s.arb, 0, code % 2 ^ 16⟩

/-! ## The commands of this file: each one's effect, committed -/

/-- COMPANION_TEMP_SAMPLE (R453). -/
def execCompanionTempSample (site temp : Nat) (s : State) : Host.Outcome State Fault Refusal :=
  s.commit (effCompanionTempSample site temp s)

/-- PWR_REQ_WRITE (R495). -/
def execPwrReqWrite (die point : Nat) (s : State) : Host.Outcome State Fault Refusal :=
  s.commit (effPwrReqWrite die point s)

/-- EVENT_TICK_RESOLVE (R511). -/
def execEventTickResolve (s : State) : Host.Outcome State Fault Refusal :=
  s.commit (effEventTickResolve s)

/-- VOLTAGE_RAMP_DONE (R496). -/
def execVoltageRampDone (die : Nat) (s : State) : Host.Outcome State Fault Refusal :=
  s.commit (effVoltageRampDone die s)

/-- DROOP (R497). -/
def execDroop (die dom : Nat) (s : State) : Host.Outcome State Fault Refusal :=
  s.commit (effDroop die dom s)

/-- DROOP_CLEAR (R497). -/
def execDroopClear (die dom : Nat) (s : State) : Host.Outcome State Fault Refusal :=
  s.commit (effDroopClear die dom s)

/-- DROOP_SETTLE_END (R498). -/
def execDroopSettleEnd (die : Nat) (s : State) : Host.Outcome State Fault Refusal :=
  s.commit (effDroopSettleEnd die s)

/-- CONTROL_PERIOD_END (R501). -/
def execControlPeriodEnd (energies : List Nat) (package : Nat) (temps : List Nat) (acts : List (Nat × List Nat)) (s : State) :
    Host.Outcome State Fault Refusal :=
  s.commit (effControlPeriodEnd energies package temps acts s)

/-- PKG_CAP_WRITE (R502). -/
def execPkgCapWrite (w : Word) (s : State) : Host.Outcome State Fault Refusal :=
  s.commit (effPkgCapWrite w s)

/-- CAP_LIMIT_EDGE (R502). -/
def execCapLimitEdge (asserted : Bool) (s : State) : Host.Outcome State Fault Refusal :=
  s.commit (effCapLimitEdge asserted s)

/-- COMPANION_THROTTLE_END (R502). -/
def execCompanionThrottleEnd (site : Nat) (s : State) : Host.Outcome State Fault Refusal :=
  s.commit (effCompanionThrottleEnd site s)

/-- COOLANT_OK_LOW (R509). -/
def execCoolantOkLow (s : State) : Host.Outcome State Fault Refusal :=
  s.commit (effCoolantOkLow s)

/-- TRAY_PWR_OK_LOW (R509). -/
def execTrayPwrOkLow (s : State) : Host.Outcome State Fault Refusal :=
  s.commit (effTrayPwrOkLow s)

/-- RAIL_FAULT (R607). -/
def execRailFault (s : State) : Host.Outcome State Fault Refusal :=
  s.commit (effRailFault s)

/-- PKG_RESET_ASSERT (R511). -/
def execPkgResetAssert (s : State) : Host.Outcome State Fault Refusal :=
  s.commit (effPkgResetAssert s)

/-- EVT_SW_WRITE (R524). -/
def execEvtSwWrite (code : Nat) (s : State) : Host.Outcome State Fault Refusal :=
  s.commit (effEvtSwWrite code s)

/-- COOLANT_OK_HIGH (R510). -/
def execCoolantOkHigh (s : State) : Host.Outcome State Fault Refusal :=
  s.commit (effCoolantOkHigh s)

/-- TRAY_PWR_OK_HIGH (R556). -/
def execTrayPwrOkHigh (s : State) : Host.Outcome State Fault Refusal :=
  s.commit (effTrayPwrOkHigh s)

/-- SHELF_TEMPERATURE_READ (R504). -/
def execShelfTemperatureRead (channel derate : Nat) (tooHot : Bool) (s : State) : Host.Outcome State Fault Refusal :=
  s.commit (effShelfTemperatureRead channel derate tooHot s)

end Sys2Proof.Machine
end

