-- ==== Sys2Proof/Machine/Faults.lean ====
section
/-!
DEFINITION. Fencing by software, fault scores, sweeps for lost caches, the loss of a clock, a cache or a Q-die, and the error log
(R531 to R537, R541, R545, R548).
-/
namespace Sys2Proof.Machine

/-! ## Scores and fencing -/

/-- ERR_FENCE_GO (R532, R548): ignored if the core is already fenced. -/
def effErrFenceGo (die core : Nat) (s : State) : State :=
  if !isC die || !s.dieUp die || 64 ≤ core then s
  else
    let s1 := s.fset die ERR_FENCE.CORE core
    if s1.isFenced die core then s1 else (s1.fset die ERR_FENCE.GO 1).fenceCore die core

/-- SCORE_DECAY (R531, R533): each score of a die above 0 falls by 1. -/
def effScoreDecay (die : Nat) (s : State) : State :=
  if 6 ≤ die || !s.dieUp die then s
  else foldN (if isC die then 64 else 32) (fun t n => if t.score die n = 0 then t else t.setScore die n (t.score die n - 1)) s

/-! ## Sweeps (R536) -/

/-- LOSS_RELAY (R536): the notice of a lost cache reaches a die, whose homes begin to sweep. -/
def effLossRelay (die agent : Nat) (s : State) : State :=
  if s.links.losses.contains (die, agent) && s.dieUp die then
    { s with links := { s.links with losses := s.links.losses.filter (fun (l : Nat × Nat) => l ≠ (die, agent)) },
             sweeps := s.sweeps.filter (fun (w : Nat × Nat) => w ≠ (die, agent)) ++ [(die, agent)] }
  else s

/-- The lines that share the block of a line at its home: two in the stack, one elsewhere (R536). -/
def State.blockLines (s : State) (line : Nat) : List Nat :=
  match s.placeOfAddr (line * 64) with
  | .stack _ _ => [line / 2 * 2, line / 2 * 2 + 1]
  | _ => [line]

/-- A line's block is written poisoned at its home (R536). -/
def State.sweepBlock (s : State) (line : Nat) : State :=
  (s.blockLines line).foldl (fun t l =>
    let (d, _, u) := t.memLine l srcDynamic
    u.memPut l d fullLine true srcDynamic) s

/-- HOME_SWEEP_DONE (R536, R542, R550): the lost agent's bit leaves the shared entries, the lines that it owned are poisoned and
their entries removed, and what waited proceeds. -/
def effHomeSweepDone (die agent : Nat) (s : State) : State :=
  if !s.sweeps.contains (die, agent) || !s.dieUp die then s
  else
    let mine := s.dir.filter (fun (e : Nat × DirEnt) => (s.homeOf e.1).die = die && s.homeOf e.1 ≠ .none && bitOf e.2.sharers agent)
    let owned := (mine.filter (fun (e : Nat × DirEnt) => e.2.owned)).map (fun (e : Nat × DirEnt) => e.1)
    let s1 := owned.foldl (fun t l => t.sweepBlock l) s
    let s2 := mine.foldl (fun t (e : Nat × DirEnt) => t.dropSharer e.1 agent) s1
    let s3 := (s2.fadd die (ERR_SWEEP.POISONED_CNT.inBlk (errBlk die)) owned.length).fadd die
      (ERR_SWEEP.REMOVED_CNT.inBlk (errBlk die)) (mine.length - owned.length)
    let s4 := s3.logErr die (if owned = [] then 1 else 2) 0x0B 0 0x1 (owned.length * 2 ^ 32 + 2 ^ agent)
    let s5 : State := { s4 with sweeps := s4.sweeps.filter (fun (w : Nat × Nat) => w ≠ (die, agent)) }
    let open_ := (s5.txns.filter (fun (t : Nat × Txn) => (s5.homeOf t.1).die = die)).map (fun (t : Nat × Txn) => t.1)
    (open_.foldl (fun t l => t.advance l) s5).wake

/-! ## A Q-die is lost (R537) -/

/-- The ports, host port and site of a lost Q-die are gone, and its Shelf channels down. -/
def State.loseIo (s : State) (d : Nat) : State :=
  let q := d - 4
  let s1 := (List.range 16).foldl (fun t i =>
    let p := 16 * q + i
    (t.fset d (portRef p BWF_STATUS.STATE) pDOWN).updPort p (fun _ => { FabPort.reset with downAt := some s.now })) s
  let s2 := (List.range 32).foldl (fun t i => t.fset d (shfRef (32 * q + i) SHF_CH_STATUS.STATE) 3) s1
  let s3 := (s2.dropHost q).failHeld q
  (s3.fsets d [(HPU_STATUS.LINK, 0), (HPU_STATUS.BME, 0), (HPU_STATUS.MEM_EN, 0), (HPU_STATUS.CACHE_EN, 0), (UCI_STATUS.STATE, 0)]).fset
    shDie (csLevel q) 0

/-- The arbiter, Lighthouse and Strandline after the loss of Q0: the store is lost, and the EVT_ offsets start afresh on Q1 but
for the tick count. -/
def State.passArbiter (s : State) (d : Nat) : State :=
  if d ≠ 4 then s
  else
    let s1 := s.fset 5 EVT_TICK.TICK (s.fget 4 EVT_TICK.TICK)
    ({ s1 with strand := { s1.strand with ring := [], copyBuf := [], queue := [], recs := [] } }).updFab (fun f => { f with events := [] })

/-- A Q-die is lost, and the survivor takes over. -/
def State.loseQ (s : State) (d : Nat) : State :=
  let p := peerQ d
  let source := s.timeSource
  let q := d - 4
  let s1 := ((s.dropTxns d).loseCache q).loseIo d
  let keep := fun (c : ColCmd) => decide (c.q ≠ d)
  let s2 : State := { s1 with
    harts := mapClear s1.harts (32 * q) (32 * q + 32),
    coll := { s1.coll with
      coming := s1.coll.coming.filter keep,
      insts := (s1.coll.insts.map (fun (x : ColInst) => { x with cmds := x.cmds.filter keep })).filter (fun x =>
        x.cmds ≠ [] || !(s1.coll.insts.any (fun y => y.group = x.group && y.seq = x.seq && y.cmds ≠ []))) },
    samplers := mapErase s1.samplers d,
    power := { s1.power with dies := mapErase s1.power.dies d } }
  let s3 := (s2.setMode d 3).passArbiter d
  if !s3.dieUp p then s3
  else
    let s4 := s3.fsets p [(ERR_STATUS.PEER_LOST.inBlk (errBlk p), 1), (HQ_STATUS.TAKEOVER, 1), (HQ_STATUS.DEGRADED, 1)]
    let s5 := (s4.fset d HQ_STATUS.DEGRADED 1).takeQueues d
    let s6 := if source = d then s5.fset p TMK_STATUS.HOLDOVER 1 else s5
    (s6.logErr p 3 0x0F d 0x1 0).fixedCause 0x87 d

/-- QDIE_LOST (R537). -/
def effQdieLost (die : Nat) (s : State) : State := if isQ die && s.dieUp die then s.loseQ die else s

/-- The clock of one die is lost (R254, R537); a die in reset then stays so until the clock returns. -/
def State.loseClock (s : State) (die : Nat) : State :=
  if isC die && mapGet 0 s.dieMode die = 1 then s.setMode die 2
  else if !s.dieUp die then s
  else if isQ die then s.loseQ die
  else s.stopDie die 2

/-- The dies that a reference clock feeds: 6 is REFCLK0, 7 REFCLK1 (R21; log entry 53). -/
def refDies (ref : Nat) : List Nat := if ref = 6 then [0, 1, 4] else if ref = 7 then [2, 3, 5] else []

/-- CLOCK_LOSS (R21, R254, R535, R537): the clock of die 0–5 is lost, or a reference clock stops (6 REFCLK0, 7 REFCLK1) and with it
that of every die it feeds; or, with `tags`, both copies of a tag, state or directory entry of the die have failed parity, and a
C-die stops as for a die reset. -/
def effClockLoss (die : Nat) (tags : Bool) (s : State) : State :=
  if 6 ≤ die then (refDies die).foldl (fun t d => t.loseClock d) s
  else if !tags then s.loseClock die
  else if !s.dieUp die then s
  else
    let s1 := s.logErr die 3 0x07 0 0x2 0
    if isQ die then s1.loseQ die else effDieReset die s1

/-! ## The error log (R541, R545) -/

/-- ERR_REC0 to ERR_REC2 of the oldest record; zeros where none is held. -/
def State.errWords (s : State) (die : Nat) : Word × Word × Word :=
  match s.errs die with
  | [] => (0, 0, 0)
  | r :: _ =>
    (BitVec.ofNat 64 (2 ^ 63 + r.sev % 4 * 2 ^ 61 + r.unit % 256 * 2 ^ 48 + r.kind % 256 * 2 ^ 40 + r.index % 2 ^ 16 * 2 ^ 16 + r.count % 2 ^ 16),
     BitVec.ofNat 64 r.detail, BitVec.ofNat 64 r.time)

/-- ERR_REC0_READ (R545): the read returns and removes the oldest record. -/
def effErrRec0Read (agent : Agent) (die : Nat) (s : State) : State :=
  if 6 ≤ die || !s.dieUp die then s.emit (.regData agent 0)
  else (s.setErrs die ((s.errs die).drop 1)).emit (.regData agent (s.errWords die).1)

/-- ERR_STATUS as a read returns it: USED counts the records held (R543). -/
def State.errStatus (s : State) (die : Nat) : Word :=
  setBits (s.rd die (errBlk die) 0x000) 63 56 (s.errs die).length

/-! ## The commands of this file: each one's effect, committed -/

/-- CLOCK_LOSS (R254). -/
def execClockLoss (die : Nat) (tags : Bool) (s : State) : Host.Outcome State Fault Refusal :=
  s.commit (effClockLoss die tags s)

/-- ERR_FENCE_GO (R548). -/
def execErrFenceGo (die core : Nat) (s : State) : Host.Outcome State Fault Refusal :=
  s.commit (effErrFenceGo die core s)

/-- SCORE_DECAY (R531). -/
def execScoreDecay (die : Nat) (s : State) : Host.Outcome State Fault Refusal :=
  s.commit (effScoreDecay die s)

/-- LOSS_RELAY (R536). -/
def execLossRelay (die agent : Nat) (s : State) : Host.Outcome State Fault Refusal :=
  s.commit (effLossRelay die agent s)

/-- HOME_SWEEP_DONE (R536). -/
def execHomeSweepDone (die agent : Nat) (s : State) : Host.Outcome State Fault Refusal :=
  s.commit (effHomeSweepDone die agent s)

/-- QDIE_LOST (R537). -/
def execQdieLost (die : Nat) (s : State) : Host.Outcome State Fault Refusal :=
  s.commit (effQdieLost die s)

/-- ERR_REC0_READ (R545). -/
def execErrRec0Read (agent : Agent) (die : Nat) (s : State) : Host.Outcome State Fault Refusal :=
  s.commit (effErrRec0Read agent die s)

end Sys2Proof.Machine
end

