-- ==== Sys2Proof/Machine/RegRead.lean ====
section
/-!
DEFINITION. What a read of a register returns, without what it changes (R7 to R11, R577, R614).
-/
namespace Sys2Proof.Machine

/-- The register that a register address names: die, block and offset (R7). -/
def regAt (a : Nat) : Nat × Nat × Nat :=
  let x := a - 0x7F000000000
  (x / 2 ^ 32, x / 2 ^ 16 % 2 ^ 16, x % 2 ^ 16)

/-- The die that holds a register's value: a register of R23 is held once. -/
def regHolder (d : RegDesc) (die : Nat) : Nat := if d.shared then shDie else die

/-- A word without its write-only fields, which read 0 (R11). -/
def hideWo (d : RegDesc) (w : Word) : Word :=
  d.fields.foldl (fun v f => if f.acc = .wo then setBits v f.hi f.lo 0 else v) w

/-- A word of the page in STL_WINDOW: the ring is read live (R580). -/
def State.stlWindow (s : State) (o : Nat) : Word :=
  let src := s.fget 4 STL_CURSOR.SOURCE
  let at_ := s.fget 4 STL_CURSOR.PAGE * 4096 + o
  BitVec.ofNat 64 (leNat (
    if src = 0 then (if at_ + 8 ≤ 2 ^ 21 then memReadN s.strand.ring at_ 8 else List.replicate 8 0) else memReadN s.strand.win o 8))

/-- What a read returns of an occupied register (R9, R11, R23). -/
def State.regVal (s : State) (die blk off : Nat) : Word :=
  match findReg s.arb die blk off with
  | none => 0
  | some d =>
    let w := s.rd (regHolder d die) blk off
    if d.name = "ERR_STATUS" then s.errStatus die
    else if d.name = "ERR_REC0" then (s.errWords die).1
    else if d.name = "ERR_REC1" then (s.errWords die).2.1
    else if d.name = "ERR_REC2" then (s.errWords die).2.2
    else if d.name = "HQ_STATUS" then setBits w 15 0 (s.hqFree die)
    else if d.name = "HQ_PEER_CFG" then s.rd (peerQ die) 0x170 (off - 0x80)
    else if d.name = "MFS_DIR_CNT" then setBits w 0 0 (b2n (s.genOk die (blk - 0x200)))
    else if d.name = "BWF_EVT_LO" then s.evtWords.1
    else if d.name = "BWF_EVT_HI" then s.evtWords.2
    else if d.name = "TMK_TIME" then BitVec.ofNat 64 (s.tmkNs die)
    else if d.name = "TMK_STATUS" then setBits w 4 4 (b2n (decide (s.timeSource = die)))
    else if d.name = "PKG_CAPSTAT" then setBits w 61 61 (b2n s.floorHeld)
    else if d.name = "STL_WINDOW" then s.stlWindow (off - 0x1000)
    else hideWo d w

/-- Is the package stopped or held in reset, so that only the registers of R614 are served? -/
def State.closed (s : State) : Bool := !s.runs

/-- The blocks that answer in a stopped package and in reset (R614). -/
def servedBlk (blk : Nat) : Bool := blk = 0x180 || blk = 0x190 || blk = 0x1A0 || blk = 0x1B0

/-- Does a register of a die answer: its die runs, or the package is stopped and the block is one that still answers? -/
def State.answers (s : State) (die blk : Nat) : Bool :=
  if s.closed then isQ die && servedBlk blk && s.power.phase ≠ .off && !(die ≠ s.arb && s.arb = 5) else s.dieUp die

/-- A register read by address, as a snapshot reads it: none where the entry is MISSING (R577). -/
def State.snapshot (s : State) (a : Nat) : Option Word :=
  let (die, blk, off) := regAt a
  if a < 0x7F000000000 || 0x7F600000000 ≤ a || !s.answers die blk then none else some (s.regVal die blk off)

end Sys2Proof.Machine
end

