-- ==== Sys2Proof/Machine/Strandline.lean ====
section
/-!
DEFINITION. The boot flash as bytes (R555), the Strandline recorder (R573 to R586), and the counters' commands (R589, R591, R596,
R601, R602).
-/
namespace Sys2Proof.Machine

/-! ## The boot flash -/

/-- The copy slots of the flash (R579). -/
def copyBase : Nat := 0x600000

/-- A byte of the boot flash; an erased byte is 0xFF. -/
def State.flashByte (s : State) (a : Nat) : Byte :=
  if copyBase ≤ a && a < 0x1000000 then
    match mapFind s.strand.copies ((a - copyBase) / 2 ^ 21 + 1) with
    | some m => memRead m ((a - copyBase) % 2 ^ 21)
    | none => 0xFF
  else ~~~(memRead s.lht.flash a)

def State.flashRead (s : State) (a n : Nat) : List Byte := (List.range n).map (fun i => s.flashByte (a + i))

def State.flashNum (s : State) (a n : Nat) : Nat := leNat (s.flashRead a n)

/-- Bytes written to the flash outside the copy slots, erased first where they need it. -/
def State.flashPut (s : State) (a : Nat) (bs : List Byte) : State :=
  { s with lht := { s.lht with flash := memWriteN s.lht.flash a (bs.map (fun b => ~~~b)) } }

def State.flashErase (s : State) (lo hi : Nat) : State :=
  { s with lht := { s.lht with flash := memClear s.lht.flash lo hi } }

/-! ## Records (R574) -/

/-- 0.01 h in units of `now`. -/
def per001h : Nat := 360000000000

/-- Operating hours in units of 0.01 h (R556, R574). -/
def State.hours (s : State) : Nat := s.lht.hours + (s.now - s.lht.entryAt) / per001h

/-- The values of a trigger's snapshot set in entry order, none where MISSING; `late` names the entries that did not answer
within 10 µs (R577). -/
def State.snapSet (s : State) (cause : Nat) (late : List Nat) : List (Option Word) :=
  let cfg := s.rd 4 0x1A0 (0x2000 + 16 * cause)
  if 64 ≤ cause || !bitAt cfg 47 then []
  else (List.range 32).filterMap (fun i =>
    let e := s.rd 4 0x1A0 (0x3000 + 0x100 * bits cfg 51 48 + 8 * i)
    if bitAt e 63 then some (if late.contains i then none else s.snapshot (bits e 43 3 * 8)) else none)

/-- The bytes of a record (R574). -/
def State.recBytes (s : State) (e : StlEvent) (seq : Nat) (vals : List (Option Word)) : List Byte :=
  let n := vals.length
  let miss := (vals.zipIdx.filter (fun v => v.1.isNone)).foldl (fun m v => m + 2 ^ v.2) 0
  let body := leBytes 2 (48 + 8 * n) ++ leBytes 1 e.cause ++ leBytes 1 n ++ leBytes 4 (seq % 2 ^ 32) ++ leBytes 8 s.hours ++
    leBytes 8 s.lht.powers ++ leBytes 8 e.time ++ leBytes 4 (e.info % 2 ^ 32) ++ leBytes 4 miss ++
    vals.flatMap (fun v => leBytes 8 (v.getD 0).toNat)
  body ++ leBytes 4 (crc32 (body.map BitVec.toNat)) ++ leBytes 4 0

/-- The records that a ring still holds whole when `n` more bytes are written. -/
def dropOld (n : Nat) : List (Nat × Nat × Nat) → List (Nat × Nat × Nat)
  | [] => []
  | r :: rs => if (r :: rs).foldl (fun t x => t + x.2.2) n ≤ 2 ^ 21 then r :: rs else dropOld n rs

/-- Bytes written into the ring at HEAD, wrapping (R573). -/
def ringPut (m : Memory) (head : Nat) (bs : List Byte) : Memory :=
  bs.zipIdx.foldl (fun r b => memWrite r ((head + b.2) % 2 ^ 21) b.1) m

/-- Where the header of a copy slot lies (R579). -/
def copyHead (slot : Nat) : Nat := 0x5F0000 + (slot - 1) * 4096

/-- A copy of the ring into the next copy slot in rotation starts (R578): the header's sector and the slot are erased first. The slot
follows the number of copies made, so that it is the oldest one after a power loss too. -/
def State.startCopy (s : State) : State :=
  let slot := s.strand.writes % 5 + 1
  let t := s.flashErase (copyHead slot) (copyHead slot + 4096)
  ({ t with strand := { t.strand with
      copyBuf := s.strand.ring, slot := slot, copies := mapErase s.strand.copies slot } }).fsets 4
    [(STL_STATUS.COPY_BUSY, 1), (STL_STATUS.COPY_PENDING, 0)]

/-- A record of the given number goes into the ring (R573, R578, R583). -/
def State.ringRecord (s : State) (bs : List Byte) (seq : Nat) (marked : Bool) : State :=
  let head := s.fget 4 STL_RING.HEAD * 8
  let recs := dropOld bs.length s.strand.recs ++ [(seq, head, bs.length)]
  let s1 : State := { s with strand := { s.strand with ring := ringPut s.strand.ring head bs, recs := recs } }
  let s2 := s1.fsets 4 [(STL_STATUS.LAST_SEQ, seq), (STL_RING.HEAD, (head + bs.length) / 8 % 2 ^ 18),
    (STL_RING.OLDEST_SEQ, (recs.head?.getD (seq, 0, 0)).1)]
  if !marked then s2
  else if s2.fbit 4 STL_STATUS.COPY_BUSY then s2.fset 4 STL_STATUS.COPY_PENDING 1
  else s2.startCopy

/-- A record goes straight into the direct log, which wraps (R579, R582). -/
def State.directRecord (s : State) (bs : List Byte) (seq : Nat) : State :=
  let e := s.strand.directEnd
  let s1 := bs.zipIdx.foldl (fun t b => t.flashPut (0x500000 + (e + b.2) % 983040) [b.1]) s
  { s1 with strand := { s1.strand with directEnd := (e + bs.length) % 983040, flashSeq := seq } }

/-- STRANDLINE_RECORD_WRITE (R574, R577, R578, R582): the oldest record that waits is written. When Q0 is lost, Q1 writes the
marked ones to the direct log. -/
def effStrandlineRecordWrite (late : List Nat) (s : State) : State :=
  match s.strand.queue with
  | [] => s
  | e :: rest =>
    let seq := s.strand.nextSeq % 2 ^ 32
    let s1 : State := { s with strand := { s.strand with queue := rest } }
    if s.arb = 5 && !e.marked then s1
    else
      let bs := s.recBytes e seq (s.snapSet e.cause late)
      let s2 : State := { s1 with strand := { s1.strand with nextSeq := (seq + 1) % 2 ^ 32 } }
      if s.arb = 5 then s2.directRecord bs seq else s2.ringRecord bs seq e.marked

/-- FLASH_COPY_DONE (R578, R579): the image is in its slot, then its header; a pending copy follows. -/
def effFlashCopyDone (s : State) : State :=
  if !s.fbit 4 STL_STATUS.COPY_BUSY then s
  else
    let n := s.strand.slot
    let img := s.strand.copyBuf
    let newest := s.fget 4 STL_STATUS.LAST_SEQ
    let head := leBytes 8 (s.strand.writes + 1) ++ leBytes 4 newest ++ leBytes 48 0
    let crc := crc32 ((head ++ memReadN img 0 (2 ^ 21)).map BitVec.toNat)
    let s1 := s.flashPut (copyHead n) (head ++ leBytes 4 crc)
    let s2 : State := { s1 with strand := { s1.strand with
      copies := mapSet s1.strand.copies n img, writes := s.strand.writes + 1, flashSeq := newest } }
    let s3 := s2.fsets 4 [(STL_STATUS.COPY_BUSY, 0), (STL_STATUS.LAST_SLOT, n)]
    if s3.fbit 4 STL_STATUS.COPY_PENDING then s3.startCopy else s3

/-- A Strandline clear (R581): false where the permanent log has no room. -/
def State.stlClear (s : State) (scope : Nat) : State × Bool :=
  let seq := s.strand.nextSeq % 2 ^ 32
  let e : StlEvent := ⟨0x80, scope, s.arbNs, true⟩
  let bs := s.recBytes e seq []
  let p := s.strand.permEnd
  if 2 ^ 20 < p + bs.length then (s, false)
  else
    let s1 := s.flashPut (0x400000 + p) bs
    let s2 : State := { s1 with strand := { s1.strand with permEnd := p + bs.length, nextSeq := (seq + 1) % 2 ^ 32, flashSeq := seq } }
    let s3 := if scope % 2 = 1 then
        ({ s2 with strand := { s2.strand with ring := [], recs := [] } }).fset 4 STL_RING.HEAD 0
      else s2
    let s4 := if scope / 2 % 2 = 1 then
        ({ s3 with strand := { s3.strand with copies := [] } }).flashErase 0x5F0000 0x600000
      else s3
    let s5 := if scope / 4 % 2 = 1 then
        ({ s4 with strand := { s4.strand with directEnd := 0 } }).flashErase 0x500000 0x5F0000
      else s4
    (if s.arb = 5 then s5.directRecord bs seq else s5.ringRecord bs seq true, true)

/-- PERIOD_TRIGGER (R576): Tidemark time crosses a multiple of the period of a trigger. -/
def effPeriodTrigger (t : Nat) (s : State) : State :=
  let p := bits (s.rd 4 0x1A0 (0x2008 + 16 * t)) 4 0
  if 64 ≤ t || 20 < p || s.power.phase = .off then s else s.offerTrig t 5 0 0 p

/-- CURSOR_WRITE (R580, R584). -/
def effCursorWrite (source page : Nat) (s : State) : State :=
  if s.arb = 5 || s.power.phase = .off then s
  else s.fsets 4 [(STL_CURSOR.SOURCE, source % 8), (STL_CURSOR.PAGE, page % 4096), (STL_CURSOR.READY, b2n (decide (source % 8 = 0)))]

/-- Where a flash source of STL_CURSOR lies, and its length (R579, R580). -/
def stlSource (src : Nat) : Nat × Nat :=
  if src = 6 then (0x400000, 2 ^ 20) else if src = 7 then (0x500000, 983040) else (copyBase + (src - 1) * 2 ^ 21, 2 ^ 21)

/-- PAGE_FETCH_DONE (R580). -/
def effPageFetchDone (s : State) : State :=
  if s.fbit 4 STL_CURSOR.READY then s
  else
    let (base, len) := stlSource (s.fget 4 STL_CURSOR.SOURCE)
    let at_ := s.fget 4 STL_CURSOR.PAGE * 4096
    let page := if at_ + 4096 ≤ len then memWriteN [] 0 (s.flashRead (base + at_) 4096) else []
    ({ s with strand := { s.strand with win := page } }).fset 4 STL_CURSOR.READY 1

/-! ## Counters -/

/-- Is a counter one that its die has (R587, R603)? -/
def hasCounter (die : Nat) (core : Option Nat) (i : Nat) : Bool :=
  match core with
  | none => die < 6 && i < 16
  | some n => isC die && n < 64 && i < 8

/-- COUNTER_OVERFLOW (R589): an increment carries a running counter past 2^48 − 1. -/
def effCounterOverflow (die : Nat) (core : Option Nat) (i inc : Nat) (s : State) : State :=
  let b := pmuBlk die
  let sel := s.rd die b (selOff core i)
  if !hasCounter die core i || !s.dieUp die || !s.fbit die (PMU_CTRL.EN.inBlk b) || !bitAt sel 63 then s
  else if bits (s.rd die b (cntOff core i)) 47 0 + inc < 2 ^ 48 then s
  else s.addCounter die core i inc

/-- EVEN_COUNTER_READ (R591): the odd partner of an even counter is latched. -/
def effEvenCounterRead (agent : Agent) (die : Nat) (core : Option Nat) (i : Nat) (s : State) : State :=
  if !hasCounter die core i || !s.dieUp die || i % 2 = 1 then s
  else
    let b := pmuBlk die
    (s.wr die b 0x010 (BitVec.ofNat 64 (bits (s.rd die b (cntOff core (i + 1))) 47 0))).emit
      (.regData agent (BitVec.ofNat 64 (bits (s.rd die b (cntOff core i)) 47 0)))

/-- PMU_SAMPLE_ENABLE (R601). -/
def effPmuSampleEnable (die : Nat) (s : State) : State :=
  if 6 ≤ die || !s.dieUp die then s
  else
    let b := pmuBlk die
    let seed := s.fget die (PMU_SEED.SEED.inBlk b)
    let s1 := s.fset die (PMU_SAMPLE.EN.inBlk b) 1
    { s1 with samplers := mapSet s1.samplers die { s1.sampler die with lfsr := if seed = 0 then 1 else seed } }

/-- One step of the Galois LFSR with polynomial x³² + x²² + x² + x + 1 (R596). -/
def lfsrStep (l : Nat) : Nat := if l % 2 = 1 then (l / 2) ^^^ 0x80200003 else l / 2

/-- SAMPLE_TAG (R596, R597): the interval has expired, and the record of a tagged bundle (C-die) or instruction (Q-die) is written:
its flag bits, the bundle index or cycles from fetch to retire, the virtual PC, the VALID slots or cycles from dispatch to
retire, and the cycles from issue to the last completion. -/
def effSampleTag (die flags a pc n last : Nat) (s : State) : State :=
  let b := pmuBlk die
  if 6 ≤ die || !s.dieUp die || !s.fbit die (PMU_SAMPLE.EN.inBlk b) then s
  else
    let sm := s.sampler die
    let s1 : State := { s with samplers := mapSet s.samplers die { sm with lfsr := lfsrStep sm.lfsr } }
    let t := BitVec.ofNat 64 (s.tmkNs die)
    if isC die then
      let w0 := 1 + flags % 8 * 2 ^ 8 + s.fget die SEQ_STATUS.STEP * 2 ^ 16 + a % 2 ^ 32 * 2 ^ 32
      let w2 := n % 2 ^ 16 + last % 2 ^ 32 * 2 ^ 32
      s1.sbRecord die [BitVec.ofNat 64 w0, BitVec.ofNat 64 ((s.td die).cycle - (s.td die).start), BitVec.ofNat 64 w2, t]
    else
      let w0 := 3 + flags % 16 * 2 ^ 8 + (32 * (die - 4) + s.fget die (PMU_SAMPLE.HART.inBlk b)) * 2 ^ 16 + a % 2 ^ 32 * 2 ^ 32
      s1.sbRecord die [BitVec.ofNat 64 w0, BitVec.ofNat 64 pc, BitVec.ofNat 64 (n % 2 ^ 32), t]

/-- PMU_SB_CLEAR (R602). -/
def effPmuSbClear (die : Nat) (s : State) : State :=
  if 6 ≤ die || !s.dieUp die then s
  else
    let s1 := s.fsets die [(PMU_SB_CTRL.STOPPED.inBlk (pmuBlk die), 0), (PMU_SB_CTRL.CLEAR.inBlk (pmuBlk die), 0)]
    { s1 with samplers := mapSet s1.samplers die { s1.sampler die with held := 0 } }

/-! ## The commands of this file: each one's effect, committed -/

/-- PERIOD_TRIGGER (R576). -/
def execPeriodTrigger (t : Nat) (s : State) : Host.Outcome State Fault Refusal :=
  s.commit (effPeriodTrigger t s)

/-- STRANDLINE_RECORD_WRITE (R574). -/
def execStrandlineRecordWrite (late : List Nat) (s : State) : Host.Outcome State Fault Refusal :=
  s.commit (effStrandlineRecordWrite late s)

/-- FLASH_COPY_DONE (R578). -/
def execFlashCopyDone (s : State) : Host.Outcome State Fault Refusal :=
  s.commit (effFlashCopyDone s)

/-- CURSOR_WRITE (R584). -/
def execCursorWrite (source page : Nat) (s : State) : Host.Outcome State Fault Refusal :=
  s.commit (effCursorWrite source page s)

/-- PAGE_FETCH_DONE (R580). -/
def execPageFetchDone (s : State) : Host.Outcome State Fault Refusal :=
  s.commit (effPageFetchDone s)

/-- COUNTER_OVERFLOW (R589). -/
def execCounterOverflow (die : Nat) (core : Option Nat) (i inc : Nat) (s : State) : Host.Outcome State Fault Refusal :=
  s.commit (effCounterOverflow die core i inc s)

/-- EVEN_COUNTER_READ (R591). -/
def execEvenCounterRead (agent : Agent) (die : Nat) (core : Option Nat) (i : Nat) (s : State) :
    Host.Outcome State Fault Refusal :=
  s.commit (effEvenCounterRead agent die core i s)

/-- PMU_SAMPLE_ENABLE (R601). -/
def execPmuSampleEnable (die : Nat) (s : State) : Host.Outcome State Fault Refusal :=
  s.commit (effPmuSampleEnable die s)

/-- SAMPLE_TAG (R596). -/
def execSampleTag (die flags a pc n last : Nat) (s : State) : Host.Outcome State Fault Refusal :=
  s.commit (effSampleTag die flags a pc n last s)

/-- PMU_SB_CLEAR (R602). -/
def execPmuSbClear (die : Nat) (s : State) : Host.Outcome State Fault Refusal :=
  s.commit (effPmuSbClear die s)

end Sys2Proof.Machine
end

