-- ==== Sys2Proof/Machine/Boot.lean ====
section
/-!
DEFINITION. Lighthouse: images (R553, R554), the counter log (R556), the boot-step record and steps (R557 to R561), start-up
(R562), tokens (R563, R564), attestation (R566) and the mailbox (R567, R568); power-up and power loss (R510, R607).
-/
namespace Sys2Proof.Machine

/-! ## Images -/

/-- The image slots of the flash (R555). -/
def imageBase (slot : Nat) : Nat := if slot = 0 then 0x1000000 else 0x4800000
def imageMax : Nat := 56 * 2 ^ 20

/-- A stage entry of an image header (R553): type, offset, size, load address, digest. -/
structure Stage where
  typ : Nat
  off : Nat
  size : Nat
  load : Nat
  digest : List Byte
  clean : Bool
  deriving DecidableEq, Repr

def State.imageStages (s : State) (slot : Nat) : List Stage :=
  let b := imageBase slot
  (List.range (min 8 (s.flashNum (b + 6) 1))).map (fun i =>
    let e := b + 0x90 + 64 * i
    { typ := s.flashNum e 1, off := s.flashNum (e + 4) 4, size := s.flashNum (e + 8) 4, load := s.flashNum (e + 16) 8,
      digest := s.flashRead (e + 24) 32,
      clean := decide (s.flashNum (e + 1) 3 = 0) && decide (s.flashNum (e + 12) 4 = 0) && decide (s.flashNum (e + 56) 8 = 0) })

/-- The stage of a type, where the image holds one. -/
def State.stageOf (s : State) (slot typ : Nat) : Option Stage := (s.imageStages slot).find? (fun x => x.typ = typ)

def State.stageBytes (s : State) (slot : Nat) (x : Stage) : List Byte := s.flashRead (imageBase slot + x.off) x.size

def State.imageSvn (s : State) (slot : Nat) : Nat := s.flashNum (imageBase slot + 8) 4
def State.rootKey (s : State) (slot : Nat) : List Byte := s.flashRead (imageBase slot + 0x10) 64
def State.ownerKey (s : State) (slot : Nat) : List Byte := s.flashRead (imageBase slot + 0x50) 64

/-- Lighthouse accepts the image of a slot (R553, R554). -/
def State.imageOk (s : State) (slot : Nat) : Bool :=
  let b := imageBase slot
  let len := s.flashNum (b + 0x0C) 4
  let st := s.imageStages slot
  let dig := Config.sm3 (s.flashRead b 0x290)
  let count := fun (t : Nat) => (st.filter (fun x => decide (x.typ = t))).length
  s.flashNum b 4 = 0x4842524C && s.flashNum (b + 4) 2 = 1 && 1 ≤ s.flashNum (b + 6) 1 && s.flashNum (b + 6) 1 ≤ 8 &&
  s.flashNum (b + 7) 1 = 0 && s.flashNum (b + 0x310) 240 = 0 && 0x400 ≤ len && len ≤ imageMax &&
  st.all (fun x => x.clean && 1 ≤ x.typ && x.typ ≤ 3) && count 1 = 1 && count 2 = 1 && count 3 ≤ 1 &&
  s.imageSvn slot ≤ 64 && s.lht.svn ≤ s.imageSvn slot &&
  decide (Config.sm3 (s.rootKey slot) = Config.rootHash) && Config.sm2Verify (s.rootKey slot) dig (s.flashRead (b + 0x290) 64) &&
  (match s.lht.owner with
   | none => true
   | some o => decide (Config.sm3 (s.ownerKey slot) = o) && Config.sm2Verify (s.ownerKey slot) dig (s.flashRead (b + 0x2D0) 64)) &&
  st.all (fun x => decide (x.off + x.size ≤ len) && decide (Config.sm3 (s.stageBytes slot x) = x.digest)) &&
  st.all (fun x => x.typ ≠ 2 || (decide (slabBase ≤ x.load) && decide (x.load + x.size ≤ 0x40010000000)))

/-! ## The counter log (R556) -/

/-- Entry `i` of the counter log: hours, power cycles, start-ups, entry number; none where its CRC fails. -/
def State.counterEntry (s : State) (i : Nat) : Option (Nat × Nat × Nat × Nat) :=
  let a := 0x100000 + 32 * i
  let bs := s.flashRead a 28
  if crc32 (bs.map BitVec.toNat) = s.flashNum (a + 28) 4 then
    some (s.flashNum a 8, s.flashNum (a + 8) 8, s.flashNum (a + 16) 8, s.flashNum (a + 24) 4)
  else none

/-- The counters take the values of the valid entry with the highest number. -/
def State.scanCounters (s : State) : State :=
  let places := ((s.lht.flash.filter (fun c => decide (0x100000 ≤ c.1) && decide (c.1 < 0x200000))).map
    (fun c => (c.1 - 0x100000) / 32)).dedup
  places.foldl (fun t i =>
    match t.counterEntry i with
    | some (h, p, n, k) =>
      if t.lht.place.isNone || t.lht.entry < k then
        { t with lht := { t.lht with hours := h, powers := p, starts := n, entry := k, place := some i } }
      else t
    | none => t)
    { s with lht := { s.lht with hours := 0, powers := 0, starts := 0, entry := 0, place := none } }

/-- An entry is appended; the half that it begins is erased first. -/
def State.appendCounter (s : State) (hours powers starts : Nat) : State :=
  let next := match s.lht.place with | none => 0 | some i => (i + 1) % 32768
  let half := 0x100000 + next / 16384 * 0x80000
  let s1 := if next % 16384 = 0 then s.flashErase half (half + 0x80000) else s
  let k := s.lht.entry + 1
  let body := leBytes 8 hours ++ leBytes 8 powers ++ leBytes 8 starts ++ leBytes 4 k
  let s2 := s1.flashPut (0x100000 + 32 * next) (body ++ leBytes 4 (crc32 (body.map BitVec.toNat)))
  { s2 with lht := { s2.lht with hours := hours, powers := powers, starts := starts, entry := k, place := some next, entryAt := s.now } }

/-- COUNTER_LOG_APPEND (R556): 0.01 h has passed with TRAY_PWR_OK high. -/
def effCounterLogAppend (s : State) : State :=
  if s.power.phase = .off || !s.power.tray then s else s.appendCounter (s.lht.hours + 1) s.lht.powers s.lht.starts

/-! ## The boot-step record (R557, R558) -/

/-- The record in force: its copy, write number, PRIMARY and step table. -/
structure BootRec where
  copy : Nat
  num : Nat
  primary : Nat
  table : List Nat
  deriving DecidableEq, Repr

/-- A copy of the record, where its CRC holds. -/
def State.bootCopy (s : State) (c : Nat) : Option BootRec :=
  let a := c * 0x80000
  if crc32 ((s.flashRead a 272).map BitVec.toNat) = s.flashNum (a + 272) 4 then
    some ⟨c, s.flashNum a 8, s.flashNum (a + 8) 1 % 2, (s.flashRead (a + 16) 256).map BitVec.toNat⟩
  else none

/-- The valid copy with the higher write number; a record of zeros where neither copy is valid. -/
def State.bootRec (s : State) : BootRec :=
  match s.bootCopy 0, s.bootCopy 1 with
  | some a, some b => if a.num < b.num then b else a
  | some a, none => a
  | none, some b => b
  | none, none => ⟨1, 0, 0, List.replicate 256 0⟩

/-- The record is written into the other copy. -/
def State.putRec (s : State) (r : BootRec) (primary : Nat) (table : List Nat) : State :=
  let body := leBytes 8 (r.num + 1) ++ leBytes 1 primary ++ leBytes 7 0 ++ table.map (fun v => BitVec.ofNat 8 v)
  s.flashPut ((1 - r.copy) * 0x80000) (body ++ leBytes 4 (crc32 (body.map BitVec.toNat)))

def State.stepByte (s : State) (slot : Nat) : Nat := s.bootRec.table.getD slot 0

def State.setStep (s : State) (slot v : Nat) : State :=
  let r := s.bootRec
  s.putRec r r.primary (r.table.set slot v)

/-- The slots of R558. -/
def optionalStep (slot : Nat) : Bool := (0x08 ≤ slot && slot ≤ 0x0B) || (0x20 ≤ slot && slot < 0x80)
def knownStep (slot : Nat) : Bool := slot ≤ 2 || optionalStep slot

/-- The outcome of the start of a step (R559). -/
inductive StepStart where
  | run | alternate | skip | halt
  deriving DecidableEq, Repr

/-- The fields of LHT_BOOT, on both Q-dies. -/
def State.boot (s : State) (f : FieldRef) (v : Nat) : State := (s.fset 4 f v).fset 5 f v

/-- A step starts (R559). -/
def State.stepBegin (s : State) (slot : Nat) : State × StepStart :=
  let b := s.stepByte slot
  let alt := b / 64 % 2 = 1
  let t := s.boot LHT_BOOT.LAST_SLOT slot
  if b / 32 % 2 = 1 then (s, .skip)
  else if b % 4 = 2 then
    if optionalStep slot then (s.setStep slot 0x20, .skip)
    else if alt then (s, .halt)
    else (t.setStep slot 0xC0, .alternate)
  else (t.setStep slot (0x80 + b % 128), if alt then .alternate else .run)

/-- A step succeeds. -/
def State.stepDone (s : State) (slot : Nat) : State := s.setStep slot (s.stepByte slot / 32 % 4 * 32)

/-- The byte of a step that has failed. -/
def failByte (b : Nat) : Nat := b / 32 % 4 * 32 + min 2 (b % 4 + 1)

/-- A step fails. -/
def State.stepFail (s : State) (slot : Nat) : State := s.setStep slot (failByte (s.stepByte slot))

/-- A step that is not optional has failed: a record, and a package reset (R559). -/
def State.failReset (s : State) (slot : Nat) : State := ((s.stepFail slot).fixedCause 0x85 slot).packageReset

/-- The package halts (R561). -/
def State.halt (s : State) : State := ({ s with lht := { s.lht with harbour := false } } : State).boot LHT_BOOT.HALTED 1 |>.updPower (fun p => { p with phase := .started })

/-! ## Start-up (R562) -/

/-- The eight Jetty links (R16). -/
def jettyLinks : List (Nat × Nat) := [(0, 1), (2, 3), (0, 2), (1, 3), (0, 4), (1, 4), (2, 5), (3, 5)]

/-- A link at the end of link-up (R250): up at a rate, or failed. -/
def State.bringLink (s : State) (a b rate : Nat) (ok : Bool) : State :=
  s.linkAll a b (fun t d k p =>
    if ok then
      t.fsets d [(JTY_STATUS.STATE.inBlk k, jUP), (JTY_STATUS.RATE.inBlk k, rate), (JTY_STATUS.PEER_DIE.inBlk k, p),
        (JTY_STATUS.PEER_LEVEL.inBlk k, (Config.revlevel p).toNat), (JTY_CTRL.RATE.inBlk k, rate)]
    else t.fsets d [(JTY_STATUS.STATE.inBlk k, jFAILED), (JTY_CTRL.RATE.inBlk k, rate)])

/-- VOLT of every point and the tenant coefficients from the calibration stage (R494, R522, R562). -/
def State.calibrate (s : State) (slot : Nat) : State :=
  match s.stageOf slot 3 with
  | none => s
  | some x =>
    let b := s.stageBytes slot x
    let s1 := foldN 6 (fun t d => foldN 16 (fun u n =>
      let vmin := (Config.vmin d n).toNat
      let v := Config.calVolt b d n
      if vmin ≤ v && v ≤ vmin + 100 then u.fset d ((pwr d PWR_VF.VOLT).plus (8 * n)) v else u) t) s
    foldN 8 (fun t k => t.wr shDie 0x180 (0x100 + 8 * k) (BitVec.ofNat 64 (Config.calCoef b k).toNat)) s1

/-- The Shelf channels train (R558, R559); `bad` names those that do not. -/
def State.trainShelf (s : State) (bad : List Nat) : State :=
  foldN 64 (fun t ch =>
    let down := fun (u : State) => u.fset (shfDie ch) (shfRef ch SHF_CH_STATUS.STATE) 3
    match t.stepBegin (0x40 + ch) with
    | (u, .skip) => down u
    | (u, _) =>
      if bad.contains ch then ((down u).logErr (shfDie ch) 3 0x09 (ch % 32) 0x5 0).stepFail (0x40 + ch) else u.stepDone (0x40 + ch)) s

/-- Companion admission starts at the sites that the configuration code allows (R4, R451, R559). -/
def State.admitSites (s : State) : State :=
  foldN 2 (fun t i =>
    let st := t.fget shDie (cfgState i)
    if t.fbit shDie PKG_CFGCODE.FUSED && st ≠ 1 then t.admitSite i
    else
      match t.stepBegin (0x0A + i) with
      | (u, .skip) => u.fset (4 + i) UCI_STATUS.STATE 5
      | (u, _) => u.admitSite i) s

/-- The Harbour stage is loaded and the harts start (R562). -/
def State.loadHarbour (s : State) (slot : Nat) : State :=
  match s.stageOf slot 2 with
  | none => s
  | some x =>
    let s1 : State := { s with slab := memWriteN s.slab (x.load - slabBase) (s.stageBytes slot x), lht := { s.lht with harbour := true } }
    s1.boot LHT_BOOT.READY 1

/-- The steps after the image of slot 0x01 has been accepted. -/
def State.startStage (s : State) (slot : Nat) (alt : Bool) (shelfBad : List Nat) : State :=
  let s1 := (s.boot LHT_BOOT.IMAGE slot).boot LHT_BOOT.IMAGE_ALT (b2n alt)
  let s2 := s1.calibrate slot
  let s3 := if levelMismatch then s2.fixedCause 0x81 (bits (s2.rd shDie 0x180 0x020) 8 0) else s2
  let s4 := effShelfInit (s3.trainShelf shelfBad)
  let s5 := if s4.direct = 0 then s4.fset shDie SHF_SPLIT.DIRECT 1 else s4
  (s5.admitSites.loadHarbour slot).updPower (fun p => { p with phase := .started })

/-- Start-up from the release of reset: `linksBad` names the Jetty links that do not come up, `shelfBad` the Shelf channels that
do not train. -/
def State.startUp (s : State) (linksBad : List (Nat × Nat)) (shelfBad : List Nat) : State :=
  let s1 := ({ s with dieMode := [] } : State).scanCounters
  let s2 := s1.appendCounter s1.hours (s1.lht.powers + b2n s1.lht.rose) (s1.lht.starts + 1)
  let s3 : State := { s2.boot LHT_STARTCNT.COUNT (s2.lht.starts % 2 ^ 64) with lht := { s2.lht with rose := false } }
  -- steps found in progress have failed
  let r := s3.bootRec
  let s4 := if r.table.any (fun b => decide (128 ≤ b)) then
      s3.putRec r r.primary (r.table.map (fun b => if 128 ≤ b then failByte b else b))
    else s3
  let (s5, how0) := s4.stepBegin 0x00
  if how0 = .halt then s5.halt
  else
    let rate := b2n (decide (how0 = .alternate))
    let up := fun (l : Nat × Nat) => !linksBad.contains l && !linksBad.contains (l.2, l.1)
    let s6 := jettyLinks.foldl (fun t l => t.bringLink l.1 l.2 rate (up l)) (s5.boot LHT_BOOT.JETTY_REDUCED rate)
    if !jettyLinks.all up then s6.failReset 0x00
    else
      let (s7, how1) := (s6.stepDone 0x00).stepBegin 0x01
      if how1 = .halt then s7.halt
      else
        let alt := decide (how1 = .alternate)
        let p := s7.bootRec.primary
        let slot := if alt then 1 - p else p
        if s7.imageOk slot then s7.startStage slot alt shelfBad else s7.failReset 0x01

/-- PKG_RESET_DEASSERT (R510, R562). Start-up after a reset that Lighthouse caused is the same. -/
def effPkgResetDeassert (linksBad : List (Nat × Nat)) (shelfBad : List Nat) (s : State) : State :=
  let s1 := s.updPower (fun p => { p with resetN := true })
  if s.power.phase = .off || s.power.phase = .started || s.isStopped then s1
  else if !s.power.coolant || !s.power.tray then s1
  else s1.startUp linksBad shelfBad

/-! ## Steps of Harbour firmware (R559, R560, R570) -/

/-- The slots that LHT_PROGRESS accepts. -/
def progressSlot (slot : Nat) : Bool :=
  slot = 1 || slot = 2 || slot = 8 || slot = 9 || (0x20 ≤ slot && slot < 0x40)

/-- The slots that Lighthouse or hardware runs alone: a write that names one is ignored (R570). -/
def ownStep (slot : Nat) : Bool := slot = 0 || slot = 0x0A || slot = 0x0B || (0x40 ≤ slot && slot < 0x80)

/-- LHT_PROGRESS_WRITE (R570): event 1 started, 2 done, 3 failed. -/
def effLhtProgressWrite (die event slot : Nat) (s : State) : State :=
  if !isQ die || !s.dieUp die then s
  else
    let s1 := s.fsets die [(LHT_PROGRESS.EVENT, event % 4), (LHT_PROGRESS.SLOT, slot % 256)]
    if ownStep slot then s
    else if !progressSlot slot || !s1.lht.harbour || s1.fbit 4 LHT_BOOT.DONE then s1
    else if event = 1 then
      match s1.stepBegin slot with
      | (t, .halt) => t.halt
      | (t, .alternate) => if slot = 2 then t.boot LHT_BOOT.STACK_CONSERVATIVE 1 else t
      | (t, _) => t
    else if event = 2 then
      let t := s1.stepDone slot
      if slot = 1 then t.boot LHT_BOOT.DONE 1 else t
    else if event = 3 then (if optionalStep slot then s1.stepFail slot else s1.failReset slot)
    else s1

/-- BOOT_WATCHDOG_EXPIRY (R560): the step in progress fails, or slot 0x01, and the package is reset. -/
def effBootWatchdogExpiry (s : State) : State :=
  if !s.lht.harbour || s.fbit 4 LHT_BOOT.DONE || !s.runs then s
  else
    let open_ := (List.range 256).filter (fun i => progressSlot i && i ≠ 1 && decide (128 ≤ s.stepByte i))
    s.failReset (open_.headD 1)

/-- The boot step of a site ends with its admission (R451, R559). -/
def State.siteStep (s : State) (i : Nat) : State :=
  if s.stepByte (0x0A + i) < 128 then s
  else if s.fbit (4 + i) UCI_CTRL.ADMIT then s
  else if s.fget (4 + i) UCI_STATUS.STATE = 4 then s.stepDone (0x0A + i)
  else s.stepFail (0x0A + i)

/-- COMPANION_ADMISSION, DESCRIPTOR_RECEIVED and ADMISSION_TIMEOUT (R451), with the boot step that ends there. -/
def effCompanionAdmission (site modules rate : Nat) (cxl present : Bool) (s : State) : State :=
  if site < 2 then (linkAdmission site modules rate cxl present s).siteStep site else s
def effDescriptorReceived (site : Nat) (bytes : List Byte) (s : State) : State :=
  if site < 2 then (linkDescriptor site bytes s).siteStep site else s
def effAdmissionTimeout (site : Nat) (s : State) : State :=
  if site < 2 then (linkTimeout site s).siteStep site else s

/-! ## The mailbox (R567 to R569) -/

/-- A write of LHT_CMD (R567, R569): a non-zero OP starts a command; an unknown one ends at once with RESULT 0x01. -/
def State.lhtStart (s : State) (die op arg : Nat) : State :=
  if s.fbit die LHT_CMD.BUSY || !(s.fbit die LHT_BOOT.READY || s.fbit die LHT_BOOT.HALTED) then s
  else
    let s1 := s.fsets die [(LHT_CMD.ARG, arg % 2 ^ 32), (LHT_CMD.OP, op % 256)]
    if op % 256 = 0 then s1
    else if 9 < op % 256 then s1.fset die LHT_CMD.RESULT 1
    else s1.fsets die [(LHT_CMD.BUSY, 1), (LHT_CMD.RESULT, 0)]

def State.lhtEnd (s : State) (die result : Nat) : State := s.fsets die [(LHT_CMD.RESULT, result), (LHT_CMD.BUSY, 0)]

/-- The command that runs at a Q-die's mailbox. -/
def State.lhtRuns (s : State) (die op : Nat) : Bool :=
  isQ die && s.fbit die LHT_CMD.BUSY && s.fget die LHT_CMD.OP = op && s.power.phase ≠ .off

def State.lhtArg (s : State) (die : Nat) : Nat := s.fget die LHT_CMD.ARG

def State.bufBytes (s : State) (die o n : Nat) : List Byte :=
  (((List.range 64).flatMap (fun i => leBytes 8 (s.rd die 0x1B0 (0x800 + 8 * i)).toNat)).drop o).take n

def State.putBuf (s : State) (die : Nat) (bs : List Byte) : State :=
  foldN 64 (fun t i => t.wr die 0x1B0 (0x800 + 8 * i) (BitVec.ofNat 64 (leNat ((bs.drop (8 * i)).take 8)))) s

/-- The running image slot. -/
def State.imageSlot (s : State) : Nat := s.fget 4 LHT_BOOT.IMAGE

/-- MEAS of a companion that was measured and admitted, otherwise zeros (R566). -/
def State.siteMeas (s : State) (i : Nat) : List Byte :=
  if s.fget (4 + i) UCI_STATUS.STATE = 4 && s.fbit (4 + i) UCI_CTRL.MEASURE then
    (List.range 4).flatMap (fun n => leBytes 8 (s.rd (4 + i) 0x160 (0x160 + 8 * n)).toNat)
  else List.replicate 32 0

/-- The DIGEST of a stage of the running image. -/
def State.measOf (s : State) (typ : Nat) : List Byte :=
  match s.stageOf s.imageSlot typ with
  | some x => x.digest
  | none => List.replicate 32 0

/-- The attestation report without its signature (R566). -/
def State.report (s : State) (nonce user : List Byte) : List Byte :=
  let tab := s.bootRec.table
  let flags := b2n s.lht.owner.isSome + 2 * b2n s.lht.granted + 4 * s.imageSlot +
    8 * b2n (tab.any (fun b => decide (b / 32 % 4 ≠ 0))) + 16 * b2n levelMismatch
  let reg := fun (off : Nat) => leBytes 8 (s.rd shDie 0x180 off).toNat
  leBytes 4 0x52545441 ++ leBytes 2 1 ++ leBytes 2 flags ++ reg 0x018 ++ reg 0x010 ++ reg 0x008 ++ leBytes 4 s.lht.svn ++
  leBytes 4 (s.imageSvn s.imageSlot) ++ leBytes 8 s.lht.starts ++ leBytes 8 s.lht.powers ++ leBytes 8 s.hours ++ Config.rootHash ++
  s.lht.owner.getD (List.replicate 32 0) ++ s.measOf 1 ++ s.measOf 2 ++ s.siteMeas 0 ++ s.siteMeas 1 ++
  Config.sm3 (tab.map (fun v => BitVec.ofNat 8 v)) ++ nonce ++ user ++ leBytes 8 s.arbNs ++ List.replicate 56 0

/-- ATTEST (R566, R568). -/
def effAttest (die : Nat) (s : State) : State :=
  if !s.lhtRuns die 1 then s
  else
    let r := s.report (s.bufBytes die 0 32) (s.bufBytes die 32 64)
    let sig := Config.sm2Sign s.freeCtr (Config.sm3 r)
    (({ s with freeCtr := s.freeCtr + 1 } : State).putBuf die (r ++ sig)).lhtEnd die 0

/-- GET_IDENTITY (R568). -/
def effGetIdentity (die : Nat) (s : State) : State :=
  if !s.lhtRuns die 2 then s
  else (s.putBuf die (Config.identityKey ++ Config.identityCert ++ s.bufBytes die 128 384)).lhtEnd die 0

/-- FLASH_READ (R568); `bad` is a flash error. -/
def effFlashRead (die : Nat) (bad : Bool) (s : State) : State :=
  if !s.lhtRuns die 3 then s
  else if 2 ^ 27 < s.lhtArg die * 512 + 512 then s.lhtEnd die 2
  else if bad then s.lhtEnd die 4
  else (s.putBuf die (s.flashRead (s.lhtArg die * 512) 512)).lhtEnd die 0

/-- FLASH_WRITE (R568) into the image slot not running. -/
def effFlashWrite (die : Nat) (bad : Bool) (s : State) : State :=
  if !s.lhtRuns die 4 then s
  else if imageMax < s.lhtArg die * 512 + 512 then s.lhtEnd die 2
  else if s.lhtRuns (peerQ die) 5 then s.lhtEnd die 5
  else if bad then s.lhtEnd die 4
  else (s.flashPut (imageBase (1 - s.imageSlot) + s.lhtArg die * 512) (s.bufBytes die 0 512)).lhtEnd die 0

/-- IMAGE_COMMIT (R557, R568). -/
def effImageCommit (die : Nat) (s : State) : State :=
  if !s.lhtRuns die 5 then s
  else
    let other := 1 - s.imageSlot
    if !s.imageOk other then s.lhtEnd die 3
    else
      let r := s.bootRec
      (s.putRec r other (r.table.set 1 (r.table.getD 1 0 / 128 * 128))).lhtEnd die 0

/-- ADVANCE_SVN (R568). -/
def effAdvanceSvn (die : Nat) (s : State) : State :=
  if !s.lhtRuns die 6 then s
  else
    let v := s.lhtArg die
    if 64 < v || s.imageSvn s.imageSlot < v || s.imageSvn (1 - s.imageSlot) < v || !s.imageOk 0 || !s.imageOk 1 then s.lhtEnd die 2
    else ({ s with lht := { s.lht with svn := max s.lht.svn v } }).lhtEnd die 0

/-- A token is accepted (R563): its kind, its ARG and the key that must verify it. -/
def State.tokenOk (s : State) (t : List Byte) (kind : Nat) : Bool :=
  let key := if kind = 3 || s.lht.owner.isNone then s.rootKey s.imageSlot else s.ownerKey s.imageSlot
  dNum t 0 4 = kind && dNum t 4 4 = 0 && dNum t 8 8 = Config.serial.toNat && dNum t 16 8 = s.lht.starts &&
  Config.sm2Verify key (Config.sm3 (t.take 32)) ((t.drop 32).take 64)

/-- TOKEN (R563, R564, R568, R581). -/
def effToken (die : Nat) (s : State) : State :=
  if !s.lhtRuns die 7 then s
  else
    let t := s.bufBytes die 0 96
    let arg := dNum t 0x18 8
    if s.tokenOk t 1 && arg ≠ 0 && arg < 8 then
      let (s1, ok) := s.stlClear arg
      s1.lhtEnd die (if ok then 0 else 5)
    else if s.tokenOk t 2 && arg < 4 then
      let named := (List.range 2).filterMap (fun q => if arg / 2 ^ q % 2 = 1 then some (4 + q) else none)
      let s1 : State := { s with debugOn := (s.debugOn ++ named).dedup, lht := { s.lht with granted := true } }
      (s1.fixedCause 0x86 arg).lhtEnd die 0
    else s.lhtEnd die 3

/-- BOOTREC_RETRY (R559, R568). -/
def effBootrecRetry (die : Nat) (s : State) : State :=
  if !s.lhtRuns die 8 then s
  else
    let slot := s.lhtArg die
    if !knownStep slot then s.lhtEnd die 2
    else (s.setStep slot (s.stepByte slot / 128 * 128 + s.stepByte slot % 32)).lhtEnd die 0

/-- FUSE_OWNER (R563, R568). -/
def effFuseOwner (die : Nat) (s : State) : State :=
  if !s.lhtRuns die 9 then s
  else
    let key := s.bufBytes die 0 64
    let t := s.bufBytes die 64 96
    let h := Config.sm3 key
    if s.lht.owner.isSome then s.lhtEnd die 5
    else if !s.tokenOk t 3 || dNum t 0x18 8 ≠ leNat (h.take 8) then s.lhtEnd die 3
    else ({ s with lht := { s.lht with owner := some h } }).lhtEnd die 0

/-! ## Power -/

/-- POWER_UP (R573, R607): the management domain starts with the package held in reset, and an empty ring. -/
def effPowerUp (s : State) : State :=
  if s.power.phase ≠ .off then s
  else
    let s1 := s.updPower (fun p => { p with phase := .held })
    let n := (s.strand.flashSeq + 1) % 2 ^ 32
    { s1 with strand := { s1.strand with nextSeq := n }, lht := { s1.lht with entryAt := s.now } }

/-- POWER_LOSS (R510): only the boot flash and the fuses are kept. A copy being written is cut short: its slot and its header are erased
already (R578). -/
def effPowerLoss (s : State) : State :=
  let r := State.reset
  let cfg := s.regs.filter (fun (e : Nat × Word) => e.1 = regKey shDie 0x180 0x008 && bitAt e.2 7)
  let st : Strand := { Strand.reset with
    copies := s.strand.copies, writes := s.strand.writes,
    flashSeq := s.strand.flashSeq, permEnd := s.strand.permEnd, directEnd := s.strand.directEnd }
  { r with
    pending := s.pending, out := s.out, now := s.now, freeCtr := s.freeCtr, regs := cfg, dieMode := allHeld, strand := st,
    power := { Power.reset with coolant := false, tray := false, resetN := false, phase := .off },
    lht := { s.lht with granted := false, harbour := false } }

/-! ## The commands of this file: each one's effect, committed -/

/-- COMPANION_ADMISSION (R451). -/
def execCompanionAdmission (site modules rate : Nat) (cxl present : Bool) (s : State) : Host.Outcome State Fault Refusal :=
  s.commit (effCompanionAdmission site modules rate cxl present s)

/-- DESCRIPTOR_RECEIVED (R452). -/
def execDescriptorReceived (site : Nat) (bytes : List Byte) (s : State) : Host.Outcome State Fault Refusal :=
  s.commit (effDescriptorReceived site bytes s)

/-- ADMISSION_TIMEOUT (R451). -/
def execAdmissionTimeout (site : Nat) (s : State) : Host.Outcome State Fault Refusal :=
  s.commit (effAdmissionTimeout site s)

/-- PKG_RESET_DEASSERT (R562). -/
def execPkgResetDeassert (linksBad : List (Nat × Nat)) (shelfBad : List Nat) (s : State) : Host.Outcome State Fault Refusal :=
  s.commit (effPkgResetDeassert linksBad shelfBad s)

/-- BOOT_WATCHDOG_EXPIRY (R560). -/
def execBootWatchdogExpiry (s : State) : Host.Outcome State Fault Refusal :=
  s.commit (effBootWatchdogExpiry s)

/-- LHT_PROGRESS_WRITE (R570). -/
def execLhtProgressWrite (die event slot : Nat) (s : State) : Host.Outcome State Fault Refusal :=
  s.commit (effLhtProgressWrite die event slot s)

/-- COUNTER_LOG_APPEND (R556). -/
def execCounterLogAppend (s : State) : Host.Outcome State Fault Refusal :=
  s.commit (effCounterLogAppend s)

/-- ATTEST (R566). -/
def execAttest (die : Nat) (s : State) : Host.Outcome State Fault Refusal :=
  s.commit (effAttest die s)

/-- GET_IDENTITY (R568). -/
def execGetIdentity (die : Nat) (s : State) : Host.Outcome State Fault Refusal :=
  s.commit (effGetIdentity die s)

/-- FLASH_READ (R568). -/
def execFlashRead (die : Nat) (bad : Bool) (s : State) : Host.Outcome State Fault Refusal :=
  s.commit (effFlashRead die bad s)

/-- FLASH_WRITE (R568). -/
def execFlashWrite (die : Nat) (bad : Bool) (s : State) : Host.Outcome State Fault Refusal :=
  s.commit (effFlashWrite die bad s)

/-- IMAGE_COMMIT (R568). -/
def execImageCommit (die : Nat) (s : State) : Host.Outcome State Fault Refusal :=
  s.commit (effImageCommit die s)

/-- ADVANCE_SVN (R568). -/
def execAdvanceSvn (die : Nat) (s : State) : Host.Outcome State Fault Refusal :=
  s.commit (effAdvanceSvn die s)

/-- TOKEN (R563). -/
def execToken (die : Nat) (s : State) : Host.Outcome State Fault Refusal :=
  s.commit (effToken die s)

/-- BOOTREC_RETRY (R568). -/
def execBootrecRetry (die : Nat) (s : State) : Host.Outcome State Fault Refusal :=
  s.commit (effBootrecRetry die s)

/-- FUSE_OWNER (R568). -/
def execFuseOwner (die : Nat) (s : State) : Host.Outcome State Fault Refusal :=
  s.commit (effFuseOwner die s)

/-- POWER_UP (R607). -/
def execPowerUp (s : State) : Host.Outcome State Fault Refusal :=
  s.commit (effPowerUp s)

/-- POWER_LOSS (R510). -/
def execPowerLoss (s : State) : Host.Outcome State Fault Refusal :=
  s.commit (effPowerLoss s)

end Sys2Proof.Machine
end

