-- ==== Sys2Proof/Machine/RegAccess.lean ====
section
/-!
DEFINITION. Register writes and reads with what they start (R7 to R12, R23), the registers of the companion sites (R10, R453), the
I3C target (R611) and the debug module's system bus (R339, R614).
-/
namespace Sys2Proof.Machine

/-! ## Field access types (R11) -/

/-- The bits that a field holds after a write. -/
def fieldAfter (a : Acc) (lh : Bool) (old new : Nat) : Nat :=
  match a with
  | .rw => new
  | .w1c => old &&& (old ^^^ new)
  | .w1s => old ||| new
  | .lh => if lh then new else old
  | .ro | .rc | .wo => old

/-- A register after a write of `w` to it; reserved bits keep reading 0 (R9, R11). -/
def afterWrite (d : RegDesc) (lh : Bool) (old w : Word) : Word :=
  d.fields.foldl (fun v f => setBits v f.hi f.lo (fieldAfter f.acc lh (bits old f.hi f.lo) (bits w f.hi f.lo))) old

/-- A register after a read: its RC fields are cleared (R11). -/
def afterRead (d : RegDesc) (old : Word) : Word :=
  d.fields.foldl (fun v f => if f.acc = .rc then setBits v f.hi f.lo 0 else v) old

/-- Does a write change the value of an LH field? -/
def touchesLh (d : RegDesc) (old w : Word) : Bool :=
  d.fields.any (fun f => f.acc = .lh && bits old f.hi f.lo ≠ bits w f.hi f.lo)

/-- The address of a register (R7). -/
def regAddr (die blk off : Nat) : Nat := 0x7F000000000 + regKey die blk off

/-- The Q-die that received an access, in whose ERR_ block its violation is logged (R8, R11). -/
def State.regQ (s : State) (agent : Agent) (addr : Nat) : Nat :=
  match agent with
  | .host q | .debug q | .fabric q _ => 4 + q % 2
  | .hart h => hartDie h
  | .companion i => 4 + i % 2
  | _ => let d := (regAt addr).1; if d < 6 then qOf d else s.arb

/-- A write of `w` under the field access types alone, with the access violation of R11, logged on the Q-die that received it. -/
def State.regGen (s : State) (agent : Agent) (d : RegDesc) (die blk off : Nat) (w : Word) : State :=
  let lh := decide (agent = .lighthouse)
  let h := regHolder d die
  let old := s.rd h blk off
  let s1 := s.wr h blk off (afterWrite d lh old w)
  if !lh && touchesLh d old w then s1.logErr (s.regQ agent (regAddr die blk off)) 2 0x0C 0 0x1 (regAddr die blk off) else s1

/-- A word with one field as it stands in `old`. -/
def keepField (old w : Word) (hi lo : Nat) : Word := setBits w hi lo (bits old hi lo)

/-! ## Writes that start something, or that are ignored in part

Each function answers a write to a register of its blocks that has more to it than the field access types; none where
they are all. -/

/-- SEQ_ (R93, R97, R100 to R105, R434). -/
def State.seqWrite (s : State) (g : Word → State) (name : String) (die : Nat) (w : Word) : Option State :=
  if name = "SEQ_CTRL" then
    let s1 := if bitAt w 0 then effSeqLoad die s else s
    let s2 := if bitAt w 1 then effSeqStart die s1 else s1
    some (if bitAt w 2 then effSeqAbort die s2 else s2)
  else if name = "SEQ_FAULT" then
    let t := g w
    some (t.wr die 0 0x020 (clearFirst (t.rd die 0 0x020) 11))
  else if name = "SEQ_TOKEN_ADD" then some (effSeqTokenAdd die (bits w 3 0) (bits w 31 16) s)
  else if name = "SEQ_BALLAST" then some (if s.seqState die = seqAWAITING then s else g w)
  else if ["SEQ_AWAIT_TIMEOUT", "SEQ_TICKBASE", "SEQ_PARAM", "SEQ_WIN_BASE", "SEQ_WIN_LIMIT", "SEQ_WIN_PHYS", "SEQ_WIN_ATTR"].contains name then
    some (if s.running die then s else g w)
  else none

/-- TC_ (R56, R61). -/
def State.tcWrite (s : State) (name : String) (die core : Nat) (w : Word) : Option State :=
  if name = "TC_FAULT" then some (effTcFaultClear die core w s)
  else if name = "TC_INJECT" then
    let s1 := if bitAt w 1 then effTcInjectSlabParity die core s else s
    some (if bitAt w 0 then effTcInjectResidue die core s1 else s1)
  else none

/-- MFS_ (R181, R185 to R187). -/
def State.mfsWrite (s : State) (g : Word → State) (name : String) (die v : Nat) (w : Word) : Option State :=
  let fixed := s.fbit die MFS_SPLIT.LOCK || s.seqState die ≠ seqIDLE
  if name = "MFS_CTRL" then
    let s1 := (g (setBits w 1 0 0)).checkFenceReq die v
    let s2 := if bitAt w 1 then effVaultInit die v s1 else s1
    some (if bitAt w 0 then effVaultFence die v s2 else s2)
  else if name = "MFS_INJECT" then
    some (if bitAt w 16 then effVaultInjectArm die v (bits w 10 8) (bits w 7 0) s else g w)
  else if name = "MFS_SPLIT" then
    if fixed then some s
    else
      let t := g (if 4 < bits w 2 0 then keepField (s.rd die 0x200 0x100) w 2 0 else w)
      some (if t.fget die MFS_SPLIT.TIMING = s.fget die MFS_SPLIT.TIMING then t else t.freqEvent die)
  else if name = "MFS_CRUMB" then some (if s.fbit die MFS_SPLIT.LOCK then s else g w)
  else none

/-- GLZ_ (R213, R216, R217). -/
def State.glzWrite (s : State) (g : Word → State) (name : String) (die v : Nat) (w : Word) : Option State :=
  if name = "GLZ_AREA" then
    let (b, n) := (bits w 10 0, bits w 31 16)
    some (if !bitAt w 63 then s.areaWrite die v b n false (bitAt w 62)
      else if bitAt w 62 then effGlzAreaDiscard die v b n s else effGlzAreaResume die v b n s)
  else if name = "GLZ_JOURNAL" then
    some (if s.seqState die = seqRUNNING || s.seqState die = seqAWAITING then s else g w)
  else if name = "GLZ_APPLY" then
    if s.fbit die GLZ_APPLY.BUSY then some s
    else if bits w 49 48 = 1 then some (effGlzApplyCommit die (bits w 43 32) (bits w 15 0) s)
    else if bits w 49 48 = 2 then some (effGlzApplyDiscard die (bits w 43 32) (bits w 15 0) s)
    else some (g w)
  else none

/-- SLC_ and RLC_ of a cache agent (R293, R295, R296, R298, R299). -/
def State.cacheWrite (s : State) (g : Word → State) (name : String) (die : Nat) (w : Word) : Option State :=
  let a := if isQ die then die - 4 else die + 2
  let busy := s.fbit die (s.cacheRef a CACHE_RNG_OP.BUSY)
  let is := fun (x : String) => name = "SLC_" ++ x || name = "RLC_" ++ x
  if is "CTRL" then
    let t := g (keepField (s.rd die (cacheBlk die) 0) w 0 0)
    some (if bitAt w 0 then effCacheEnable a t else effCacheDisable a t)
  else if is "RNG_BASE" || is "RNG_LEN" then some (if busy then s else g w)
  else if is "RNG_OP" then
    let op := bits w 1 0
    let t :=
      if busy then
        (if bitAt w 62 then s.fset die (s.cacheRef a CACHE_RNG_OP.REJECT) 0 else s).fset die (s.cacheRef a CACHE_RNG_OP.SKIP_LOCKED)
          (bits w 3 3)
      else g w
    some (if op = 1 then effRngClean a t else if op = 2 then effRngInvalidate a t
      else if op = 3 then effRngCleanInvalidate a t else t)
  else none

/-- PWR_ and the EVT_ registers of a die's point, limits and table (R494, R515, R517, R519). -/
def State.pwrWrite (s : State) (g : Word → State) (agent : Agent) (name : String) (die blk off : Nat) (w : Word) : Option State :=
  let old := s.rd die blk off
  if name = "PWR_POINT" || name = "EVT_QPOINT" then some (effPwrReqWrite die (bits w 3 0) s)
  else if name = "PWR_THERM" || name = "EVT_QTHERM" then
    let w1 := if isC die && (bits w 63 56 < 80 || 94 < bits w 63 56) then keepField old w 63 56 else w
    some (g (if bits w 55 48 < 85 || 104 < bits w 55 48 then keepField old w1 55 48 else w1))
  else if name = "PWR_VF" || name = "EVT_QVF" then
    let (v, vmin) := (bits w 31 16, bits old 15 0)
    if agent = .lighthouse && (v < vmin || vmin + 100 < v) then
      some (s.logErr (s.regQ agent (regAddr die blk off)) 2 0x0C 0 0x1 (regAddr die blk off))
    else some (g w)
  else none

/-- ERR_ and PMU_ (R532, R548, R597, R601, R602). -/
def State.errWrite (s : State) (g : Word → State) (name : String) (die : Nat) (w : Word) : Option State :=
  if name = "ERR_FENCE" then some (if bitAt w 63 then effErrFenceGo die (bits w 5 0) s else g w)
  else if name = "PMU_SAMPLE" then
    some (if bitAt w 63 then effPmuSampleEnable die (g w) else g w)
  else if name = "PMU_SB_CTRL" then
    let t := g (setBits w 61 61 0)
    some (if bitAt w 61 then effPmuSbClear die t else t)
  else none

/-- HL_ of a hart (R326, R336, R340, R341). OFFLINE offlines the hart where another agent writes it (R337); the hart's own write sets the bit. -/
def State.hlWrite (s : State) (g : Word → State) (agent : Agent) (name : String) (hart : Nat) (w : Word) : Option State :=
  if name = "HL_CTRL" then some (if bitAt w 8 && agent ≠ .hart hart then effHartOffline hart s else g w)
  else if name = "HL_NOTIFY" then some (if 2 ≤ s.hlState hart then s else g w)
  else if name = "HL_MTIMECMP" then some ((g w).timerCheck hart)
  else if name = "HL_REMOTE_ERR" then
    some (if bitAt w 63 then (g w).updHart hart (fun x => { x with irq16 := false }) else s)
  else none

/-- Does each die's striped part hold its share of a reserve of r (R349)? -/
def State.reserveFits (s : State) (r : Nat) : Bool :=
  (List.range 4).all (fun d => r * 2 ^ 30 + (if d = 0 && r ≠ 0 then 2 ^ 21 else 0) ≤ (4 - s.fget d MFS_SPLIT.SPLIT) * 2 ^ 35)

/-- SHF_ and TDL_ (R349, R361, R363, R364). -/
def State.shelfRegWrite (s : State) (g : Word → State) (name : String) (w : Word) : Option State :=
  let used := s.fget shDie TDL_STATUS.ALLOCATED ≠ 0
  if name = "SHF_SPLIT" then
    let d := bits w 4 0
    let keep := s.fbit shDie SHF_SPLIT.LOCK || used || 16 < d
    let w1 := setBits w 62 62 0
    let t := g (if keep then keepField (s.rd shDie 0x050 0x100) w1 4 0 else w1)
    some (if bitAt w 62 then effShelfInit t else t)
  else if name = "TDL_CFG" then
    let r := bits w 6 0
    let old := s.rd shDie 0x060 0x000
    if s.fbit shDie TDL_CFG.LOCK || used || 64 < r then some (g (keepField old w 6 0))
    else if !s.reserveFits r then some ((g (keepField old w 6 0)).fset shDie TDL_CFG.CFG_ERR 1)
    else some { g w with spare := 2048 * r }
  else if name = "TDL_CMD" then
    let (op, page, acct) := (bits w 2 0, bits w 39 20, bits w 57 52)
    if op ≠ 0 && s.fbit shDie TDL_CMD.BUSY then some s
    else if op = 1 then some (effAlloc page acct s)
    else if op = 2 then some (effFree page s)
    else if op = 3 then some (effFlood page s)
    else if op = 4 then some (effEbb page s)
    else if op = 5 then some (effQuery page s)
    else some (g w)
  else none

/-- BWF_ (R379, R395, R400, R403). -/
def State.bwfWrite (s : State) (g : Word → State) (name : String) (die blk : Nat) (w : Word) : Option State :=
  let p := 16 * (die - 4) + (blk - 0x100)
  if name = "BWF_CTRL" then
    let t := g (keepField (s.rd die blk 0x008) (setBits w 1 1 0) 0 0)
    let t1 := effBwfEnWrite p (bitAt w 0) t
    some (if bitAt w 1 then effBwfRetrain p t1 else t1)
  else if name = "BWF_ASSIGN" then some (effBwfAssignWrite (bitAt w 63) (bits w 11 0) s)
  else if name = "BWF_DR_PATH" || name = "BWF_DR_ADDR" then some (if s.fbit die BWF_DR_CTRL.BUSY then s else g w)
  else if name = "BWF_DR_CTRL" then
    if s.fbit die BWF_DR_CTRL.BUSY then some s
    else
      let t := g (setBits w 0 0 0)
      some (if bitAt w 0 then effBwfDrGo die t else t)
  else none

/-- COL_ and TMK_ (R409, R433). -/
def State.colRegWrite (s : State) (g : Word → State) (name : String) (die off : Nat) (w : Word) : Option State :=
  let n := (off - 0x100) / 16
  if name = "COL_GRP_TABLE" then some (if s.groupBusy n then s else g w)
  else if name = "COL_GRP_CFG" then
    some (if s.groupBusy n then s else if bitAt w 63 then effColGroupValid die n (bits w 15 0) s else g w)
  else if name = "TMK_SET" then some (effTmkSetWrite die w s)
  else none

/-- HPU_ and UCI_ (R442, R448, R451, R459, R462). -/
def State.hostRegWrite (s : State) (g : Word → State) (agent : Agent) (name : String) (die off : Nat) (w : Word) : Option State :=
  let q := die - 4
  if name = "HPU_LOSS" then some (if bitAt w 1 then effHpuLossDiscard q s else s)
  else if name = "HPU_DPORT_ADDR" then some (s.dport q (.setAddr ((off - 0x100) / 16) (bits w 43 2 * 4)))
  else if name = "UCI_CTRL" then
    let t := g (keepField (s.rd die 0x160 0x008) w 0 0)
    let st := s.fget die UCI_STATUS.STATE
    if agent = .lighthouse then some (if bitAt w 0 && (st = 0 || st = 5) then t.admitSite q else t)
    else some (g w)
  else none

/-- Does a journal region lie in the Shelf direct window, homed on one Q-die (R347, R471, R486)? -/
def State.regionHomed (s : State) (base bytes die : Nat) : Bool :=
  let half := s.direct * 0x800000000
  let lo := 0x08000000000 + (if die = 4 then 0 else half)
  lo ≤ base && base + bytes ≤ lo + half

/-- HQ_ (R467, R471, R483 to R488, R537). -/
def State.hqRegWrite (s : State) (g : Word → State) (name : String) (die off : Nat) (w : Word) : Option State :=
  let on := s.fbit die HQ_CTRL.ENABLE
  if name = "HQ_DB" then some (effDoorbell (queueOf die (off / 8)) w s)
  else if name = "HQ_DB_PEER" then
    some (if s.fbit die HQ_STATUS.TAKEOVER then effDoorbell (queueOf (peerQ die) ((off - 0x8000) / 8)) w s else s)
  else if name = "HQ_CTRL" then
    let ready := s.fbit die HQ_JRNL.VALID && s.fbit die HQ_JMIR.VALID
    some (g (if bitAt w 63 && !ready then keepField (s.rd die 0x170 0x4000) w 63 63 else w))
  else if name = "HQ_CTX" then some (if on then s else g w)
  else if name = "HQ_JRNL" then
    let n := min (bits w 15 0) 32768
    some (if on || !s.regionHomed (bits w 43 21 * 2 ^ 21) (n * 512) die then s else g w)
  else if name = "HQ_JMIR" then
    let n := min (s.fget die HQ_JRNL.RECORDS) 32768
    some (if on || !s.regionHomed (bits w 43 21 * 2 ^ 21) (n * 512) (peerQ die) then s else g w)
  else if name = "HQ_QCMD" then
    let (op, q) := (bits w 12 11, bits w 10 0)
    if s.fbit die HQ_QCMD.BUSY || op = 0 then some s
    else if op = 1 then some (effHqEnable die q s)
    else if op = 2 then some (effHqDisable die q s)
    else some (effHqQuery die q s)
  else none

/-- PKG_ID written (R24, R378): where it changes, the ports that are up resend IDENT, and the collective instances send what waits for a valid ID. -/
def State.pkgIdWrite (s : State) (w : Word) : State :=
  let s0 := s.fsets shDie [(PKG_ID.ID_VALID, bits w 31 31), (PKG_ID.ID, bits w 11 0)]
  let s1 := if s0.idValid = s.idValid && s0.ownId = s.ownId then s0 else s0.identAll
  if s.idValid then s1 else s1.coll.insts.foldl (fun t x => t.colStep x.group x.seq) s1

/-- PKG_, EVT_, LHT_ and STL_ (R4, R230, R268, R305, R520, R524, R569, R570, R572, R584). -/
def State.pkgWrite (s : State) (g : Word → State) (name : String) (die : Nat) (w : Word) : Option State :=
  if name = "PKG_ID" then some (s.pkgIdWrite w)
  else if name = "PKG_CFGCODE" then
    -- once fused the code does not change (R4)
    let old := s.rd shDie 0x180 0x008
    some (if bitAt old 7 then (g w).wr shDie 0x180 0x008 old else g w)
  else if name = "PKG_DIE_RESET" then
    some (foldN 4 (fun t i => if bitAt w i then effDieReset i t else t) s)
  else if name = "PKG_DIRGEN" then some (if s.rd shDie 0x180 0x038 = 0 then g w else s)
  else if name = "PKG_CAP" then some (effPkgCapWrite w s)
  else if name = "PKG_RAT_CTRL" then some (if bitAt w 0 then effRatCommit s else s)
  else if name = "EVT_SW" then some (effEvtSwWrite (bits w 15 0) s)
  else if name = "LHT_CMD" then some (s.lhtStart die (bits w 7 0) (bits w 39 8))
  else if name = "LHT_PROGRESS" then some (effLhtProgressWrite die (bits w 9 8) (bits w 7 0) s)
  else if name = "LHT_BUF" then some (if s.fbit die LHT_CMD.BUSY then s else g w)
  else if name = "STL_CURSOR" then some (effCursorWrite (bits w 58 56) (bits w 23 12) s)
  else none

/-- A write of `w` to the register at a die, block and offset that the die serves: ignored where no register is (R9). -/
def State.regWrite (s : State) (agent : Agent) (die blk off : Nat) (w : Word) : State :=
  match findReg s.arb die blk off with
  | none => s
  | some d =>
    let g := fun (x : Word) => s.regGen agent d die blk off x
    let own :=
      if isC die then
        if blk = 0 then s.seqWrite g d.name die w
        else if blk < 0x200 then s.tcWrite d.name die (blk - 0x100) w
        else if blk < 0x240 then s.mfsWrite g d.name die (blk - 0x200) w
        else if blk < 0x280 then s.glzWrite g d.name die (blk - 0x240) w
        else if d.name = "JTY_CTRL" then
          some (if bitAt w 8 then effJtyRejoin die (blk - 0x290) (g (setBits w 8 8 0)) else g w)
        else if blk = 0x2A0 then s.cacheWrite g d.name die w
        else if blk = 0x2B0 then s.pwrWrite g agent d.name die blk off w
        else s.errWrite g d.name die w
      else if blk < 0x20 then s.hlWrite g agent d.name (32 * (die - 4) + blk) w
      else if blk = 0x040 then s.cacheWrite g d.name die w
      else if blk < 0x100 then s.shelfRegWrite g d.name w
      else if blk < 0x130 then s.bwfWrite g d.name die blk w
      else if blk < 0x150 then s.colRegWrite g d.name die off w
      else if blk < 0x170 then s.hostRegWrite g agent d.name die off w
      else if blk = 0x170 then s.hqRegWrite g d.name die off w
      else if blk = iomBlk then s.iomWrite g d.name die off w
      else
        match s.pwrWrite g agent d.name die blk off w with
        | some t => some t
        | none =>
          match s.errWrite g d.name die w with
          | some t => some t
          | none => s.pkgWrite g d.name die w
    own.getD (g w)

/-! ## Reads that change something (R11, R12) -/

/-- The counter that a counter register holds. -/
def counterAt (die blk off : Nat) : Option (Option Nat × Nat) :=
  if blk ≠ pmuBlk die then none
  else if 0x180 ≤ off && off < 0x200 then some (none, (off - 0x180) / 8)
  else if isC die && 0x1000 ≤ off && off < 0x2000 then some (some ((off - 0x1000) / 0x40), (off - 0x1000) % 0x40 / 8)
  else none

/-- What a read of a register leaves: RC fields are cleared, a record of the log or of the report queue is removed, and an even
counter's partner is latched (R11, R402, R545, R599). -/
def State.regTaken (s : State) (die blk off : Nat) : State :=
  match findReg s.arb die blk off with
  | none => s
  | some d =>
    if d.name = "ERR_REC0" then s.setErrs die ((s.errs die).drop 1)
    else if d.name = "BWF_EVT_HI" then s.popEvt
    else
      match counterAt die blk off with
      | some (core, i) =>
        if i % 2 = 0 then s.wr die blk 0x010 (BitVec.ofNat 64 (bits (s.rd die blk (cntOff core (i + 1))) 47 0)) else s
      | none => s.wr (regHolder d die) blk off (afterRead d (s.rd (regHolder d die) blk off))

/-! ## Who reaches which register -/

/-- Where a register access ends: a site's registers are occupied only while its state in the configuration code is 0x1; the reserved
states read as 0x2 (R3, R10). -/
inductive RegWay where
  /-- R8: the width or the alignment is wrong. -/
  | bad
  /-- The registers of a companion site, over its sideband (R10, R453). -/
  | site (i : Nat)
  /-- Nothing answers: reads return 0 and writes are ignored (R9, R256, R614). -/
  | none
  | reg (die blk off : Nat)
  deriving DecidableEq, Repr

def State.regWay (s : State) (agent : Agent) (addr len : Nat) : RegWay :=
  let (die, blk, off) := regAt addr
  if len ≠ 8 || addr % 8 ≠ 0 then .bad
  else if die = 6 || die = 7 then
    let st := s.fget shDie (cfgState (die - 6))
    if s.closed || st ≠ 1 then .none else .site (die - 6)
  else if 7 < die then .none
  else if agent = .lighthouse || s.answers die blk then .reg die blk off
  else .none

/-- May an agent send a register access now? A host's link is up and its earlier data-port requests are performed (R437), a hart runs, a companion is
admitted, a debug module is authenticated (R339), but in a stopped package and in reset (R614). -/
def State.mayAccess (s : State) (agent : Agent) : Bool :=
  match agent with
  | .lighthouse => true
  | .hart h => s.hartRuns h && !s.closed
  | .host q => s.linkUp q && (s.hostPort q).tlps = [] && !s.closed
  | .i3c => s.power.phase ≠ .off
  | .debug q => s.power.phase ≠ .off && (s.closed || (s.debugOn.contains (4 + q) && s.dieUp (4 + q)))
  | .companion site => site < 2 && s.admitted site && !s.closed
  | .engine => !s.closed
  | .fabric .. => !s.closed

/-- The registers that a fabric request may write or read, and when (R380). -/
def State.fabMay (s : State) (manager : Bool) (die blk off : Nat) (write : Bool) : Bool :=
  isQ die &&
  (if (0x100 ≤ blk && blk < 0x110) || blk = 0x120 || (blk = 0x140 && (off = 0x008 || off = 0x018)) then
     !write || manager || s.fbit shDie BWF_MGR.OPEN
   else blk = 0x180 && (off = 0x000 || off = 0x018 || off = 0x020) && !write)

/-- An access that R8 refuses. -/
def State.regBad (s : State) (agent : Agent) (addr : Nat) : State :=
  let t := s.logErr (s.regQ agent addr) 2 0x0C 0 0x2 addr
  match agent with
  | .hart _ => t
  | _ => t.emit (.refused agent addr)

/-- An access sent to a companion on its sideband (R453). -/
def State.askSite (s : State) (agent : Agent) (i addr : Nat) (write : Bool) (w : Word) : State :=
  let m : FabMsg := { typ := if write then mWRREG else mRD, hops := 0, dst := 0, src := 0, tag := 0, agent := 0, aux := 0,
                      addr := addr % 2 ^ 32, units := if write then [w.toNat] else [] }
  (s.updSite i (fun p => { p with side := p.side ++ [(agent, addr, write)] })).emit (.site i m)

/-- The answer to an access that R8 refuses: a hart takes a load (5) or store (7) access fault. -/
def State.regRefuse (s : State) (agent : Agent) (addr code : Nat) : State :=
  match agent with
  | .hart h => (s.regBad agent addr).hartTrap h code addr
  | _ => s.regBad agent addr

/-- A register write that reaches the package: performed and answered. -/
def State.regPut (s : State) (agent : Agent) (addr len : Nat) (w : Word) : State :=
  match s.regWay agent addr len with
  | .bad => s.regRefuse agent addr 7
  | .site i => s.askSite agent i addr true w
  | .none => s.emit (.done agent addr)
  | .reg die blk off => (s.regWrite agent die blk off w).emit (.done agent addr)

/-- A register read that reaches the package. -/
def State.regGet (s : State) (agent : Agent) (addr len : Nat) : State :=
  match s.regWay agent addr len with
  | .bad => s.regRefuse agent addr 5
  | .site i => s.askSite agent i addr false 0
  | .none => s.emit (.regData agent 0)
  | .reg die blk off => (s.regTaken die blk off).emit (.regData agent (s.regVal die blk off))

/-! ## The rows -/

/-- Is an address in the register range (R218)? -/
def isRegAddr (a : Nat) : Bool := 0x7F000000000 ≤ a && a < 0x80000000000

/-- A register access by an agent; a fabric request has the rights of R380. -/
def State.mayReg (s : State) (agent : Agent) (addr : Nat) (write : Bool) : Bool :=
  match agent with
  | .fabric _ m => let (die, blk, off) := regAt addr; s.fabMay m die blk off write
  | _ => true

/-- REGISTER_WRITE (R11): a write of `len` bytes at a register address. -/
def effRegisterWrite (agent : Agent) (addr len : Nat) (w : Word) (s : State) : State :=
  if !isRegAddr addr || !s.mayAccess agent then s
  else if !s.mayReg agent addr true then s.emit (.refused agent addr)
  else s.regPut agent addr len w

/-- PKG_ID_WRITE (R24, R378): PKG_ID of either Q-die written. -/
def effPkgIdWrite (agent : Agent) (die : Nat) (w : Word) (s : State) : State :=
  if !isQ die || !s.mayAccess agent || !s.answers die 0x180 then s
  else if !s.mayReg agent (regAddr die 0x180 0) true then s.emit (.refused agent (regAddr die 0x180 0))
  else (s.pkgIdWrite w).emit (.done agent (regAddr die 0x180 0))

/-- READ_CLEAR (R11, R12): a read of a register. -/
def effReadClear (agent : Agent) (addr len : Nat) (s : State) : State :=
  if !isRegAddr addr || !s.mayAccess agent then s
  else if !s.mayReg agent addr false then s.emit (.refused agent addr)
  else s.regGet agent addr len

/-- The static address and the provisioned ID of the I3C target (R611). -/
def State.i3cStatic (s : State) : Nat := 0x40 + s.fget shDie PKG_ID.LOC_ID % 16
def i3cProvisioned : Nat := 0x3A7 * 2 ^ 33 + Config.serial.toNat % 2 ^ 32

/-- The JTAG IDCODE of a Q-die, and whether EXTEST and INTEST are performed rather than act as BYPASS (R612). -/
def jtagIdcode (q : Nat) : Nat := Config.qStepping.toNat % 16 * 2 ^ 28 + (0xB008 + q) * 2 ^ 12 + 0x9CB
def State.scanPerformed (s : State) : Bool := !s.power.resetN

/-- Is a register open to I3C: die indices 0 to 5 (R611)? -/
def i3cOpen (addr : Nat) : Bool := 0x7F000000000 ≤ addr && addr < 0x7F600000000

/-- I3C_ADDRESS_WRITE (R611). -/
def effI3cAddressWrite (addr : Word) (s : State) : State :=
  if s.mayAccess .i3c then { s with i3c := some addr.toNat } else s

/-- I3C_REGISTER_WRITE (R611). -/
def effI3cRegisterWrite (addr w : Word) (s : State) : State :=
  if !s.mayAccess .i3c then s
  else if i3cOpen addr.toNat then s.regPut .i3c addr.toNat 8 w
  else s.emit (.refused .i3c addr.toNat)

/-- I3C_PRIVATE_READ (R611): the register that the address write before it names; after another read the spec gives no value (log
entry 3). -/
def effI3cPrivateRead (s : State) : State :=
  if !s.mayAccess .i3c then s
  else match s.i3c with
  | none => let (v, t) := s.free; t.emit (.regData .i3c v)
  | some a =>
    let t : State := { s with i3c := none }
    if i3cOpen a then t.regGet .i3c a 8 else t.emit (.refused .i3c a)

/-- SYSTEM_BUS_ACCESS (R339, R614): a debug module's access to memory or registers. An access to memory fails with sberror 7 while
the package is stopped or in reset; one that no address answers has sberror 2, and one of a wrong alignment or size 3 or 4. -/
def effSystemBusAccess (q addr len : Nat) (write : Bool) (data : List Byte) (s : State) : State :=
  let fail := fun (t : State) (code : Nat) => ({ t with sberr := mapSet t.sberr q code }).emit (.refused (.debug q) addr)
  let n := if write then data.length else len
  -- the mailbox is open to JTAG before debug is granted (R567, R612)
  let mail := isQ (regAt addr).1 && (regAt addr).2.1 = 0x1B0 && s.answers (4 + q) 0x1B0
  if 2 ≤ q || !(s.mayAccess (.debug q) || (isRegAddr addr && mail)) then s
  else if isRegAddr addr then
    if n ≠ 8 then fail (s.logErr (s.regQ (.debug q) addr) 2 0x0C 0 0x2 addr) 4
    else if addr % 8 ≠ 0 then fail (s.logErr (s.regQ (.debug q) addr) 2 0x0C 0 0x2 addr) 3
    else if write then s.regPut (.debug q) addr 8 (BitVec.ofNat 64 (leNat data)) else s.regGet (.debug q) addr 8
  else if s.closed then fail s 7
  else if n ≠ 1 && n ≠ 2 && n ≠ 4 && n ≠ 8 && n ≠ 16 then fail s 4
  else if addr % n ≠ 0 then fail s 3
  else if write then
    match s.anyWrite (engOf (4 + q)) addr data false with
    | none => fail s 2
    | some (false, t) => t
    | some (true, t) => t.emit (.done (.debug q) addr)
  else
    match s.anyRead (engOf (4 + q)) addr n with
    | (.got d p, t) => t.emit (.data (.debug q) addr d p)
    | (.wait, t) => t
    | (_, t) => fail t 2

/-! ## The commands of this file: each one's effect, committed -/

/-- REGISTER_WRITE (R11). -/
def execRegisterWrite (agent : Agent) (addr len : Nat) (w : Word) (s : State) : Host.Outcome State Fault Refusal :=
  s.commit (effRegisterWrite agent addr len w s)

/-- PKG_ID_WRITE (R24). -/
def execPkgIdWrite (agent : Agent) (die : Nat) (w : Word) (s : State) : Host.Outcome State Fault Refusal :=
  s.commit (effPkgIdWrite agent die w s)

/-- I3C_ADDRESS_WRITE (R611). -/
def execI3cAddressWrite (addr : Word) (s : State) : Host.Outcome State Fault Refusal :=
  s.commit (effI3cAddressWrite addr s)

/-- I3C_REGISTER_WRITE (R611). -/
def execI3cRegisterWrite (addr w : Word) (s : State) : Host.Outcome State Fault Refusal :=
  s.commit (effI3cRegisterWrite addr w s)

/-- I3C_PRIVATE_READ (R611). -/
def execI3cPrivateRead (s : State) : Host.Outcome State Fault Refusal :=
  s.commit (effI3cPrivateRead s)

/-- SYSTEM_BUS_ACCESS (R614). -/
def execSystemBusAccess (q addr len : Nat) (write : Bool) (data : List Byte) (s : State) : Host.Outcome State Fault Refusal :=
  s.commit (effSystemBusAccess q addr len write data s)

/-- READ_CLEAR (R11). -/
def execReadClear (agent : Agent) (addr len : Nat) (s : State) : Host.Outcome State Fault Refusal :=
  s.commit (effReadClear agent addr len s)

end Sys2Proof.Machine
end

