-- ==== Sys2Proof/Machine/FabServe.lean ====
section
/-!
DEFINITION. Fabric requests served at their destination and the answers that their requesters receive (R255, R379, R380, R385 to
R389), and the requests of companions in raw streaming mode (R453).
-/
namespace Sys2Proof.Machine

/-! ## Answers at the requester (R386 to R389) -/

/-- What a requester receives: data with poison, an acknowledgement, an old value, or a failure: 0 the completion timeout, 1 a
NAK, 2 home unavailable. -/
inductive FabGot where
  | data (bytes : List Byte) (poison : Bool)
  | ack
  | old (v : Nat)
  | fail (kind : Nat)
  deriving DecidableEq, Repr

/-- DETAIL of R479 for a failed line of a transfer. -/
def dmaFail (kind : Nat) : Nat := [0x3, 0x4, 0x2].getD kind 0x4

/-- A transfer goes on after one of its lines has ended. -/
def State.dmaOn (s : State) (job : Nat) : State :=
  match s.dmas.find? (fun d => decide (d.no = job)) with
  | some d => (s.dmaGo job (d.len - d.pos)).dmaEnd job
  | none => s

/-- A line of a get reaches its destination; none while the destination must wait. -/
def State.getLine (s : State) (r : FabReq) (job dst off n : Nat) (d : List Byte) (p : Bool) : Option State :=
  let bs := (d.drop off).take n
  let s1 := if p then s.updDma job (fun x => x.failed 0x5 dst false) else s
  match s1.farOf dst with
  | some (pkg, at_) => some (if p then (s1.updDma job (fun x => { x with acked := x.acked + n })).dmaOn job else s1.fabAsk r.q (.dmaPut job n) (wrMsg r.msg.agent pkg at_ bs))
  | none =>
    let seat := match s1.dmas.find? (fun d => d.no = job) with | some d => s1.dmaSeat d | none => (r.q, 0)
    match s1.writeFrom seat.1 seat.2 dst bs p with
    | none => some ((s1.updDma job (fun x => x.failed 0x6 dst false)).dmaOn job)
    | some (false, _) => none
    | some (true, t) => some ((t.updDma job (fun x => { x with acked := x.acked + n })).dmaOn job)

/-- A line of another package that a Glaze unit's front command has asked for. -/
def State.glzLine (s : State) (die v : Nat) (src : GlzSrc) (addr : Nat) (d : List Byte) (p : Bool) : State :=
  match (s.glzUnit die v).cmds with
  | c :: _ =>
    if c.src = src then
      s.setFront die v { c with remote := memWriteN c.remote addr d, have_ := c.have_ ++ [addr / 64],
                                rbad := if p then c.rbad ++ [addr / 64] else c.rbad }
    else s
  | [] => s

/-- The outcome of a request reaches its origin; none while it must wait, and no change where the answer is not of its
kind. -/
def State.deliver (s : State) (r : FabReq) (g : FabGot) : Option State :=
  match r.origin, g with
  | .hartLoad h a n own mask, .data d p =>
    some (s.giveLoad h a (mergeMask ((d.drop (if d.length < 64 then 0 else a % 64)).take n) own mask) p)
  | .hartLoad h a _ _ _, .fail _ => some (s.hartTrap h 5 a)
  | .hartAmo h a n, .old v => some (s.emit (.data (.hart h) a (leBytes n v) false))
  | .hartAmo h a _, .fail _ => some (s.hartTrap h 7 a)
  | .hartStore h id _, .ack => some (s.storeDone h id)
  | .hartStore h id a, .fail k => some (s.storeFails h id k a)
  | .dmaGet job dst off n, .data d p => s.getLine r job dst off n d p
  | .dmaGet job dst _ n, .fail k =>
    some ((s.updDma job (fun x => { x.failed (dmaFail k) dst false with acked := x.acked + n })).dmaOn job)
  | .dmaPut job n, .ack => some ((s.updDma job (fun x => { x with acked := x.acked + n })).dmaOn job)
  | .dmaPut job n, .fail k =>
    some ((s.updDma job (fun x => { x.failed (dmaFail k) r.msg.addr false with acked := x.acked + n })).dmaOn job)
  | .ratom die id, .old v => some { s with cmdEnds := s.cmdEnds ++ [⟨die, id, none, false, v, true⟩] }
  | .ratom die id, .fail _ => some { s with cmdEnds := s.cmdEnds ++ [⟨die, id, some 0xB, false, 0, false⟩] }
  | .glz die id, .ack => some { s with cmdEnds := s.cmdEnds ++ [⟨die, id, none, false, 0, true⟩] }
  | .glz die id, .fail _ => some { s with cmdEnds := s.cmdEnds ++ [⟨die, id, some 0xB, false, 0, false⟩] }
  | .glzRead die v src addr, .data d p => some (s.glzLine die v src addr d p)
  | .glzRead die v src _, .fail _ =>
    (match (s.glzUnit die v).cmds with
     | c :: _ => some (if c.src = src then s.failFront die v c 0xB else s)
     | [] => some s)
  | .queueGlz q, .ack => some { s with queueEnds := s.queueEnds ++ [(q, none)] }
  | .queueGlz q, .fail _ => some { s with queueEnds := s.queueEnds ++ [(q, some 0xB)] }
  | .queueKey q pkg, .ack => some (s.keyAnswer q pkg true)
  | .queueKey q pkg, .fail _ => some (s.keyAnswer q pkg false)
  | .mirror jid, .ack => some (s.updRec jid (fun x => { x with mirror := x.mirror - 1 }))
  | .mirror _, .fail _ => some (s.fabAsk r.q r.origin r.msg)
  | .queueWr q, .ack => some { s with queueEnds := s.queueEnds ++ [(q, none)] }
  | .queueWr q, .fail k => some { s with queueEnds := s.queueEnds ++ [(q, some (dmaFail k))] }
  | .site i m, .data d p => some (s.emit (.site i (rspMsg mRSPDATA 0 0 m.agent m.tag (b2n p) (unitsOf d))))
  | .site i m, .ack => some (s.emit (.site i (rspMsg mRSPACK 0 0 m.agent m.tag 0 [])))
  | .site i m, .fail k => some (s.emit (.site i (rspMsg mNAK 0 0 m.agent m.tag (if k = 2 then nHOME else nADDRESS) [])))
  | _, _ => none

/-- Does an answer fit what its origin waits for? -/
def FabOrigin.fits (o : FabOrigin) (g : FabGot) : Bool :=
  match o, g with
  | _, .fail _ => true
  | .hartLoad .., .data .. | .dmaGet .., .data .. | .glzRead .., .data .. | .site .., .data .. => true
  | .hartAmo .., .old _ | .ratom .., .old _ => true
  | .hartStore .., .ack | .dmaPut .., .ack | .glz .., .ack | .queueGlz .., .ack | .queueKey .., .ack | .mirror _, .ack
  | .queueWr _, .ack | .site .., .ack => true
  | _, _ => false

/-- Is a place one that messages arrive by: a linked port, this package itself, or an admitted site? -/
def State.fabOpen (s : State) (p : Nat) : Bool :=
  if p < 32 then s.portUp p else p = selfPort || (p < 35 && s.admitted (p - 33))

/-- A message that waits for its home stays in the inbox. -/
def State.holdIn (s : State) (p : Nat) (m : FabMsg) : State := if s.fab.inbox.contains (p, m) then s else s.inbox p m

/-- A response arrives: it ends its request, and the next request of its line leaves. One whose tag is not outstanding is
discarded and counted (R388). -/
def State.answerIn (s : State) (p : Nat) (m : FabMsg) (g : FabGot) : State :=
  match s.fabTake m.tag m.agent with
  | some (r, t) =>
    if !r.origin.fits g then (s.takeIn p m).finc r.q BWF_REQ_CNT.LATE_CNT
    else
      match (t.takeIn p m).deliver r g with
      | some u => u.fabNext r.msg
      | none => s.holdIn p m
  | none =>
    let s1 := s.takeIn p m
    if p < 32 then s1.finc (portDie p) BWF_REQ_CNT.LATE_CNT else s1

/-- The answer of a companion to a register access on its sideband, at the place `35 + site` (R453). -/
def State.sideAnswer (s : State) (i : Nat) (w : Option Word) : State :=
  match (s.site i).side with
  | [] => s
  | (g, a, wr) :: rest =>
    if wr = w.isSome then s
    else (s.updSite i (fun p => { p with side := rest })).sideEnd g a wr (w.getD 0)

/-- RSP_DATA (R386). -/
def effRspData (port : Nat) (m : FabMsg) (s : State) : State :=
  if m.typ ≠ mRSPDATA then s
  else if port = 35 || port = 36 then s.sideAnswer (port - 35) (some (BitVec.ofNat 64 (m.units.headD 0)))
  else if !s.fabOpen port then s
  else
    let bytes := unitBytes m.units
    s.answerIn port m (.data (if m.units.length = 1 then bytes.take 8 else bytes) (m.aux % 2 = 1))

/-- RSP_ACK (R386). -/
def effRspAck (port : Nat) (m : FabMsg) (s : State) : State :=
  if m.typ ≠ mRSPACK then s
  else if port = 35 || port = 36 then s.sideAnswer (port - 35) none
  else if !s.fabOpen port then s
  else s.answerIn port m .ack

/-- RSP_OLD (R387). -/
def effRspOld (port : Nat) (m : FabMsg) (s : State) : State :=
  if m.typ ≠ mRSPOLD || !s.fabOpen port then s else s.answerIn port m (.old (m.units.headD 0 % 2 ^ 64))

/-- RSP_PENDING (R388): the timeout of its request starts again. -/
def effRspPending (port : Nat) (m : FabMsg) (s : State) : State :=
  if m.typ ≠ mRSPPENDING || !s.fabOpen port then s
  else
    let mine := fun (r : FabReq) => decide (r.msg.tag = m.tag && r.msg.agent = m.agent && r.sent)
    let s1 := s.takeIn port m
    if s.fab.reqs.any mine then
      s1.updFab (fun f => { f with reqs := f.reqs.map (fun r => if mine r then { r with at_ := s.now } else r) })
    else if port < 32 then s1.finc (portDie port) BWF_REQ_CNT.LATE_CNT
    else s1

/-- A collective message that was answered with a NAK fails its instance (R420). -/
def State.colNak (s : State) (tag : Nat) : State :=
  match s.coll.insts.find? (fun i => i.group = tag / 1024 && i.seq % 1024 = tag % 1024) with
  | some x => s.colFail x 0x3 true
  | none => s

/-- NAK (R389): the request fails at its requester; a NAK from its target other than NO_ID is reported (R391). -/
def effNak (port : Nat) (m : FabMsg) (s : State) : State :=
  if m.typ ≠ mNAK || !s.fabOpen port then s
  else if m.agent = agCol then (s.takeIn port m).colNak m.tag
  else
    match s.fabTake m.tag m.agent with
    | some (r, _) =>
      let s1 := s.answerIn port m (.fail (if m.aux = nHOME then 2 else 1))
      let s2 := if port < 33 then s1.finc r.q BWF_REQ_CNT.NAK_CNT else s1
      if port < 32 && m.aux ≠ nNOID && m.src = r.msg.dst then s2.faultReport r.q r.msg.dst rNAK else s2
    | none => s.answerIn port m (.fail 1)

/-- FABRIC_TIMEOUT (R388): a request expires at its requester. -/
def effFabricTimeout (tag agent : Nat) (s : State) : State :=
  match s.fabTake tag agent with
  | some (r, t) =>
    match t.deliver r (.fail 0) with
    | some u =>
      let u1 := u.fabNext r.msg
      if r.msg.dst < siteDst 0 then (u1.finc r.q BWF_REQ_CNT.TIMEOUT_CNT).faultReport r.q r.msg.dst rTIMEOUT else u1
    | none => s
  | none => s

/-! ## Requests at their destination (R385) -/

/-- How a request is served: not yet, with an answer, or with an answer that follows when its command ends. -/
inductive Served where
  | hold (s : State)
  | answer (s : State) (m : FabMsg)
  | later (s : State)

/-- The same request again (R255): source, agent, tag and message agree but for the hops. -/
def sameRequest (x : FabSeen) (m : FabMsg) : Bool :=
  x.src = m.src && x.agent = m.agent && x.tag = m.tag && x.msg = { m with hops := x.msg.hops }

/-- A request accepted: its tag is kept, in place of an older request's with that tag (R255). -/
def State.keepTag (s : State) (m : FabMsg) : State :=
  s.updFab (fun f =>
    { f with seen := f.seen.filter (fun x => !(x.src = m.src && x.agent = m.agent && x.tag = m.tag)) ++
      [⟨m.src, m.agent, m.tag, m, none⟩] })

/-- Is the requester the fabric manager, or the fabric open to every package (R380)? -/
def State.isManager (s : State) (serial : Nat) : Bool := serial = s.fget shDie BWF_MGR.MGR_SERIAL

/-- A request served: refused where the rules say so, answered again where its tag is kept, forwarded where it is for another
package. `own` gives the address that it names here: its own, or a companion's after translation. A raw message of a companion that breaks
R390 or R453 is violation 0x5, answered with NAK PROTOCOL (R449). -/
def State.serve (s : State) (p : Nat) (m : FabMsg) (typ : Nat) (act : State → Served) : State :=
  if m.typ ≠ typ || !s.fabOpen p || p = selfPort then s
  else
    let nak := fun (t : State) (code : Nat) => (t.takeIn p m).fabReply p (nakOf t.ownId code m)
    match if p < 32 then msgViolation m else none with
    | some code => (s.takeIn p m).refuseMsg p code m
    | none =>
      if selfPort < p && (m.dst ≠ 0 || m.src ≠ 0 || msgViolation m ≠ none || !(typ = mRD || typ = mWRFULL || typ = mWRMASK)) then
        nak (s.siteViol (p - 33) 0x5 m.addr) nPROTOCOL
      else
      if p < 32 && !s.idValid then nak s nNOID
      else if p < 32 && m.dst ≠ s.ownId then (s.takeIn p m).forward p m
      else
        match s.fab.seen.find? (fun x => sameRequest x m) with
        | some x =>
          (match x.answer with
           | some a => (s.takeIn p m).fabReply p a
           | none => s.takeIn p m)
        | none =>
          match act s with
          | .hold t => t.holdIn p m
          | .answer t a => ((t.takeIn p m).keepTag m).fabReply p a
          | .later t => (t.takeIn p m).keepTag m

/-- A NAK of a code. -/
def State.refuse (s : State) (code : Nat) (m : FabMsg) : Served := .answer s (nakOf s.ownId code m)

/-- A response to a request. -/
def State.reply (s : State) (m : FabMsg) (typ aux : Nat) (units : List Nat) : Served :=
  .answer s (rspMsg typ s.ownId m.src m.agent m.tag aux units)

/-- Does an address lie on a fenced vault (R385)? -/
def State.onFenced (s : State) (a : Nat) : Bool :=
  match s.placeOfAddr a with
  | .stack die o => s.vState die (stackLoc (s.share die) o).1 = vFENCED
  | _ => false

/-- How an address at the destination is reached: refused with a code, its home not up, or served. -/
def State.fabAt (s : State) (a : Nat) : Except Nat Bool :=
  match regionOf a with
  | .stack .. | .shelf _ | .tidal _ =>
    if s.placeOfAddr a = .nowhere then .error nADDRESS
    else if s.homeStopped (a / 64) then .ok false
    else if s.onFenced a then .error nFENCED
    else .ok true
  | .slab die core _ => if !s.dieUp die then .ok false else if s.isFenced die core then .error nFENCED else .ok true
  | .sbuf die _ => .ok (s.dieUp die)
  | _ => .error nADDRESS

/-- The agent number of a companion's requests that go on to another package (log entry 16). -/
def agSite (site : Nat) : Nat := 0x080 + site

/-- A companion's address through its IOMMU (R232, R234): nothing yet while it waits for its tables, else where the line is, here or in another
package; a fault is recorded (R235), and is a request outside the site's IOMMU context, violation 0x5 (R449). -/
def State.siteAddr (s : State) (site a : Nat) (write : Bool) : Option (Option Nat) × State :=
  match s.translate (4 + site) (0x1000 + site) 0 a 64 write with
  | (.wait, t) => (none, t)
  | (.ok (p :: _), t) => (some (some p.2.1), t)
  | (_, t) => (some none, t.siteViol site 0x5 a)

/-- A CXL.cache request of an agent for a line, as it reaches its home: a companion's, of an admitted site in CXL flit mode, goes through the
IOMMU first (R232, R453). One that does not translate is answered with completer abort (R235); one for another package travels there
uncached (R224). Any other agent's names its line. -/
def State.siteReq (s : State) (agent line : Nat) (write : Bool) (m : FabMsg) (f : State → Nat → State) : State :=
  if agent < 7 || 8 < agent then f s line
  else
    let i := agent - 7
    if !s.admitted i || !s.fbit (4 + i) UCI_STATUS.PROTO then s
    else match s.siteAddr i (line * 64) write with
    | (none, t) => t
    | (some none, t) => t.emit (.abort agent (line * 64))
    | (some (some a), t) =>
      if a < 2 ^ 44 then f t (a / 64)
      else if !t.idValid then t.emit (.abort agent (line * 64))
      else t.fabAsk (4 + i) (.site i m) { m with dst := t.dstOf (a / 2 ^ 44), addr := a % 2 ^ 44 }

/-- The read or masked write that a companion's request for a line of another package becomes (R224). -/
def siteRead (agent line : Nat) : FabMsg := rdMsg (agSite (agent - 7)) 0 (line * 64)
def siteWrite (agent line : Nat) (data : List Byte) (mask : Nat) : FabMsg :=
  wrMaskMsg (agSite (agent - 7)) 0 (line * 64) ((data ++ List.replicate 64 (0 : Byte)).take 64) (mask % 2 ^ 64)

/-- A line access served at an address of this package, or handed on for a companion. -/
def State.lineAt (s : State) (p : Nat) (m : FabMsg) (write : Bool) (f : State → Nat → Served) : Served :=
  let here := fun (t : State) (a : Nat) =>
    match t.fabAt a with
    | .error code => t.refuse code m
    | .ok false => .hold t
    | .ok true => f t a
  if p < 32 then here s (m.addr / 64 * 64)
  else
    let i := p - 33
    match s.siteAddr i (m.addr / 64 * 64) write with
    | (none, t) => .hold t
    | (some none, t) => t.refuse nPROTOCOL m
    | (some (some a), t) =>
      if a < 2 ^ 44 then here t a
      else if !t.idValid then t.refuse nADDRESS m
      else .later (t.fabAsk (4 + i) (.site i m) { m with dst := t.dstOf (a / 2 ^ 44), addr := a % 2 ^ 44, agent := agSite i })

/-- A register read or written by the fabric (R8, R380). -/
def State.fabReg (s : State) (port : Nat) (serial addr : Nat) (w : Option Word) : Except Nat (Word × State) :=
  let ag : Agent := .fabric (port / 16) (s.isManager serial)
  let (die, blk, off) := regAt addr
  if addr % 8 ≠ 0 then .error nADDRESS
  else if !s.fabMay (s.isManager serial) die blk off w.isSome then .error nACCESS
  else if !s.answers die blk then .ok (0, s)
  else
    match w with
    | some v => .ok (0, s.regWrite ag die blk off v)
    | none => .ok (s.regVal die blk off, s.regTaken die blk off)

/-- RD (R380, R385): a line, or a register. -/
def effRd (port : Nat) (m : FabMsg) (s : State) : State :=
  s.serve port m mRD (fun t =>
    if m.aux % 2 = 1 then
      if !isRegRange m.addr || 32 ≤ port then t.refuse nADDRESS m
      else
        match t.fabReg port (Config.serialOf m.src).toNat m.addr none with
        | .error code => (if code = nADDRESS then t.logErr (portDie port) 2 0x0C 0 0x2 m.addr else t).refuse code m
        | .ok (v, u) => u.reply m mRSPDATA 0 [v.toNat]
    else
      t.lineAt port m false (fun u a =>
        match u.anyRead engHome a 64 with
        | (.got d p, x) => x.reply m mRSPDATA (b2n p) (unitsOf d)
        | (.wait, x) => .hold x
        | (_, x) => x.refuse nADDRESS m))

/-- A line of memory written under a byte mask by an engine (R283, R312, R385). -/
def State.engPut (s : State) (g : EngCtx) (line : Nat) (d : List Byte) (mask : Nat) : State :=
  let t0 := s.engSnoop g true [line]
  ((t0.memPut line d mask false srcDynamic).loseResv line (fun _ => true)).hostSettle line

/-- Is a write of a package refused in the region that receives another package's records (R487)? -/
def State.partnerShut (s : State) (a src : Nat) : Bool :=
  [4, 5].any (fun d =>
    s.dieUp d && s.fbit d HQ_PARTNER_RX.VALID && s.fget d HQ_PARTNER_RX.BASE * 2 ^ 25 ≤ a &&
    a < s.fget d HQ_PARTNER_RX.BASE * 2 ^ 25 + 2 ^ 25 && s.fget d HQ_PARTNER_RX.ORIGIN ≠ src)

/-- A byte mask as a mask of bits. -/
def maskBytes (mask n : Nat) : List Byte := (List.range n).map (fun i => if mask / 2 ^ i % 2 = 1 then 0xFF else 0)

/-- A line written for the fabric (R385). -/
def State.serveWrite (s : State) (port : Nat) (m : FabMsg) (d : List Byte) (mask : Nat) : Served :=
  s.lineAt port m true (fun u a =>
    if port < 32 && u.partnerShut a m.src then u.refuse nADDRESS m
    else match regionOf a with
    | .slab die core off =>
      if u.slabPortBusy die core off 64 true then .hold u
      else (u.dynSlabPut die core off d (maskBytes mask 64)).reply m mRSPACK 0 []
    | .sbuf .. => u.reply m mRSPACK 0 []
    | _ =>
      match u.engWait engHome true a 64 with
      | some x => .hold x
      | none => (u.engPut engHome (a / 64) d mask).reply m mRSPACK 0 [])

/-- WR_FULL (R385). -/
def effWrFull (port : Nat) (m : FabMsg) (s : State) : State :=
  s.serve port m mWRFULL (fun t => t.serveWrite port m (unitBytes m.units) fullLine)

/-- WR_MASK (R385): the first unit holds the byte mask. -/
def effWrMask (port : Nat) (m : FabMsg) (s : State) : State :=
  s.serve port m mWRMASK (fun t => t.serveWrite port m (unitBytes (m.units.drop 1)) (m.units.headD 0 % 2 ^ 64))

/-- WR_REG (R380). -/
def effWrReg (port : Nat) (m : FabMsg) (s : State) : State :=
  s.serve port m mWRREG (fun t =>
    if !isRegRange m.addr || 32 ≤ port then t.refuse nADDRESS m
    else
      match t.fabReg port (Config.serialOf m.src).toNat m.addr (some (BitVec.ofNat 64 (m.units.headD 0))) with
      | .error code => (if code = nADDRESS then t.logErr (portDie port) 2 0x0C 0 0x2 m.addr else t).refuse code m
      | .ok (_, u) => u.reply m mRSPACK 0 [])

/-- A fabric command that a Glaze unit takes. -/
def State.fabCmd (s : State) (port : Nat) (m : FabMsg) (gop aop : Nat) (desc : List Byte) (operand compare : Nat)
    (key : Option (Nat × Nat)) : State :=
  let g : GlzCmd :=
    { src := .fabric port m.src m.agent m.tag, gop := gop, aop := aop, target := m.addr, srcA := gSrcA desc, srcB := gSrcB desc,
      srcC := gSrcC desc, desc := desc, operand := operand, compare := compare, key := key, stroke := 0, ready := false,
      writes := [], old := 0, remote := [], have_ := [], asked := [], port := 0, early := 0 }
  s.toUnit (portDie port) 0 0 g

/-- Has the Glaze unit of a stack address room for a command that a port holds, and is it within reach (R204, R252)? -/
def State.unitRoom (s : State) (port a : Nat) : Bool :=
  let d := a / 2 ^ 37
  s.glzRoom d (stackLoc (s.share d) (a % 2 ^ 37)).1 && (s.unitWay (portDie port) 0 a).isSome

/-- Is every route from a port to the unit of a stack address down: the command fails with home unavailable (R242)? -/
def State.unitCut (s : State) (port a : Nat) : Bool := s.wayCut (s.unitWay (portDie port) 0 a)

/-- ATOM (R385, R387): at a Glaze unit for the stack, at the home elsewhere. -/
def effAtom (port : Nat) (m : FabMsg) (s : State) : State :=
  s.serve port m mATOM (fun t =>
    let (code, u0) := (m.aux % 32, m.units.headD 0)
    let (operand, compare) := (u0 % 2 ^ 64, u0 / 2 ^ 64 % 2 ^ 64)
    let n := atomSize code
    if 0x14 ≤ code then t.refuse nPROTOCOL m
    else if m.addr % n ≠ 0 || 32 ≤ port then t.refuse nADDRESS m
    else
      match regionOf m.addr, t.fabAt m.addr with
      | .stack .., .ok true => if t.unitCut port m.addr then t.refuse nHOME m else if t.unitRoom port m.addr then .later (t.fabCmd port m 8 code [] operand compare none) else .hold t
      | .shelf _, .ok true | .tidal _, .ok true =>
        (match t.engWait engHome true m.addr n with
         | some x => .hold x
         | none =>
           let (d, p, x) := t.engRead engHome m.addr n srcDynamic
           let old := leNat d
           (x.engWrite engHome m.addr (leBytes n (atomResult code old operand compare)) p srcDynamic).reply m mRSPOLD 0 [old])
      | .stack .., .ok false | .shelf _, .ok false | .tidal _, .ok false => .hold t
      | .stack .., .error code | .shelf _, .error code | .tidal _, .error code => t.refuse code m
      | _, _ => t.refuse nADDRESS m)

/-- FABRIC_GLZ (R385): a command for a Glaze unit of this package; the key of a staged one is (SRC, JID) (R377). -/
def effFabricGlz (port : Nat) (m : FabMsg) (s : State) : State :=
  if 8 ≤ m.aux % 16 then s
  else s.serve port m mGLZ (fun t =>
    match regionOf m.addr with
    | .stack .. =>
      if 32 ≤ port then t.refuse nADDRESS m
      else (match t.fabAt m.addr with
        | .ok true =>
          if t.unitCut port m.addr then t.refuse nHOME m
          else if t.unitRoom port m.addr then
            .later (t.fabCmd port m (m.aux % 16) 0 (unitBytes m.units) 0 0
              (if m.aux / 2 ^ 20 % 2 = 1 then some (m.src, m.aux / 16 % 2 ^ 16) else none))
          else .hold t
        | .ok false => .hold t
        | .error code => t.refuse code m)
    | _ => t.refuse nADDRESS m)

/-! ## Journal keys of other packages (R477) -/

/-- One apply goes on: each C-die is started once its GLZ_APPLY is free, and is done when that has finished. -/
def State.applyFor (s : State) (x : FabMsg × Nat × List Nat × List Nat) : State × (FabMsg × Nat × List Nat × List Nat) :=
  let (m, port, started, done) := x
  let op := if m.aux % 16 = 0xC then 1 else 2
  let jid := m.aux / 16 % 2 ^ 16
  let (t, st, dn) := (List.range 4).foldl (fun (acc : State × List Nat × List Nat) die =>
    let (u, a, b) := acc
    if b.contains die || !u.dieUp die || u.fbit die GLZ_APPLY.BUSY then acc
    else if a.contains die && u.fget die GLZ_APPLY.OP = op && u.fget die GLZ_APPLY.PKG = m.src && u.fget die GLZ_APPLY.JID = jid then
      (u, a, b ++ [die])
    else (u.applyStart die op m.src jid, (if a.contains die then a else a ++ [die]), b)) (s, started, done)
  (t, (m, port, st, dn))

/-- Every apply of another package's key goes on; those done on all four C-dies are acknowledged. -/
def State.applyAll (s : State) : State :=
  let (s1, xs) := s.fab.applies.foldl (fun (acc : State × List (FabMsg × Nat × List Nat × List Nat)) x =>
    let (t, y) := acc.1.applyFor x
    (t, acc.2 ++ [y])) (s, [])
  let fin := fun (x : FabMsg × Nat × List Nat × List Nat) => decide (x.2.2.2.length = 4)
  let s2 := s1.updFab (fun f => { f with applies := xs.filter (fun x => !fin x) })
  (xs.filter fin).foldl (fun t x => t.fabReply x.2.1 (rspMsg mRSPACK t.ownId x.1.src x.1.agent x.1.tag 0 [])) s2

/-- A message that commits or discards a key. -/
def State.keyMessage (s : State) (port : Nat) (m : FabMsg) (gop : Nat) : State :=
  if m.aux % 16 ≠ gop || 32 ≤ port then s
  else (s.serve port m mGLZ (fun t => .later (t.updFab (fun f => { f with applies := f.applies ++ [(m, port, [], [])] })))).applyAll

/-- JOURNAL_COMMIT_MESSAGE (R477). -/
def effJournalCommitMessage (port : Nat) (m : FabMsg) (s : State) : State := s.keyMessage port m 0xC

/-- JOURNAL_DISCARD_MESSAGE (R477). -/
def effJournalDiscardMessage (port : Nat) (m : FabMsg) (s : State) : State := s.keyMessage port m 0xD

/-- GLZ_APPLY_DONE (R217, R477). -/
def effGlzApplyDone (die : Nat) (s : State) : State := (s.glzApplyDone die).applyAll

/-- The ports by which the running commands of one fabric request came. -/
def State.fabRunning (s : State) (pkg agent tag : Nat) : List Nat :=
  (s.glz.flatMap (fun (u : Nat × GlzUnit) => (u.2.cmds ++ u.2.coming).filterMap (fun c =>
    match c.src with
    | .fabric port a b d => if a = pkg && b = agent && d = tag && c.gop ≠ 8 then some port else none
    | _ => none))) ++
  (s.fab.applies.filter (fun x => x.1.src = pkg && x.1.agent = agent && x.1.tag = tag)).map (fun x => x.2.1)

/-- RSP_PENDING_TIMER (R388): every 50 µs while a remote GLZ runs here. -/
def effRspPendingTimer (pkg agent tag : Nat) (s : State) : State :=
  match s.fabRunning pkg agent tag with
  | port :: _ => if port < 32 then s.dispatch (portDie port) (rspMsg mRSPPENDING s.ownId pkg agent tag 0 []) else s
  | [] => s

/-! ## Held requests (R256, R385) -/

/-- Is a request of the fabric held toward a stopped die? -/
def State.fabHeld (s : State) (p : Nat) (m : FabMsg) : Bool :=
  p < 32 && m.isRequest && (match s.fabAt (m.addr / 64 * 64) with | .ok false => true | _ => false)

/-- REQUEST_RESEND (R256). -/
def effRequestResend (r : HeldReq) (s : State) : State :=
  match r with
  | .fab src agent tag =>
    (match s.fab.inbox.find? (fun x => x.2.isRequest && x.2.src = src && x.2.agent = agent && x.2.tag = tag) with
     | some (p, m) =>
       if m.typ = mRD then effRd p m s
       else if m.typ = mWRFULL then effWrFull p m s
       else if m.typ = mWRMASK then effWrMask p m s
       else if m.typ = mATOM then effAtom p m s
       else if m.typ = mGLZ then effFabricGlz p m s
       else s
     | none => s)
  | _ => s.heldResend r

/-- HOME_UNAVAILABLE (R256); a fabric request is answered with NAK HOME_UNAVAIL (R385). -/
def effHomeUnavailable (r : HeldReq) (s : State) : State :=
  match r with
  | .fab src agent tag =>
    (match s.fab.inbox.find? (fun x => x.2.isRequest && x.2.src = src && x.2.agent = agent && x.2.tag = tag) with
     | some (p, m) => if s.fabHeld p m then ((s.takeIn p m).keepTag m).fabReply p (nakOf s.ownId nHOME m) else s
     | none => s)
  | _ => s.heldUnavailable r

/-! ## Directed requests (R379, R380) -/

/-- Bits of a five-bit port list set at hop `i`. -/
def putPort (l i v : Nat) : Nat := l - drPort l i * 2 ^ (5 * i) + v % 32 * 2 ^ (5 * i)

/-- DR_REQ (R379): the arrival port is recorded, and the request goes on or is performed; RESULT 2 is ACCESS, 3 a port of PATH
that is not linked, 4 ADDRESS (R403). -/
def effDrReq (port : Nat) (m : FabMsg) (s : State) : State :=
  if !s.portUp port || m.typ ≠ mCTL || m.aux ≠ cDRREQ then s
  else
    let s1 := s.takeIn port m
    let d := DrUnits.of m.units
    if d.plen = 0 || 8 < d.plen || d.plen ≤ d.ptr then s1
    else
      let d1 := { d with ret := putPort d.ret d.ptr port, ptr := d.ptr + 1 }
      let back := fun (t : State) (res : Nat) (v : Word) =>
        let e := { d1 with ptr := d1.ptr - 1, result := res, data := v.toNat }
        t.sendPort port { m with aux := cDRRSP, units := e.units }
      if d1.ptr < d1.plen then
        let out := drPort d1.path d1.ptr
        if s1.portUp out then s1.sendPort out { m with units := d1.units } else back s1 3 0
      else if !isRegRange m.addr then back s1 2 0
      else
        match s1.fabReg port d.origin m.addr (if d.write then some (BitVec.ofNat 64 d.data) else none) with
        | .error code => back s1 (if code = nADDRESS then 4 else 2) 0
        | .ok (v, t) => back t 0 v

/-! ## The commands of this file: each one's effect, committed -/

/-- RD_S (R232, R282). -/
def execRdS (agent line : Nat) (s : State) : Host.Outcome State Fault Refusal :=
  s.commit (s.siteReq agent line false (siteRead agent line) (fun t l => effRdS agent l t))

/-- RD_E (R232, R282). -/
def execRdE (agent line : Nat) (s : State) : Host.Outcome State Fault Refusal :=
  s.commit (s.siteReq agent line true (siteRead agent line) (fun t l => effRdE agent l t))

/-- RD_NC (R232, R282). -/
def execRdNc (agent line : Nat) (s : State) : Host.Outcome State Fault Refusal :=
  s.commit (s.siteReq agent line false (siteRead agent line) (fun t l => effRdNc agent l t))

/-- WR_INV (R232, R283). -/
def execWrInv (agent line : Nat) (data : List Byte) (mask : Nat) (poison : Bool) (s : State) :
    Host.Outcome State Fault Refusal :=
  s.commit (s.siteReq agent line true (siteWrite agent line data mask) (fun t l => effWrInv agent l data mask poison t))

/-- WR_WT (R232, R283). -/
def execWrWt (agent line : Nat) (data : List Byte) (mask : Nat) (poison : Bool) (s : State) :
    Host.Outcome State Fault Refusal :=
  s.commit (s.siteReq agent line true (siteWrite agent line data mask) (fun t l => effWrWt agent l data mask poison t))

/-- GLZ_APPLY_DONE (R217). -/
def execGlzApplyDone (die : Nat) (s : State) : Host.Outcome State Fault Refusal :=
  s.commit (effGlzApplyDone die s)

/-- REQUEST_RESEND (R256). -/
def execRequestResend (r : HeldReq) (s : State) : Host.Outcome State Fault Refusal :=
  s.commit (effRequestResend r s)

/-- HOME_UNAVAILABLE (R256). -/
def execHomeUnavailable (r : HeldReq) (s : State) : Host.Outcome State Fault Refusal :=
  s.commit (effHomeUnavailable r s)

/-- RD (R385). -/
def execRd (port : Nat) (m : FabMsg) (s : State) : Host.Outcome State Fault Refusal :=
  s.commit (effRd port m s)

/-- WR_FULL (R385). -/
def execWrFull (port : Nat) (m : FabMsg) (s : State) : Host.Outcome State Fault Refusal :=
  s.commit (effWrFull port m s)

/-- WR_MASK (R385). -/
def execWrMask (port : Nat) (m : FabMsg) (s : State) : Host.Outcome State Fault Refusal :=
  s.commit (effWrMask port m s)

/-- ATOM (R387). -/
def execAtom (port : Nat) (m : FabMsg) (s : State) : Host.Outcome State Fault Refusal :=
  s.commit (effAtom port m s)

/-- FABRIC_GLZ (R385). -/
def execFabricGlz (port : Nat) (m : FabMsg) (s : State) : Host.Outcome State Fault Refusal :=
  s.commit (effFabricGlz port m s)

/-- JOURNAL_COMMIT_MESSAGE (R477). -/
def execJournalCommitMessage (port : Nat) (m : FabMsg) (s : State) : Host.Outcome State Fault Refusal :=
  s.commit (effJournalCommitMessage port m s)

/-- JOURNAL_DISCARD_MESSAGE (R477). -/
def execJournalDiscardMessage (port : Nat) (m : FabMsg) (s : State) : Host.Outcome State Fault Refusal :=
  s.commit (effJournalDiscardMessage port m s)

/-- WR_REG (R380). -/
def execWrReg (port : Nat) (m : FabMsg) (s : State) : Host.Outcome State Fault Refusal :=
  s.commit (effWrReg port m s)

/-- RSP_DATA (R386). -/
def execRspData (port : Nat) (m : FabMsg) (s : State) : Host.Outcome State Fault Refusal :=
  s.commit (effRspData port m s)

/-- RSP_ACK (R386). -/
def execRspAck (port : Nat) (m : FabMsg) (s : State) : Host.Outcome State Fault Refusal :=
  s.commit (effRspAck port m s)

/-- RSP_OLD (R387). -/
def execRspOld (port : Nat) (m : FabMsg) (s : State) : Host.Outcome State Fault Refusal :=
  s.commit (effRspOld port m s)

/-- RSP_PENDING (R388). -/
def execRspPending (port : Nat) (m : FabMsg) (s : State) : Host.Outcome State Fault Refusal :=
  s.commit (effRspPending port m s)

/-- RSP_PENDING_TIMER (R388). -/
def execRspPendingTimer (pkg agent tag : Nat) (s : State) : Host.Outcome State Fault Refusal :=
  s.commit (effRspPendingTimer pkg agent tag s)

/-- NAK (R389). -/
def execNak (port : Nat) (m : FabMsg) (s : State) : Host.Outcome State Fault Refusal :=
  s.commit (effNak port m s)

/-- FABRIC_TIMEOUT (R388). -/
def execFabricTimeout (tag agent : Nat) (s : State) : Host.Outcome State Fault Refusal :=
  s.commit (effFabricTimeout tag agent s)

/-- DR_REQ (R379). -/
def execDrReq (port : Nat) (m : FabMsg) (s : State) : Host.Outcome State Fault Refusal :=
  s.commit (effDrReq port m s)

end Sys2Proof.Machine
end

