-- ==== Sys2Proof/Machine/HartMem.lean ====
section
/-!
DEFINITION. The loads and stores of Headland harts (R307 to R311, R329), with the registers among them (R8, R309), and the errors
of the structures that a hart reads (R527, R533, R534).
-/
namespace Sys2Proof.Machine

/-! ## Errors of a hart's structures -/

/-- A counted fault of a hart; its score at LIMIT offlines it (R531, R533, R534). -/
def State.countHart (s : State) (h : Nat) : State :=
  let d := hartDie h
  let v := min 255 (s.score d (h % 32) + 1)
  let s1 := s.setScore d (h % 32) v
  if s1.scoreLimit d ≠ 0 && s1.scoreLimit d ≤ v then s1.offline h 1 else s1

/-- A line that a cache holds becomes poisoned. -/
def State.poisonHeld (s : State) (a line : Nat) : State :=
  match s.held a line with
  | some l => s.setHeld a line (some { l with poison := true })
  | none => s

/-- A hart gives up its own copy of a line. -/
def State.dropHartCopy (s : State) (h line : Nat) : State :=
  let k := l1Key (h / 32) line
  let hs := (mapGet [] s.l1 k).filter (fun (p : Nat × Bool) => decide (p.1 ≠ h))
  let t : State := { s with l1 := if hs = [] then mapErase s.l1 k else mapSet s.l1 k hs }
  t.loseResv line (fun x => x = h)

/-- An error that a load meets (R527): 1 in a clean line of the hart's L1 or L2, 2 in a dirty one, 3 in a clean line of the SLC,
4 in a dirty one, 5 in the hart's registers or in both copies of a tag of its L1 or L2. -/
def State.hartError (s : State) (h addr err : Nat) : State :=
  let (a, line) := (h / 32, addr / 64)
  let holds := (mapGet [] s.l1 (l1Key a line)).any (fun (p : Nat × Bool) => decide (p.1 = h))
  let dirty : Bool := match s.held a line with | some l => decide (l.st = .m) | none => false
  match err with
  | 1 => if holds && !dirty then (s.dropHartCopy h line).countHart h else s
  | 2 => if holds && dirty then ((s.poisonHeld a line).logErr (hartDie h) 2 0x08 h 0x1 addr).countHart h else s
  | 3 => if !dirty && (s.held a line).isSome then s.dropLine a line else s
  | 4 => if dirty then (s.poisonHeld a line).logErr (hartDie h) 2 0x07 0 0x1 (line * 64) else s
  | 5 => s.offline h 1
  | _ => s

/-! ## Loads -/

/-- Has the hart stored to the registers of a die and not yet performed it (R309)? -/
def State.regStores (s : State) (h a : Nat) : Bool :=
  (s.hart h).stores.any (fun e => e.addr < 2 ^ 44 && isRegRange e.addr && (regAt e.addr).1 = (regAt a).1)

/-- A load of memory homed in this package: in the SLC, or as RD_NC (R290, R295, R308, R329). -/
def State.loadMem (s : State) (h a n pbmt : Nat) : State :=
  let (ca, line) := (h / 32, a / 64)
  let o := s.ownBytes h a n
  let r : Mshr := { s.hartReq h a n .load o.1 o.2 with io := pbmt = 2 }
  let at_ := s.attr (hartDie h) a
  let cached := at_.1 = .coherent && s.cacheOn ca
  if cached && pbmt = 0 && s.keeps ca r.cls line then (s.trainStride ca h line).tryLine r
  else if cached && (s.held ca line).isSome then s.tryLine r
  else s.bypass r

/-- The part of a load that lies in one line: of another package or a companion, of the host by CXL.io, of a slab or a stream
buffer, or of memory. A load of I/O kind waits for the hart's earlier stores to the line (log entry 20). -/
def State.loadPart (s : State) (h a n pbmt : Nat) : State :=
  let o := s.ownBytes h a n
  let io := !isMemKind a
  if io && s.ownStores h a then s
  else
    match s.farOf a with
    | some (dst, at_) =>
      let m := rdMsg (agHart h) dst at_
      s.fabAsk (hartDie h) (.hartLoad h a n o.1 o.2)
        (if 2 ^ 44 ≤ a && isRegRange at_ && at_ % 8 = 0 && n = 8 then { m with addr := at_, aux := 1 } else m)
    | none =>
      match s.ioPort (hartDie h) a with
      | some q => if s.ioUp q then s.ioAsk q (.hart h o.1 o.2) a n else s
      | none =>
        if !io then s.loadMem h a n pbmt
        else
          match s.anyRead (engOf (hartDie h)) a n with
          | (.got d p, t) => t.giveLoad h a d p
          | (.wait, t) => t
          | (_, t) => t.hartTrap h 5 a

/-- HART_LOAD (R307 to R311, R329): `pbmt` is 0 PMA, 1 NC, 2 IO; `err` names an error that the load meets (R527). A load that
crosses a line boundary is performed line by line; one that cannot be issued raises a load access fault (R8, R220). -/
def effHartLoad (hart addr len pbmt err : Nat) (s : State) : State :=
  if !s.hartRuns hart || s.fencedKind hart (isMemKind addr && pbmt ≠ 2) false || len = 0 || 64 < len then s
  else
    let s1 := s.hartError hart addr err
    if !s1.hartRuns hart then s1
    else if addr < 2 ^ 44 && isRegRange addr then
      if len ≠ 8 || addr % 8 ≠ 0 then (s1.regBad (.hart hart) addr).hartTrap hart 5 addr
      else if s1.regStores hart addr then s1
      else s1.regGet (.hart hart) addr 8
    else if !s1.issuable addr len then s1.hartTrap hart 5 addr
    else
      let k := min len (64 - addr % 64)
      let s2 := s1.loadPart hart addr k pbmt
      if k < len then s2.loadPart hart (addr + k) (len - k) pbmt else s2

/-! ## Stores -/

/-- Does an access touch the slab of a fenced core (R50)? -/
def State.fencedSlab (s : State) (a : Nat) : Bool :=
  match regionOf a with
  | .slab die core _ => s.isFenced die core
  | _ => false

/-- HART_STORE (R308, R311, R329): the store retires into the store buffer. One that cannot be issued raises a store access
fault (R8, R50, R220). -/
def effHartStore (hart addr : Nat) (data : List Byte) (pbmt : Nat) (s : State) : State :=
  let n := data.length
  if !s.hartRuns hart || s.fencedKind hart (isMemKind addr && pbmt ≠ 2) true || n = 0 || 64 < n then s
  else if addr < 2 ^ 44 && isRegRange addr && (n ≠ 8 || addr % 8 ≠ 0) then
    (s.regBad (.hart hart) addr).hartTrap hart 7 addr
  else if !s.issuable addr n || (addr < 2 ^ 44 && s.fencedSlab addr) then s.hartTrap hart 7 addr
  else (s.drainNtLine hart addr).retireAll hart addr data (min pbmt 2)

/-- Does a store wait for an earlier one of its hart, to its line or to the registers of its die (R308, R309), or for an earlier load
of the line? -/
def State.storeWaits (s : State) (h : Nat) (e : SbEnt) : Bool :=
  let es := (s.hart h).stores.takeWhile (fun x => x.id ≠ e.id)
  es.any (fun x => x.line = e.line ||
    (x.addr < 2 ^ 44 && e.addr < 2 ^ 44 && isRegRange x.addr && isRegRange e.addr && (regAt x.addr).1 = (regAt e.addr).1)) ||
  s.mshrs.any (fun r => r.hart = some h && r.op = .load && r.line = e.line) ||
  s.fab.reqs.any (fun r => match r.origin with | .hartLoad x a _ _ _ => decide (x = h && a / 64 = e.line) | _ => false) ||
  s.ios.any (fun r => match r.who with | .hart x _ _ => decide (x = h && r.addr / 64 = e.line) | _ => false)

/-- A register store performed; one to a companion's registers once its sideband answers (R309, R453). -/
def State.storeReg (s : State) (h : Nat) (e : SbEnt) : State :=
  let w := BitVec.ofNat 64 (leNat e.data)
  match s.regWay (.hart h) e.addr e.data.length with
  | .site i => (s.markSent h e.id).askSite (.hart h) i e.addr true w
  | .reg die blk off => (s.regWrite (.hart h) die blk off w).storeDone h e.id
  | _ => s.storeDone h e.id

/-- The words of a slab range are left with wrong parity. -/
def State.slabSpoil (s : State) (die core off n : Nat) : State :=
  { s with slabBad := (wordsOf (slabKey die core off) n).foldl (fun m k => mapSet m k 1) s.slabBad }

/-- A store whose buffer entry is poisoned (R527) leaves its line poisoned: a copy that the SLC holds goes first, and the bytes are
written at the home with poison. Where nothing can hold poison the store is discarded, as R314 gives (log entry 21). -/
def State.storePoison (s : State) (h : Nat) (e : SbEnt) : State :=
  let a := h / 32
  let s1 := s.logErr (hartDie h) 2 0x08 h 0x1 e.addr
  match s.farOf e.addr, s.ioPort (hartDie h) e.addr with
  | none, none =>
    (match regionOf e.addr with
     | .stack .. | .shelf _ | .tidal _ | .host .. =>
       let s2 := s1.dropLine a e.line
       if (mapFind (s2.cache a).wb e.line).isSome then s2
       else (s2.markSent h e.id).sendWrite (s2.withClass (hartDie h)
         { mkMsg .wrInv a e.line with data := e.lineData, mask := e.lineMask, poison := true }) [(h, e.id)] []
     | .slab die core off =>
       if s.slabPortBusy die core off e.data.length true then s
       else ((s1.slabPut die core off e.data (maskBytes e.mask e.data.length)).slabSpoil die core off e.data.length).storeDone h e.id
     | _ => s1.storeFails h e.id 2 e.addr)
  | _, _ => s1.storeFails h e.id 2 e.addr

/-- The runs of bytes that a mask selects, by offset. -/
def maskRuns (d : List Byte) (mask : Nat) : List (Nat × List Byte) :=
  let on := fun (i : Nat) => decide (mask / 2 ^ i % 2 = 1)
  ((List.range d.length).filter (fun i => on i && (i = 0 || !on (i - 1)))).map (fun i =>
    (i, (d.drop i).take ((List.range (d.length - i)).takeWhile (fun j => on (i + j))).length))

/-- STORE_PERFORMED (R308): a store of the store buffer is performed, or leaves for its home, where RSP_CMP or the
acknowledgement of another package performs it. `bad` says that the entry is poisoned. -/
def effStorePerformed (hart id : Nat) (bad : Bool) (s : State) : State :=
  match (s.hart hart).stores.find? (fun e => e.id = id) with
  | none => s
  | some e =>
    if e.sent || s.storeWaits hart e || (s.hart hart).failing.any (fun f => f.1 = id) || !s.dieUp (hartDie hart) then s
    else if e.addr < 2 ^ 44 && isRegRange e.addr then
      if bad then s.storeFails hart id 2 e.addr else s.storeReg hart e
    else if e.addr < 2 ^ 44 && (!s.populated e.addr e.data.length || s.fencedSlab e.addr) then s.storeFails hart id 2 e.addr
    else if bad then s.storePoison hart e
    else
      match s.farOf e.addr with
      | some (dst, at_) => s.storeRemote hart e dst at_
      | none =>
        match s.ioPort (hartDie hart) e.addr with
        | some q =>
          if s.ioUp q then
            ((maskRuns e.data e.mask).foldl (fun t p => t.emit (.hostIo q (e.addr + p.1) p.2.length true p.2)) s).storeDone hart id
          else s
        | none =>
          match regionOf e.addr with
          | .slab die core off =>
            if s.dieUp die && !s.slabPortBusy die core off e.data.length true then
              (s.dynSlabPut die core off e.data (maskBytes e.mask e.data.length)).storeDone hart id
            else s
          | .sbuf .. => s.storeDone hart id
          | _ => s.storeLocal hart e

/-! ## The commands of this file: each one's effect, committed -/

/-- HART_LOAD (R308). -/
def execHartLoad (hart addr len pbmt err : Nat) (s : State) : Host.Outcome State Fault Refusal :=
  s.commit (effHartLoad hart addr len pbmt err s)

/-- HART_STORE (R308). -/
def execHartStore (hart addr : Nat) (data : List Byte) (pbmt : Nat) (s : State) : Host.Outcome State Fault Refusal :=
  s.commit (effHartStore hart addr data pbmt s)

/-- STORE_PERFORMED (R308). -/
def execStorePerformed (hart id : Nat) (bad : Bool) (s : State) : Host.Outcome State Fault Refusal :=
  s.commit (effStorePerformed hart id bad s)

end Sys2Proof.Machine
end

