-- ==== Sys2Proof/Machine/Dispatch.lean ====
section
/-!
DEFINITION. The effect of each command: one arm per row of the table.
-/
namespace Sys2Proof.Machine

/-- The outcome of a command: its effect on everything but the queue. -/
def exec (i : Instr) (s : State) : Host.Outcome State Fault Refusal :=
  match i with
  | .registerWrite agent addr len w => Sys2Proof.Machine.execRegisterWrite agent addr len w s
  | .pkgIdWrite agent die w => Sys2Proof.Machine.execPkgIdWrite agent die w s
  | .bundleFetch die parity => Sys2Proof.Machine.execBundleFetch die parity s
  | .refetchArrival die => Sys2Proof.Machine.execRefetchArrival die s
  | .bundleIssue die => Sys2Proof.Machine.execBundleIssue die s
  | .holdBundle die => Sys2Proof.Machine.execHoldBundle die s
  | .checkpointFetch die => Sys2Proof.Machine.execCheckpointFetch die s
  | .checkpointIssue die => Sys2Proof.Machine.execCheckpointIssue die s
  | .chunkRefillComplete die => Sys2Proof.Machine.execChunkRefillComplete die s
  | .awaitFetch die => Sys2Proof.Machine.execAwaitFetch die s
  | .awaitRelease die wait => Sys2Proof.Machine.execAwaitRelease die wait s
  | .awaitTimeout die => Sys2Proof.Machine.execAwaitTimeout die s
  | .branchIssue die => Sys2Proof.Machine.execBranchIssue die s
  | .branchResolve die => Sys2Proof.Machine.execBranchResolve die s
  | .loopIssue die => Sys2Proof.Machine.execLoopIssue die s
  | .loopIterationEnd die => Sys2Proof.Machine.execLoopIterationEnd die s
  | .endFetch die => Sys2Proof.Machine.execEndFetch die s
  | .workItemComplete die => Sys2Proof.Machine.execWorkItemComplete die s
  | .drainComplete die => Sys2Proof.Machine.execDrainComplete die s
  | .arithmeticFaultReport die silicon => Sys2Proof.Machine.execArithmeticFaultReport die silicon s
  | .replayRestore die => Sys2Proof.Machine.execReplayRestore die s
  | .freezeBegin die => Sys2Proof.Machine.execFreezeBegin die s
  | .freezeEnd die => Sys2Proof.Machine.execFreezeEnd die s
  | .tload die w d => Sys2Proof.Machine.execTload die w d s
  | .mpass die w => Sys2Proof.Machine.execMpass die w s
  | .vfp die w => Sys2Proof.Machine.execVfp die w s
  | .vint die w => Sys2Proof.Machine.execVint die w s
  | .vcmp die w => Sys2Proof.Machine.execVcmp die w s
  | .vcvt die w => Sys2Proof.Machine.execVcvt die w s
  | .vtrn die w => Sys2Proof.Machine.execVtrn die w s
  | .sld die w => Sys2Proof.Machine.execSld die w s
  | .sst die w => Sys2Proof.Machine.execSst die w s
  | .scopy die w => Sys2Proof.Machine.execScopy die w s
  | .sfill die w => Sys2Proof.Machine.execSfill die w s
  | .vrd die w d => Sys2Proof.Machine.execVrd die w d s
  | .vwr die w => Sys2Proof.Machine.execVwr die w s
  | .refresh die w => Sys2Proof.Machine.execRefresh die w s
  | .ssend die w d => Sys2Proof.Machine.execSsend die w d s
  | .glz die w => Sys2Proof.Machine.execGlz die w s
  | .dma die w => Sys2Proof.Machine.execDma die w s
  | .ratom die w => Sys2Proof.Machine.execRatom die w s
  | .salu die w => Sys2Proof.Machine.execSalu die w s
  | .sli die w => Sys2Proof.Machine.execSli die w s
  | .slds die w => Sys2Proof.Machine.execSlds die w s
  | .ssts die w => Sys2Proof.Machine.execSsts die w s
  | .sfromv die w => Sys2Proof.Machine.execSfromv die w s
  | .signal die w => Sys2Proof.Machine.execSignal die w s
  | .signalArrival die => Sys2Proof.Machine.execSignalArrival die s
  | .mark die w => Sys2Proof.Machine.execMark die w s
  | .commandSend die core => Sys2Proof.Machine.execCommandSend die core s
  | .commandComplete die => Sys2Proof.Machine.execCommandComplete die s
  | .commandFailure die => Sys2Proof.Machine.execCommandFailure die s
  | .seqLoad die => Sys2Proof.Machine.execSeqLoad die s
  | .imageLoadDone die => Sys2Proof.Machine.execImageLoadDone die s
  | .seqStart die => Sys2Proof.Machine.execSeqStart die s
  | .seqAbort die => Sys2Proof.Machine.execSeqAbort die s
  | .seqTokenAdd die index inc => Sys2Proof.Machine.execSeqTokenAdd die index inc s
  | .tcInjectSlabParity die core => Sys2Proof.Machine.execTcInjectSlabParity die core s
  | .tcInjectResidue die core => Sys2Proof.Machine.execTcInjectResidue die core s
  | .tcFaultClear die core w => Sys2Proof.Machine.execTcFaultClear die core w s
  | .dynamicSlabAccess agent addr len write data => Sys2Proof.Machine.execDynamicSlabAccess agent addr len write data s
  | .dynamicSlabServed die => Sys2Proof.Machine.execDynamicSlabServed die s
  | .refreshDebtRise die v => Sys2Proof.Machine.execRefreshDebtRise die v s
  | .refreshRoundDone die v => Sys2Proof.Machine.execRefreshRoundDone die v s
  | .vaultDynamicRequest agent addr len write data => Sys2Proof.Machine.execVaultDynamicRequest agent addr len write data s
  | .vaultDynamicServed die v => Sys2Proof.Machine.execVaultDynamicServed die v s
  | .poisonRewrite die v => Sys2Proof.Machine.execPoisonRewrite die v s
  | .scrubRead die v => Sys2Proof.Machine.execScrubRead die v s
  | .vaultFence die v => Sys2Proof.Machine.execVaultFence die v s
  | .vaultFenceWalkDone die v => Sys2Proof.Machine.execVaultFenceWalkDone die v s
  | .vaultInit die v => Sys2Proof.Machine.execVaultInit die v s
  | .vaultInitDone die v => Sys2Proof.Machine.execVaultInitDone die v s
  | .vaultInjectArm die v channel wire => Sys2Proof.Machine.execVaultInjectArm die v channel wire s
  | .stackThermSample die temps => Sys2Proof.Machine.execStackThermSample die temps s
  | .selfRefreshExit die v => Sys2Proof.Machine.execSelfRefreshExit die v s
  | .glazeCommandArrival die v => Sys2Proof.Machine.execGlazeCommandArrival die v s
  | .fill die v => Sys2Proof.Machine.execFill die v s
  | .copy die v => Sys2Proof.Machine.execCopy die v s
  | .accum die v => Sys2Proof.Machine.execAccum die v s
  | .scaleAdd die v => Sys2Proof.Machine.execScaleAdd die v s
  | .optStep die v => Sys2Proof.Machine.execOptStep die v s
  | .kvAppend die v => Sys2Proof.Machine.execKvAppend die v s
  | .gatherCompact die v => Sys2Proof.Machine.execGatherCompact die v s
  | .topk die v => Sys2Proof.Machine.execTopk die v s
  | .strokeCommit die v => Sys2Proof.Machine.execStrokeCommit die v s
  | .glazeCommandComplete die v => Sys2Proof.Machine.execGlazeCommandComplete die v s
  | .glzAreaResume die v base size => Sys2Proof.Machine.execGlzAreaResume die v base size s
  | .glzAreaDiscard die v base size => Sys2Proof.Machine.execGlzAreaDiscard die v base size s
  | .resumeScanDone die v => Sys2Proof.Machine.execResumeScanDone die v s
  | .glzApplyCommit die pkg jid => Sys2Proof.Machine.execGlzApplyCommit die pkg jid s
  | .glzApplyDiscard die pkg jid => Sys2Proof.Machine.execGlzApplyDiscard die pkg jid s
  | .glzApplyDone die => Sys2Proof.Machine.execGlzApplyDone die s
  | .ratCommit => Sys2Proof.Machine.execRatCommit s
  | .ratCommitDone => Sys2Proof.Machine.execRatCommitDone s
  | .dynamicFlitNak die router port cls word again => Sys2Proof.Machine.execDynamicFlitNak die router port cls word again s
  | .jettyFlitNak a b sub word again => Sys2Proof.Machine.execJettyFlitNak a b sub word again s
  | .linkUpReceived die peer => Sys2Proof.Machine.execLinkUpReceived die peer s
  | .jtyRejoin die link => Sys2Proof.Machine.execJtyRejoin die link s
  | .dieReset die => Sys2Proof.Machine.execDieReset die s
  | .dieResetExit die => Sys2Proof.Machine.execDieResetExit die s
  | .clockLoss die tags => Sys2Proof.Machine.execClockLoss die tags s
  | .downNotice die peer => Sys2Proof.Machine.execDownNotice die peer s
  | .forwardedClockLoss die peer => Sys2Proof.Machine.execForwardedClockLoss die peer s
  | .requestResend r => Sys2Proof.Machine.execRequestResend r s
  | .homeUnavailable r => Sys2Proof.Machine.execHomeUnavailable r s
  | .rdS agent line => Sys2Proof.Machine.execRdS agent line s
  | .rdE agent line => Sys2Proof.Machine.execRdE agent line s
  | .rdNc agent line => Sys2Proof.Machine.execRdNc agent line s
  | .wrInv agent line data mask poison => Sys2Proof.Machine.execWrInv agent line data mask poison s
  | .wrWt agent line data mask poison => Sys2Proof.Machine.execWrWt agent line data mask poison s
  | .wb agent line data poison => Sys2Proof.Machine.execWb agent line data poison s
  | .wbSnp agent line data poison keepS => Sys2Proof.Machine.execWbSnp agent line data poison keepS s
  | .evict agent line => Sys2Proof.Machine.execEvict agent line s
  | .snpDown agent line => Sys2Proof.Machine.execSnpDown agent line s
  | .snpInv agent line => Sys2Proof.Machine.execSnpInv agent line s
  | .datS agent line => Sys2Proof.Machine.execDatS agent line s
  | .datE agent line => Sys2Proof.Machine.execDatE agent line s
  | .datNc agent line => Sys2Proof.Machine.execDatNc agent line s
  | .rspGrantE agent line => Sys2Proof.Machine.execRspGrantE agent line s
  | .rspCmp agent line => Sys2Proof.Machine.execRspCmp agent line s
  | .rspWback agent line => Sys2Proof.Machine.execRspWback agent line s
  | .rspI agent line => Sys2Proof.Machine.execRspI agent line s
  | .rspS agent line => Sys2Proof.Machine.execRspS agent line s
  | .rspIWbpend agent line => Sys2Proof.Machine.execRspIWbpend agent line s
  | .mergeTimeout agent => Sys2Proof.Machine.execMergeTimeout agent s
  | .stridePrefetch agent => Sys2Proof.Machine.execStridePrefetch agent s
  | .rngClean agent => Sys2Proof.Machine.execRngClean agent s
  | .rngInvalidate agent => Sys2Proof.Machine.execRngInvalidate agent s
  | .rngCleanInvalidate agent => Sys2Proof.Machine.execRngCleanInvalidate agent s
  | .rangeOpDone agent => Sys2Proof.Machine.execRangeOpDone agent s
  | .cacheDisable agent => Sys2Proof.Machine.execCacheDisable agent s
  | .cacheEnable agent => Sys2Proof.Machine.execCacheEnable agent s
  | .hartLoad hart addr len pbmt err => Sys2Proof.Machine.execHartLoad hart addr len pbmt err s
  | .hartStore hart addr data pbmt => Sys2Proof.Machine.execHartStore hart addr data pbmt s
  | .storePerformed hart id bad => Sys2Proof.Machine.execStorePerformed hart id bad s
  | .remoteStoreFailure hart => Sys2Proof.Machine.execRemoteStoreFailure hart s
  | .fence hart pred succ => Sys2Proof.Machine.execFence hart pred succ s
  | .fenceComplete hart => Sys2Proof.Machine.execFenceComplete hart s
  | .ntStore hart addr data => Sys2Proof.Machine.execNtStore hart addr data s
  | .ntIdleDrain hart => Sys2Proof.Machine.execNtIdleDrain hart s
  | .lr hart addr len constrained => Sys2Proof.Machine.execLr hart addr len constrained s
  | .sc hart addr data => Sys2Proof.Machine.execSc hart addr data s
  | .snoopDeferralExpiry hart => Sys2Proof.Machine.execSnoopDeferralExpiry hart s
  | .amo hart addr code data => Sys2Proof.Machine.execAmo hart addr code data s
  | .cboClean hart addr => Sys2Proof.Machine.execCboClean hart addr s
  | .cboFlush hart addr => Sys2Proof.Machine.execCboFlush hart addr s
  | .cboInval hart addr flush => Sys2Proof.Machine.execCboInval hart addr flush s
  | .cboZero hart addr => Sys2Proof.Machine.execCboZero hart addr s
  | .zicbopPrefetch hart addr write => Sys2Proof.Machine.execZicbopPrefetch hart addr write s
  | .mdrainWrite hart num priv virt => Sys2Proof.Machine.execMdrainWrite hart num priv virt s
  | .mfence hart priv virt key => Sys2Proof.Machine.execMfence hart priv virt key s
  | .hartOffline hart => Sys2Proof.Machine.execHartOffline hart s
  | .hartOfflineDone hart => Sys2Proof.Machine.execHartOfflineDone hart s
  | .msiWrite hart file eiid => Sys2Proof.Machine.execMsiWrite hart file eiid s
  | .machineTimer hart => Sys2Proof.Machine.execMachineTimer hart s
  | .shelfInit => Sys2Proof.Machine.execShelfInit s
  | .shelfInitDone => Sys2Proof.Machine.execShelfInitDone s
  | .alloc page account => Sys2Proof.Machine.execAlloc page account s
  | .free page => Sys2Proof.Machine.execFree page s
  | .flood page => Sys2Proof.Machine.execFlood page s
  | .ebb page => Sys2Proof.Machine.execEbb page s
  | .query page => Sys2Proof.Machine.execQuery page s
  | .migrationAck die => Sys2Proof.Machine.execMigrationAck die s
  | .migrationCopyDone => Sys2Proof.Machine.execMigrationCopyDone s
  | .epochAdvance => Sys2Proof.Machine.execEpochAdvance s
  | .laneTrainingEnd port lane ok => Sys2Proof.Machine.execLaneTrainingEnd port lane ok s
  | .laneLock port lane => Sys2Proof.Machine.execLaneLock port lane s
  | .laneFailure port lane => Sys2Proof.Machine.execLaneFailure port lane s
  | .portRetrainTimer port => Sys2Proof.Machine.execPortRetrainTimer port s
  | .flitReceive port bytes => Sys2Proof.Machine.execFlitReceive port bytes s
  | .violationWindowEnd port => Sys2Proof.Machine.execViolationWindowEnd port s
  | .linkControlResend port => Sys2Proof.Machine.execLinkControlResend port s
  | .width port half => Sys2Proof.Machine.execWidth port half s
  | .widthAck port half => Sys2Proof.Machine.execWidthAck port half s
  | .bwfRetrain port => Sys2Proof.Machine.execBwfRetrain port s
  | .bwfEnWrite port en => Sys2Proof.Machine.execBwfEnWrite port en s
  | .rd port m => Sys2Proof.Machine.execRd port m s
  | .wrFull port m => Sys2Proof.Machine.execWrFull port m s
  | .wrMask port m => Sys2Proof.Machine.execWrMask port m s
  | .atom port m => Sys2Proof.Machine.execAtom port m s
  | .fabricGlz port m => Sys2Proof.Machine.execFabricGlz port m s
  | .journalCommitMessage port m => Sys2Proof.Machine.execJournalCommitMessage port m s
  | .journalDiscardMessage port m => Sys2Proof.Machine.execJournalDiscardMessage port m s
  | .wrReg port m => Sys2Proof.Machine.execWrReg port m s
  | .rspData port m => Sys2Proof.Machine.execRspData port m s
  | .rspAck port m => Sys2Proof.Machine.execRspAck port m s
  | .rspOld port m => Sys2Proof.Machine.execRspOld port m s
  | .rspPending port m => Sys2Proof.Machine.execRspPending port m s
  | .rspPendingTimer pkg agent tag => Sys2Proof.Machine.execRspPendingTimer pkg agent tag s
  | .nak port m => Sys2Proof.Machine.execNak port m s
  | .fabricTimeout tag agent => Sys2Proof.Machine.execFabricTimeout tag agent s
  | .ident port m => Sys2Proof.Machine.execIdent port m s
  | .identAck port m => Sys2Proof.Machine.execIdentAck port m s
  | .identResend port => Sys2Proof.Machine.execIdentResend port s
  | .drReq port m => Sys2Proof.Machine.execDrReq port m s
  | .drRsp port m => Sys2Proof.Machine.execDrRsp port m s
  | .bwfDrGo q => Sys2Proof.Machine.execBwfDrGo q s
  | .drTimeout q => Sys2Proof.Machine.execDrTimeout q s
  | .bwfAssignWrite valid id => Sys2Proof.Machine.execBwfAssignWrite valid id s
  | .report port m => Sys2Proof.Machine.execReport port m s
  | .reportPeriodForward period => Sys2Proof.Machine.execReportPeriodForward period s
  | .rootEventDelivery period => Sys2Proof.Machine.execRootEventDelivery period s
  | .bwfEvtHiRead agent => Sys2Proof.Machine.execBwfEvtHiRead agent s
  | .tick l u => Sys2Proof.Machine.execTick l u s
  | .tickSend l => Sys2Proof.Machine.execTickSend l s
  | .tmkSetWrite q time => Sys2Proof.Machine.execTmkSetWrite q time s
  | .holdoverFault => Sys2Proof.Machine.execHoldoverFault s
  | .colGroupValid q group ranks => Sys2Proof.Machine.execColGroupValid q group ranks s
  | .reduce q => Sys2Proof.Machine.execReduce q s
  | .allreduce q => Sys2Proof.Machine.execAllreduce q s
  | .reduceScatter q => Sys2Proof.Machine.execReduceScatter q s
  | .allgather q => Sys2Proof.Machine.execAllgather q s
  | .broadcast q => Sys2Proof.Machine.execBroadcast q s
  | .barrier q => Sys2Proof.Machine.execBarrier q s
  | .collectiveLaunch group seq => Sys2Proof.Machine.execCollectiveLaunch group seq s
  | .colData port m => Sys2Proof.Machine.execColData port m s
  | .colResult port m => Sys2Proof.Machine.execColResult port m s
  | .colGather port m => Sys2Proof.Machine.execColGather port m s
  | .colArrive port m => Sys2Proof.Machine.execColArrive port m s
  | .colRelease port m => Sys2Proof.Machine.execColRelease port m s
  | .colFail port m => Sys2Proof.Machine.execColFail port m s
  | .collectiveTimeout group seq => Sys2Proof.Machine.execCollectiveTimeout group seq s
  | .instanceComplete group seq => Sys2Proof.Machine.execInstanceComplete group seq s
  | .releaseTickApply die => Sys2Proof.Machine.execReleaseTickApply die s
  | .ballastRampStep die => Sys2Proof.Machine.execBallastRampStep die s
  | .floorExpiry group seq => Sys2Proof.Machine.execFloorExpiry group seq s
  | .memRd port line snp => Sys2Proof.Machine.execMemRd port line snp s
  | .memWr port line data mask poison keepS => Sys2Proof.Machine.execMemWr port line data mask poison keepS s
  | .h2dSnpInv port line => Sys2Proof.Machine.execH2dSnpInv port line s
  | .h2dSnpData port line => Sys2Proof.Machine.execH2dSnpData port line s
  | .h2dSnpCur port line => Sys2Proof.Machine.execH2dSnpCur port line s
  | .hostGo port addr data poison => Sys2Proof.Machine.execHostGo port addr data poison s
  | .birsp port line keepS => Sys2Proof.Machine.execBirsp port line keepS s
  | .hdmCommit port dec base size => Sys2Proof.Machine.execHdmCommit port dec base size s
  | .dportWrite port off data => Sys2Proof.Machine.execDportWrite port off data s
  | .dportRead port off len => Sys2Proof.Machine.execDportRead port off len s
  | .dportStatusRead port ap => Sys2Proof.Machine.execDportStatusRead port ap s
  | .p2pRequest agent addr len write data => Sys2Proof.Machine.execP2pRequest agent addr len write data s
  | .p2pTimeout port addr => Sys2Proof.Machine.execP2pTimeout port addr s
  | .drainReadCompletion queue timeout => Sys2Proof.Machine.execDrainReadCompletion queue timeout s
  | .hostRetrain port speed width => Sys2Proof.Machine.execHostRetrain port speed width s
  | .hostLinkLoss port cause => Sys2Proof.Machine.execHostLinkLoss port cause s
  | .hpuResetDone port => Sys2Proof.Machine.execHpuResetDone port s
  | .hostEnable port bme mem cache => Sys2Proof.Machine.execHostEnable port bme mem cache s
  | .portOutOfService port => Sys2Proof.Machine.execPortOutOfService port s
  | .hpuLossDiscard port => Sys2Proof.Machine.execHpuLossDiscard port s
  | .companionAdmission site modules rate cxl present => Sys2Proof.Machine.execCompanionAdmission site modules rate cxl present s
  | .descriptorReceived site bytes => Sys2Proof.Machine.execDescriptorReceived site bytes s
  | .admissionTimeout site => Sys2Proof.Machine.execAdmissionTimeout site s
  | .companionTempSample site temp => Sys2Proof.Machine.execCompanionTempSample site temp s
  | .sidebandTimeout site => Sys2Proof.Machine.execSidebandTimeout site s
  | .doorbell queue tail => Sys2Proof.Machine.execDoorbell queue tail s
  | .entryFetched queue => Sys2Proof.Machine.execEntryFetched queue s
  | .entryAccept queue => Sys2Proof.Machine.execEntryAccept queue s
  | .partnerTimeout queue => Sys2Proof.Machine.execPartnerTimeout queue s
  | .nop queue => Sys2Proof.Machine.execNop queue s
  | .run queue => Sys2Proof.Machine.execRun queue s
  | .glaze queue => Sys2Proof.Machine.execGlaze queue s
  | .queueDma queue => Sys2Proof.Machine.execQueueDma queue s
  | .write queue => Sys2Proof.Machine.execWrite queue s
  | .collective queue => Sys2Proof.Machine.execCollective queue s
  | .runEnd queue => Sys2Proof.Machine.execRunEnd queue s
  | .entryComplete queue => Sys2Proof.Machine.execEntryComplete queue s
  | .msixPendingSend port vector => Sys2Proof.Machine.execMsixPendingSend port vector s
  | .hqEnable die loc => Sys2Proof.Machine.execHqEnable die loc s
  | .hqDisable die loc => Sys2Proof.Machine.execHqDisable die loc s
  | .hqQuery die loc => Sys2Proof.Machine.execHqQuery die loc s
  | .queueDrained queue => Sys2Proof.Machine.execQueueDrained queue s
  | .pwrReqWrite die point => Sys2Proof.Machine.execPwrReqWrite die point s
  | .eventTickResolve => Sys2Proof.Machine.execEventTickResolve s
  | .voltageRampDone die => Sys2Proof.Machine.execVoltageRampDone die s
  | .droop die dom => Sys2Proof.Machine.execDroop die dom s
  | .droopClear die dom => Sys2Proof.Machine.execDroopClear die dom s
  | .droopSettleEnd die => Sys2Proof.Machine.execDroopSettleEnd die s
  | .controlPeriodEnd energies package temps acts => Sys2Proof.Machine.execControlPeriodEnd energies package temps acts s
  | .pkgCapWrite w => Sys2Proof.Machine.execPkgCapWrite w s
  | .capLimitEdge asserted => Sys2Proof.Machine.execCapLimitEdge asserted s
  | .companionThrottleEnd site => Sys2Proof.Machine.execCompanionThrottleEnd site s
  | .coolantOkLow => Sys2Proof.Machine.execCoolantOkLow s
  | .trayPwrOkLow => Sys2Proof.Machine.execTrayPwrOkLow s
  | .railFault => Sys2Proof.Machine.execRailFault s
  | .pkgResetAssert => Sys2Proof.Machine.execPkgResetAssert s
  | .pkgResetDeassert linksBad shelfBad => Sys2Proof.Machine.execPkgResetDeassert linksBad shelfBad s
  | .evtSwWrite code => Sys2Proof.Machine.execEvtSwWrite code s
  | .errFenceGo die core => Sys2Proof.Machine.execErrFenceGo die core s
  | .scoreDecay die => Sys2Proof.Machine.execScoreDecay die s
  | .lossRelay die agent => Sys2Proof.Machine.execLossRelay die agent s
  | .homeSweepDone die agent => Sys2Proof.Machine.execHomeSweepDone die agent s
  | .qdieLost die => Sys2Proof.Machine.execQdieLost die s
  | .errRec0Read agent die => Sys2Proof.Machine.execErrRec0Read agent die s
  | .bootWatchdogExpiry => Sys2Proof.Machine.execBootWatchdogExpiry s
  | .lhtProgressWrite die event slot => Sys2Proof.Machine.execLhtProgressWrite die event slot s
  | .counterLogAppend => Sys2Proof.Machine.execCounterLogAppend s
  | .attest die => Sys2Proof.Machine.execAttest die s
  | .getIdentity die => Sys2Proof.Machine.execGetIdentity die s
  | .flashRead die bad => Sys2Proof.Machine.execFlashRead die bad s
  | .flashWrite die bad => Sys2Proof.Machine.execFlashWrite die bad s
  | .imageCommit die => Sys2Proof.Machine.execImageCommit die s
  | .advanceSvn die => Sys2Proof.Machine.execAdvanceSvn die s
  | .token die => Sys2Proof.Machine.execToken die s
  | .bootrecRetry die => Sys2Proof.Machine.execBootrecRetry die s
  | .fuseOwner die => Sys2Proof.Machine.execFuseOwner die s
  | .periodTrigger t => Sys2Proof.Machine.execPeriodTrigger t s
  | .strandlineRecordWrite late => Sys2Proof.Machine.execStrandlineRecordWrite late s
  | .flashCopyDone => Sys2Proof.Machine.execFlashCopyDone s
  | .cursorWrite source page => Sys2Proof.Machine.execCursorWrite source page s
  | .pageFetchDone => Sys2Proof.Machine.execPageFetchDone s
  | .counterOverflow die core idx inc => Sys2Proof.Machine.execCounterOverflow die core idx inc s
  | .evenCounterRead agent die core idx => Sys2Proof.Machine.execEvenCounterRead agent die core idx s
  | .pmuSampleEnable die => Sys2Proof.Machine.execPmuSampleEnable die s
  | .sampleTag die flags a pc n last => Sys2Proof.Machine.execSampleTag die flags a pc n last s
  | .pmuSbClear die => Sys2Proof.Machine.execPmuSbClear die s
  | .i3cAddressWrite addr => Sys2Proof.Machine.execI3cAddressWrite addr s
  | .i3cRegisterWrite addr w => Sys2Proof.Machine.execI3cRegisterWrite addr w s
  | .i3cPrivateRead => Sys2Proof.Machine.execI3cPrivateRead s
  | .clockReturn die => Sys2Proof.Machine.execClockReturn die s
  | .powerUp => Sys2Proof.Machine.execPowerUp s
  | .powerLoss => Sys2Proof.Machine.execPowerLoss s
  | .coolantOkHigh => Sys2Proof.Machine.execCoolantOkHigh s
  | .trayPwrOkHigh => Sys2Proof.Machine.execTrayPwrOkHigh s
  | .hostLinkUp port speed width => Sys2Proof.Machine.execHostLinkUp port speed width s
  | .debugHalt hart => Sys2Proof.Machine.execDebugHalt hart s
  | .debugResume hart => Sys2Proof.Machine.execDebugResume hart s
  | .systemBusAccess q addr len write data => Sys2Proof.Machine.execSystemBusAccess q addr len write data s
  | .shelfTemperatureRead channel derate tooHot => Sys2Proof.Machine.execShelfTemperatureRead channel derate tooHot s
  | .readClear agent addr len => Sys2Proof.Machine.execReadClear agent addr len s
  | .iommuInvalidation q => Sys2Proof.Machine.execIommuInvalidation q s

end Sys2Proof.Machine
end

