-- ==== Sys2Proof/WellFormed.lean ====
section
/-!
DEFINITION. Well-formed commands: every operand lies in the range that the spec gives it.
-/
namespace Sys2Proof

/-- A C-die, a Q-die, a die (R7). -/
def okC (die : Nat) : Bool := die < 4
def okQ (die : Nat) : Bool := die = 4 || die = 5
def okDie (die : Nat) : Bool := die < 6

/-- A core, vault or router of a C-die (R28, R159, R237); a hart (R327); a Shelf channel (R343). -/
def ok64 (n : Nat) : Bool := n < 64

/-- A Breakwater port (R368). -/
def okPort (p : Nat) : Bool := p < 32

/-- A place that fabric messages come by: a port, this package itself, the raw links and the sidebands of the companion sites (log
entry 16). -/
def okPlace (p : Nat) : Bool := p < 37

/-- A host port or a companion site (R435). -/
def ok2 (n : Nat) : Bool := n < 2

/-- A queue (R465). -/
def okQueue (q : Nat) : Bool := q < 4096

/-- A 56-bit address (R223), and a line of that range. -/
def okAddr (a : Nat) : Bool := a < 2 ^ 56
def okLine (l : Nat) : Bool := l < 2 ^ 50

/-- An agent of coherence, or another requester of a line (R269); a cache (R287). -/
def okCoh (a : Nat) : Bool := a < 1024
def okCache (a : Nat) : Bool := a < 6

/-- The bytes of a line with a mask of its bytes. -/
def okLineData (d : List Byte) (mask : Nat) : Bool := d.length = 64 && mask < 2 ^ 64

/-- An agent that exists: its hart, host port, debug module or site does. -/
def Agent.ok : Agent → Bool
  | .hart h => h < 64
  | .host q => q < 2
  | .fabric q _ => q < 2
  | .debug q => q < 2
  | .companion i => i < 2
  | .lighthouse => true
  | .i3c => true
  | .engine => true

/-- A message whose fields fit its header unit (R376), with at most 5 units after it. -/
def Machine.FabMsg.ok (m : Machine.FabMsg) : Bool :=
  m.typ < 64 && m.hops < 16 && m.dst < 4096 && m.src < 4096 && m.tag < 65536 && m.agent < 1024 && m.aux < 2 ^ 21 &&
  m.addr < 2 ^ 44 && m.units.length ≤ 5 && m.units.all (fun u => u < 2 ^ 128)

/-- A link that exists: a port, or a Jetty link between two dies (R16). -/
def TickLink.ok : TickLink → Bool
  | .port p => p < 32
  | .jetty a b => a < 6 && b < 6 && a ≠ b

/-- A well-formed command. -/
def Instr.wf (i : Instr) : Bool :=
  match i with
  | .registerWrite agent addr _ _ => agent.ok && okAddr addr
  | .pkgIdWrite agent die _ => agent.ok && okQ die
  | .bundleFetch die _ => okC die
  | .refetchArrival die => okC die
  | .bundleIssue die => okC die
  | .holdBundle die => okC die
  | .checkpointFetch die => okC die
  | .checkpointIssue die => okC die
  | .chunkRefillComplete die => okC die
  | .awaitFetch die => okC die
  | .awaitRelease die _ => okC die
  | .awaitTimeout die => okC die
  | .branchIssue die => okC die
  | .branchResolve die => okC die
  | .loopIssue die => okC die
  | .loopIterationEnd die => okC die
  | .endFetch die => okC die
  | .workItemComplete die => okC die
  | .drainComplete die => okC die
  | .arithmeticFaultReport die _ => okC die
  | .replayRestore die => okC die
  | .freezeBegin die => okC die
  | .freezeEnd die => okC die
  | .tload die _ _ => okC die
  | .mpass die _ => okC die
  | .vfp die _ => okC die
  | .vint die _ => okC die
  | .vcmp die _ => okC die
  | .vcvt die _ => okC die
  | .vtrn die _ => okC die
  | .sld die _ => okC die
  | .sst die _ => okC die
  | .scopy die _ => okC die
  | .sfill die _ => okC die
  | .vrd die _ _ => okC die
  | .vwr die _ => okC die
  | .refresh die _ => okC die
  | .ssend die _ _ => okC die
  | .glz die _ => okC die
  | .dma die _ => okC die
  | .ratom die _ => okC die
  | .salu die _ => okC die
  | .sli die _ => okC die
  | .slds die _ => okC die
  | .ssts die _ => okC die
  | .sfromv die _ => okC die
  | .signal die _ => okC die
  | .signalArrival die => okC die
  | .mark die _ => okC die
  | .commandSend die core => okC die && ok64 core
  | .commandComplete die => okC die
  | .commandFailure die => okC die
  | .seqLoad die => okC die
  | .imageLoadDone die => okC die
  | .seqStart die => okC die
  | .seqAbort die => okC die
  | .seqTokenAdd die index inc => okC die && index < 16 && inc < 2 ^ 16
  | .tcInjectSlabParity die core => okC die && ok64 core
  | .tcInjectResidue die core => okC die && ok64 core
  | .tcFaultClear die core _ => okC die && ok64 core
  | .dynamicSlabAccess agent addr _ _ _ => agent.ok && okAddr addr
  | .dynamicSlabServed die => okC die
  | .refreshDebtRise die v => okC die && ok64 v
  | .refreshRoundDone die v => okC die && ok64 v
  | .vaultDynamicRequest agent addr _ _ _ => agent.ok && okAddr addr
  | .vaultDynamicServed die v => okC die && ok64 v
  | .poisonRewrite die v => (okC die && ok64 v) || (okQ die && decide (v < 32))
  | .scrubRead die v => okC die && ok64 v
  | .vaultFence die v => okC die && ok64 v
  | .vaultFenceWalkDone die v => okC die && ok64 v
  | .vaultInit die v => okC die && ok64 v
  | .vaultInitDone die v => okC die && ok64 v
  | .vaultInjectArm die v channel wire => okC die && ok64 v && channel < 8 && wire < 256
  | .stackThermSample die temps => okC die && temps.length = 8
  | .selfRefreshExit die v => okC die && ok64 v
  | .glazeCommandArrival die v => okC die && ok64 v
  | .fill die v => okC die && ok64 v
  | .copy die v => okC die && ok64 v
  | .accum die v => okC die && ok64 v
  | .scaleAdd die v => okC die && ok64 v
  | .optStep die v => okC die && ok64 v
  | .kvAppend die v => okC die && ok64 v
  | .gatherCompact die v => okC die && ok64 v
  | .topk die v => okC die && ok64 v
  | .strokeCommit die v => okC die && ok64 v
  | .glazeCommandComplete die v => okC die && ok64 v
  | .glzAreaResume die v _ _ => okC die && ok64 v
  | .glzAreaDiscard die v _ _ => okC die && ok64 v
  | .resumeScanDone die v => okC die && ok64 v
  | .glzApplyCommit die pkg jid => okC die && pkg < 4096 && jid < 2 ^ 16
  | .glzApplyDiscard die pkg jid => okC die && pkg < 4096 && jid < 2 ^ 16
  | .glzApplyDone die => okC die
  | .ratCommit => true
  | .ratCommitDone => true
  | .dynamicFlitNak die router port _ _ _ => okC die && ok64 router && port < 4
  | .jettyFlitNak a b _ _ _ => okDie a && okDie b
  | .linkUpReceived die peer => okDie die && okDie peer
  | .jtyRejoin die link => okDie die && link < 3
  | .dieReset die => okDie die
  | .dieResetExit die => okDie die
  | .clockLoss die tags => if tags then okDie die else die < 8
  | .downNotice die peer => okDie die && okDie peer
  | .forwardedClockLoss die peer => okDie die && okDie peer
  | .requestResend _ => true
  | .homeUnavailable _ => true
  | .rdS agent line => okCoh agent && okLine line
  | .rdE agent line => okCoh agent && okLine line
  | .rdNc agent line => okCoh agent && okLine line
  | .wrInv agent line data mask _ => okCoh agent && okLine line && okLineData data mask
  | .wrWt agent line data mask _ => okCoh agent && okLine line && okLineData data mask
  | .wb agent line data _ => okCoh agent && okLine line && okLineData data 0
  | .wbSnp agent line data _ _ => okCoh agent && okLine line && okLineData data 0
  | .evict agent line => okCoh agent && okLine line
  | .snpDown agent line => okCoh agent && okLine line
  | .snpInv agent line => okCoh agent && okLine line
  | .datS agent line => okCoh agent && okLine line
  | .datE agent line => okCoh agent && okLine line
  | .datNc agent line => okCoh agent && okLine line
  | .rspGrantE agent line => okCoh agent && okLine line
  | .rspCmp agent line => okCoh agent && okLine line
  | .rspWback agent line => okCoh agent && okLine line
  | .rspI agent line => okCoh agent && okLine line
  | .rspS agent line => okCoh agent && okLine line
  | .rspIWbpend agent line => okCoh agent && okLine line
  | .mergeTimeout agent => okCache agent
  | .stridePrefetch agent => okCache agent
  | .rngClean agent => okCache agent
  | .rngInvalidate agent => okCache agent
  | .rngCleanInvalidate agent => okCache agent
  | .rangeOpDone agent => okCache agent
  | .cacheDisable agent => okCache agent
  | .cacheEnable agent => okCache agent
  | .hartLoad hart addr len pbmt err => ok64 hart && okAddr addr && (0 < len && len ≤ 64) && pbmt < 3 && err < 6
  | .hartStore hart addr data pbmt => ok64 hart && okAddr addr && (0 < data.length && data.length ≤ 64) && pbmt < 3
  | .storePerformed hart _ _ => ok64 hart
  | .remoteStoreFailure hart => ok64 hart
  | .fence hart pred succ => ok64 hart && pred < 16 && succ < 16
  | .fenceComplete hart => ok64 hart
  | .ntStore hart addr data => ok64 hart && okAddr addr && (0 < data.length && data.length ≤ 64)
  | .ntIdleDrain hart => ok64 hart
  | .lr hart addr len _ => ok64 hart && okAddr addr && (len = 4 || len = 8)
  | .sc hart addr data => ok64 hart && okAddr addr && (data.length = 4 || data.length = 8)
  | .snoopDeferralExpiry hart => ok64 hart
  | .amo hart addr code data => ok64 hart && okAddr addr && code < 9 && (data.length = 4 || data.length = 8)
  | .cboClean hart addr => ok64 hart && okAddr addr
  | .cboFlush hart addr => ok64 hart && okAddr addr
  | .cboInval hart addr _ => ok64 hart && okAddr addr
  | .cboZero hart addr => ok64 hart && okAddr addr
  | .zicbopPrefetch hart addr _ => ok64 hart && okAddr addr
  | .mdrainWrite hart num priv _ => ok64 hart && num < 4096 && priv ≤ 3
  | .mfence hart priv _ _ => ok64 hart && priv ≤ 3
  | .hartOffline hart => ok64 hart
  | .hartOfflineDone hart => ok64 hart
  | .msiWrite hart file eiid => ok64 hart && file < 6 && eiid < 256
  | .machineTimer hart => ok64 hart
  | .shelfInit => true
  | .shelfInitDone => true
  | .alloc page account => page < 2 ^ 20 && account < 64
  | .free page => page < 2 ^ 20
  | .flood page => page < 2 ^ 20
  | .ebb page => page < 2 ^ 20
  | .query page => page < 2 ^ 20
  | .migrationAck die => okDie die
  | .migrationCopyDone => true
  | .epochAdvance => true
  | .laneTrainingEnd port lane _ => okPort port && lane < 8
  | .laneLock port lane => okPort port && lane < 8
  | .laneFailure port lane => okPort port && lane < 8
  | .portRetrainTimer port => okPort port
  | .flitReceive port bytes => okPort port && bytes.length ≤ 256
  | .violationWindowEnd port => port < 36
  | .linkControlResend port => okPort port
  | .width port half => okPort port && (half = 1 || half = 2)
  | .widthAck port half => okPort port && (half = 1 || half = 2)
  | .bwfRetrain port => okPort port
  | .bwfEnWrite port _ => okPort port
  | .rd port m => okPlace port && m.ok
  | .wrFull port m => okPlace port && m.ok
  | .wrMask port m => okPlace port && m.ok
  | .atom port m => okPlace port && m.ok
  | .fabricGlz port m => okPlace port && m.ok
  | .journalCommitMessage port m => okPlace port && m.ok
  | .journalDiscardMessage port m => okPlace port && m.ok
  | .wrReg port m => okPlace port && m.ok
  | .rspData port m => okPlace port && m.ok
  | .rspAck port m => okPlace port && m.ok
  | .rspOld port m => okPlace port && m.ok
  | .rspPending port m => okPlace port && m.ok
  | .rspPendingTimer pkg agent tag => pkg < 4096 && agent < 1024 && tag < 2 ^ 16
  | .nak port m => okPlace port && m.ok
  | .fabricTimeout tag agent => tag < 2 ^ 16 && agent < 1024
  | .ident port m => okPort port && m.ok
  | .identAck port m => okPort port && m.ok
  | .identResend port => okPort port
  | .drReq port m => okPlace port && m.ok
  | .drRsp port m => okPort port && m.ok
  | .bwfDrGo q => okQ q
  | .drTimeout q => okQ q
  | .bwfAssignWrite _ id => id < 4096
  | .report port m => okPort port && m.ok
  | .reportPeriodForward _ => true
  | .rootEventDelivery _ => true
  | .bwfEvtHiRead agent => agent.ok
  | .tick l _ => l.ok
  | .tickSend l => l.ok
  | .tmkSetWrite q _ => okQ q
  | .holdoverFault => true
  | .colGroupValid q group ranks => okQ q && group < 64 && ranks < 2 ^ 16
  | .reduce q => okQ q
  | .allreduce q => okQ q
  | .reduceScatter q => okQ q
  | .allgather q => okQ q
  | .broadcast q => okQ q
  | .barrier q => okQ q
  | .collectiveLaunch group _ => group < 64
  | .colData port m => okPort port && m.ok
  | .colResult port m => okPort port && m.ok
  | .colGather port m => okPort port && m.ok
  | .colArrive port m => okPort port && m.ok
  | .colRelease port m => okPort port && m.ok
  | .colFail port m => okPort port && m.ok
  | .collectiveTimeout group _ => group < 64
  | .instanceComplete group _ => group < 64
  | .releaseTickApply die => okC die
  | .ballastRampStep die => okC die
  | .floorExpiry group _ => group < 64
  | .memRd port line _ => ok2 port && okLine line
  | .memWr port line data mask _ _ => ok2 port && okLine line && okLineData data mask
  | .h2dSnpInv port line => ok2 port && okLine line
  | .h2dSnpData port line => ok2 port && okLine line
  | .h2dSnpCur port line => ok2 port && okLine line
  | .hostGo port addr _ _ => ok2 port && okAddr addr
  | .birsp port line _ => ok2 port && okLine line
  | .hdmCommit port dec _ _ => ok2 port && dec < 4
  | .dportWrite port _ _ => ok2 port
  | .dportRead port _ _ => ok2 port
  | .dportStatusRead port ap => ok2 port && ap < 4
  | .p2pRequest agent addr _ _ _ => agent.ok && okAddr addr
  | .p2pTimeout port addr => ok2 port && okAddr addr
  | .drainReadCompletion queue _ => okQueue queue
  | .hostRetrain port _ _ => ok2 port
  | .hostLinkLoss port cause => ok2 port && cause < 8
  | .hpuResetDone port => ok2 port
  | .hostEnable port _ _ _ => ok2 port
  | .portOutOfService port => ok2 port
  | .hpuLossDiscard port => ok2 port
  | .companionAdmission site _ _ _ _ => ok2 site
  | .descriptorReceived site _ => ok2 site
  | .admissionTimeout site => ok2 site
  | .companionTempSample site _ => ok2 site
  | .sidebandTimeout site => ok2 site
  | .doorbell queue _ => okQueue queue
  | .entryFetched queue => okQueue queue
  | .entryAccept queue => okQueue queue
  | .partnerTimeout queue => okQueue queue
  | .nop queue => okQueue queue
  | .run queue => okQueue queue
  | .glaze queue => okQueue queue
  | .queueDma queue => okQueue queue
  | .write queue => okQueue queue
  | .collective queue => okQueue queue
  | .runEnd queue => okQueue queue
  | .entryComplete queue => okQueue queue
  | .msixPendingSend port _ => ok2 port
  | .hqEnable die loc => okQ die && loc < 2048
  | .hqDisable die loc => okQ die && loc < 2048
  | .hqQuery die loc => okQ die && loc < 2048
  | .queueDrained queue => okQueue queue
  | .pwrReqWrite die point => okDie die && point < 16
  | .eventTickResolve => true
  | .voltageRampDone die => okDie die
  | .droop die dom => okDie die && dom < 2
  | .droopClear die dom => okDie die && dom < 2
  | .droopSettleEnd die => okDie die
  | .controlPeriodEnd _ _ _ _ => true
  | .pkgCapWrite _ => true
  | .capLimitEdge _ => true
  | .companionThrottleEnd site => ok2 site
  | .coolantOkLow => true
  | .trayPwrOkLow => true
  | .railFault => true
  | .pkgResetAssert => true
  | .pkgResetDeassert _ _ => true
  | .evtSwWrite code => code < 2 ^ 16
  | .errFenceGo die core => okC die && ok64 core
  | .scoreDecay die => okDie die
  | .lossRelay die agent => okDie die && agent < 9
  | .homeSweepDone die agent => okDie die && agent < 9
  | .qdieLost die => okQ die
  | .errRec0Read agent die => agent.ok && okDie die
  | .bootWatchdogExpiry => true
  | .lhtProgressWrite die event slot => okQ die && event < 4 && slot < 256
  | .counterLogAppend => true
  | .attest die => okQ die
  | .getIdentity die => okQ die
  | .flashRead die _ => okQ die
  | .flashWrite die _ => okQ die
  | .imageCommit die => okQ die
  | .advanceSvn die => okQ die
  | .token die => okQ die
  | .bootrecRetry die => okQ die
  | .fuseOwner die => okQ die
  | .periodTrigger t => t < 64
  | .strandlineRecordWrite _ => true
  | .flashCopyDone => true
  | .cursorWrite source page => source < 8 && page < 4096
  | .pageFetchDone => true
  | .counterOverflow die _ i _ => okDie die && i < 16
  | .evenCounterRead agent die _ i => agent.ok && okDie die && i < 16
  | .pmuSampleEnable die => okDie die
  | .sampleTag die _ _ _ _ _ => okDie die
  | .pmuSbClear die => okDie die
  | .i3cAddressWrite _ => true
  | .i3cRegisterWrite _ _ => true
  | .i3cPrivateRead => true
  | .clockReturn die => die < 8
  | .powerUp => true
  | .powerLoss => true
  | .coolantOkHigh => true
  | .trayPwrOkHigh => true
  | .hostLinkUp port _ _ => ok2 port
  | .debugHalt hart => ok64 hart
  | .debugResume hart => ok64 hart
  | .systemBusAccess q addr _ _ _ => ok2 q && okAddr addr
  | .shelfTemperatureRead channel _ _ => ok64 channel
  | .readClear agent addr _ => agent.ok && okAddr addr
  | .iommuInvalidation q => okQ q

end Sys2Proof
end

