-- ==== Sys2Proof/Safety.lean ====
section
/-!
DEFINITION. The terms in which statements speak of runs: what every step keeps, runs of several steps, and the small named states and
conditions in which the statements of Sys2Proof/Certificates say where a command completes.
-/
namespace Sys2Proof.Machine

/-- A slot of code `code` issues now on one core of the image, and that core is not fenced (R50, R66, R108). -/
def State.issuesOn (s : State) (die code : Nat) (w : Word) (c : Nat) : Bool :=
  let v := s.pmuEvent die 0x10A 1
  s.canIssue die && slotCode w = code && slotOk (s.coreMap die) (s.td die).replayable w &&
  mappedCores (v.coreMap die) w = [c] && v.fget die (TC_STATUS.STATE.unit (v.placeOf die c).1) ≠ 3

/-- A slot on the core and context that execute a logical core (R104). -/
def State.slotOn (s : State) (die c : Nat) (w : Word) (d : Nat × Nat × Nat) : Slot :=
  ⟨die, c, (s.placeOf die c).1, (s.placeOf die c).2, w, d⟩

/-- The slot's stream cycle passes and counts, and what is in flight on the die completes (log entry 7). -/
def State.afterSlot (s : State) (die : Nat) : State := ((s.runCycle die).slotCycles die 1 0x102).drainAs die 0x109

/-- A new request for this package stands at a Breakwater port that is up: it breaks no rule of R390, and no answer to it is kept
(R255, R380, R385). -/
def State.fabFresh (s : State) (p : Nat) (m : FabMsg) : Bool :=
  p < 32 && s.fabOpen p && (msgViolation m).isNone && s.idValid && decide (m.dst = s.ownId) &&
  (s.fab.seen.find? (fun x => sameRequest x m)).isNone

/-- A request answered at once: it leaves the port's queue, its tag is kept, and the answer goes back (R255, R385). -/
def State.fabAnswered (s : State) (p : Nat) (m : FabMsg) (typ aux : Nat) (units : List Nat) : State :=
  ((s.takeIn p m).keepTag m).fabReply p (rspMsg typ s.ownId m.src m.agent m.tag aux units)

/-- A collective message of a kind that its engine takes: the state with the message taken and its instance there, the instance, and
the message's first unit (R417, R418, R420). -/
def State.colFresh (s : State) (p : Nat) (m : FabMsg) (kind : Nat) : Option (State × ColInst × ColSub) :=
  let h := ColSub.of (m.units.headD 0)
  let t := (s.takeIn p m).needInst h.group h.seq
  if m.typ ≠ mCOL || h.kind ≠ kind || (p < 32 && !s.portUp p) || !s.idValid ||
    ((s.takeIn p m).coll.failed.contains h.group || (s.takeIn p m).colEnded h.group h.seq) then none
  else match t.inst h.group h.seq with
  | none => none
  | some x =>
    if t.instTable x ≠ [] && tableCrc (t.instTable x) % 2 ^ 24 ≠ h.tcrc && kind ≠ kFAIL then none else some (t, x, h)

/-- An entry of opcode `op` at the head of a queue starts its work: the state with its record in STATE RUNNING, and the record (R470 to
R475). -/
def State.entryStarts (s : State) (q op : Nat) : Option (State × JRec) :=
  match s.startable q op with
  | none => none
  | some r =>
    if (s.entryStatus r).isSome then none
    else if r.st = 2 then some (s, r)
    else match (s.jWrite { r with st := 2 }).recOf r.jid with
    | some r' => if (s.jWrite { r with st := 2 }).written r' then some (s.jWrite { r with st := 2 }, r') else none
    | none => none

/-- A queue command accepted by HQ_QCMD (R488). -/
def State.qcmdStart (s : State) (die op loc : Nat) : State :=
  s.fsets die [(HQ_QCMD.BUSY, 1), (HQ_QCMD.RESULT, 0), (HQ_QCMD.OP, op), (HQ_QCMD.QUEUE, loc)]

/-- What every step keeps: THERM_ALERT_N is low exactly while its condition holds (R508), and every waiting command is well-formed. -/
def State.Inv (s : State) : Prop := s.alertN = !s.thermAlert ∧ s.pending.all Instr.wf = true

/-- The state after `n` steps, if each answers a next state. -/
def runSteps : Nat → State → Option State
  | 0, s => some s
  | n + 1, s =>
    match step s with
    | .next t => runSteps n t
    | _ => none

end Sys2Proof.Machine
end

