-- ==== Sys2Proof/Certificates/Slice0/Obligations.lean ====
section
/-!
DEFINITION. The statements for the provers. A statement that a command completes says for which states and operands `exec` answers a next
state, and which one: `s.sealed t` is `t` with the queue as it was and THERM_ALERT_N following its condition.
-/
section
open Sys2Proof Sys2Proof.Machine

/-- REGISTER_WRITE, READ_CLEAR and PKG_ID_WRITE complete (R7, R9, R11, R24, R378): where the access reaches a register, the write or the
read is performed and answered; a write that changes PKG_ID sends the new identity to the neighbours (R378). -/
def Obligations.RegisterCommandsComplete : Prop :=
  (∀ (s : State) (agent : Agent) (addr len die blk off : Nat) (w : Word),
    isRegAddr addr = true → s.mayAccess agent = true → s.mayReg agent addr true = true →
    s.regWay agent addr len = .reg die blk off →
    exec (.registerWrite agent addr len w) s =
      .next (s.sealed ((s.regWrite agent die blk off w).emit (.done agent addr)))) ∧
  (∀ (s : State) (agent : Agent) (addr len die blk off : Nat),
    isRegAddr addr = true → s.mayAccess agent = true → s.mayReg agent addr false = true →
    s.regWay agent addr len = .reg die blk off →
    exec (.readClear agent addr len) s =
      .next (s.sealed ((s.regTaken die blk off).emit (.regData agent (s.regVal die blk off))))) ∧
  (∀ (s : State) (agent : Agent) (die : Nat) (w : Word),
    isQ die = true → s.mayAccess agent = true → s.answers die 0x180 = true →
    s.mayReg agent (regAddr die 0x180 0) true = true →
    ∀ u, u = s.fsets shDie [(PKG_ID.ID_VALID, bits w 31 31), (PKG_ID.ID, bits w 11 0)] → s.idValid = true →
    (u.idValid = s.idValid → u.ownId = s.ownId →
      exec (.pkgIdWrite agent die w) s = .next (s.sealed (u.emit (.done agent (regAddr die 0x180 0))))) ∧
    (u.ownId ≠ s.ownId →
      exec (.pkgIdWrite agent die w) s = .next (s.sealed (u.identAll.emit (.done agent (regAddr die 0x180 0))))))

/-- The sequencer's fetch and issue commands complete (R63, R64, R65, R84): a fetch takes the bundle at the fetch point, or freezes
on a parity error until the refetch arrives; a normal bundle issues and holds for HOLD cycles, a hold bundle for its extended HOLD;
a refilled chunk stands in its half, read from the stack in vault time that the stream leaves free (R161). -/
def Obligations.SequencerFetchAndIssue : Prop :=
  ∀ (s : State) (die : Nat) (im : Image) (ws : List Word),
    ((s.td die).image = some im → s.canFetch die = true → (s.td die).pc < im.length → imageRing im = false →
      exec (.bundleFetch die false) s = .next (s.sealed (s.takeBundle die im)) ∧
      exec (.bundleFetch die true) s = .next (s.sealed (s.updTd die (fun t => { t with freezeFetch := true })))) ∧
    ((s.td die).image = some im → s.canFetch die = true → im.length ≤ (s.td die).pc →
      exec (.bundleFetch die false) s = .next (s.sealed (s.endItem die .fetch))) ∧
    ((s.td die).image = some im → (s.td die).freezeFetch = true → (s.td die).pc < im.length → (s.td die).refill = none →
      s.vaultsFree die (im.base % 2 ^ 37 + 256 + 128 * (s.td die).pc) 128 = true →
      ∀ bs p u, s.refillRead die (im.base % 2 ^ 37 + 256 + 128 * (s.td die).pc) 128 = (bs, p, u) →
        exec (.refetchArrival die) s =
          .next (s.sealed (({ u with sbuf := memWriteN u.sbuf (sbufKey die (s.td die).pc) bs }).endFetchFreeze die))) ∧
    (s.ready die kNORMAL = some ws →
      exec (.bundleIssue die) s = .next (s.sealed (s.issueBundle die ws (bHold ws)))) ∧
    (s.ready die kHOLD = some ws →
      exec (.holdBundle die) s =
        .next (s.sealed (s.issueBundle die [ws.headD 0] (bits (bSlot ws 15) 27 0 * 4096 + bHold ws)))) ∧
    (∀ j, (s.td die).image = some im → (s.td die).refill = some j → (s.td die).freezeFetch = false →
      s.vaultsFree die (chunkRange im j).1 (chunkRange im j).2 = true →
      exec (.chunkRefillComplete die) s =
        .next (s.sealed ((s.fillChunk die im j).updTd die (fun t => { t with refill := if j = 0 then some 1 else none }))))

/-- The checkpoint commands complete (R79, R81, R132): a fetched checkpoint lets every earlier operation complete and releases the
commands that the closing step held; once the commands that
the closed step held have been sent it issues: the registers and loop state are saved, STEP takes effect and the operations issue; a replay restores
what it saved. -/
def Obligations.CheckpointAndReplay : Prop :=
  ∀ (s : State) (die : Nat) (im : Image) (ws : List Word),
    (s.ready die kCKPT = some ws →
      exec (.checkpointFetch die) s = .next (s.sealed ((s.drainAs die 0x109).closeStep die))) ∧
    (s.ready die kCKPT = some ws → (s.td die).image = some im → (s.td die).flights = [] →
      horizon (s.td die) ≤ (s.td die).cycle → (s.td die).stepUnsent = false → s.seqState die ≠ seqREPLAYING →
      exec (.checkpointIssue die) s =
        .next (s.sealed ((((((s.closeSlots die 0x102).updTd die (fun t => { releaseHeld t with
          shadow := t.regs, ckpt := some ⟨t.pc, t.loops, t.issued, t.nextCmd⟩, replayable := bReplayable ws,
          replays := 0 })).fset die
          SEQ_STATUS.STEP (bStep ws)).fset die SEQ_STATUS.STATE seqRUNNING).startRefill die im).issueBundle die ws
          (bHold ws)))) ∧
    (isC die = true → s.running die = true → (s.td die).reports = [] →
      exec (.arithmeticFaultReport die none) s = .next (s.sealed s)) ∧
    (∀ u t1, isC die = true → s.running die = true → (s.td die).reports ≠ [] → s.scoreReports die = u → u.td die = t1 →
      t1.endCause = none → t1.restoring = false → t1.replayable = true → t1.replays < u.fget die SEQ_REPLAY.LIMIT →
      exec (.arithmeticFaultReport die none) s =
        .next (s.sealed ((((u.fset die SEQ_STATUS.STATE seqREPLAYING).finc die SEQ_REPLAY.REPLAY_CNT).updTd die (fun t =>
          { t with restoring := true, replays := t.replays + 1, fetched := none, replayCores := [] })).countReplays die
          (s.td die).reports))) ∧
    (∀ u v k, (s.td die).restoring = true → (s.td die).endCause = none → (s.td die).unfrozen = true →
      v = (s.drainAs die 0x104).closeSlots die 0x104 → u = (v.countReplays die (v.td die).reports).scoreReports die →
      (u.td die).ckpt = some k → (u.td die).endCause = none →
      exec (.replayRestore die) s =
        .next (s.sealed (u.updTd die (fun t =>
          { t with regs := t.shadow, loops := k.loops, issued := k.issued, branch := none, pc := k.pc, fetched := none,
                   restoring := false, cmdq := t.cmdq.filter (fun c => !c.held) }))))

/-- The await, branch, loop and end commands complete (R69, R72, R73, R76): an await drains and awaits, its release subtracts the
count and issues the bundle, its timeout ends the item; a branch is taken or not 24 cycles after its issue; a loop sets its counter,
and its last bundle repeats the body or leaves it. -/
def Obligations.SequencerControlFlow : Prop :=
  ∀ (s : State) (die : Nat) (im : Image) (ws : List Word),
    (s.ready die kAWAIT = some ws →
      exec (.awaitFetch die) s =
        .next (s.sealed ((((s.updTd die (fun t => { t with
          ballastTop := (t.passEnd.filter (fun p => t.cycle < p.2 + 1024)).length, ballastUp := false,
          step2 := false })).fset die SEQ_STATUS.STATE seqAWAITING).drainAs die 0x107).enterStep2 die))) ∧
    (∀ wait u, u = s.slotCycles die wait (if s.fget die SEQ_BALLAST.LEVEL = 0 then 0x107 else 0x103) →
      (s.td die).fetched = some ws → s.seqState die = seqAWAITING → (s.td die).step2 = true →
      (s.td die).endCause = none → (s.td die).reports = [] → (s.td die).unfrozen = true →
      s.awaitMet die (bSlot ws 15) = true → bits (bSlot ws 15) 63 62 = 0 →
      exec (.awaitRelease die wait) s =
        .next (s.sealed ((((u.tokenSub die (bits (bSlot ws 15) 51 48) (bits (bSlot ws 15) 15 0)).fsets die
          [(SEQ_STATUS.STATE, seqRUNNING), (SEQ_BALLAST.LEVEL, 0)]).updTd die (fun t =>
            { t with cycle := t.cycle + wait, issued := [], step2 := false })).issueBundle die ws (bHold ws)))) ∧
    (s.seqState die = seqAWAITING → (s.td die).step2 = true → (s.td die).takesFault = true →
      s.fget die SEQ_AWAIT_TIMEOUT.TIMEOUT_US ≠ 0 →
      exec (.awaitTimeout die) s = .next (s.sealed (s.endItem die .awaitTimeout))) ∧
    (s.ready die kBRANCH = some ws → (s.td die).image = some im →
      innermost (s.bodies die im (s.td die).pc) (s.td die).pc =
        innermost (s.bodies die im (s.td die).pc) (bits (bSlot ws 15) 23 0) →
      exec (.branchIssue die) s =
        .next (s.sealed ((s.updTd die (fun t => { t with branch := some ⟨(s.td die).cycle + 24, (s.td die).pc, bits (bSlot ws 15) 23 0,
          branchCond (bits (bSlot ws 15) 43 42)
            ((s.td die).sreg (s.placeOf die (bits (bSlot ws 15) 53 48)).2 (bits (bSlot ws 15) 47 44))⟩ })).issueBundle die ws
          (bHold ws)))) ∧
    (∀ src target, (s.td die).branch = some ⟨(s.td die).cycle, src, target, true⟩ → (s.td die).image = some im →
      s.canIssue die = true → jumpOk im src target = true →
      exec (.branchResolve die) s =
        .next (s.sealed (s.updTd die (fun t => { t with branch := none, pc := target })))) ∧
    (∀ src target, (s.td die).branch = some ⟨(s.td die).cycle, src, target, false⟩ → (s.td die).image = some im →
      s.canIssue die = true →
      exec (.branchResolve die) s = .next (s.sealed (s.updTd die (fun t => { t with branch := none })))) ∧
    (s.ready die kLOOP = some ws → (s.td die).loops = [] → (s.td die).pc < bits (bSlot ws 15) 23 0 →
      bitAt (bSlot ws 15) 47 = false → bits (bSlot ws 15) 43 24 ≠ 0 →
      exec (.loopIssue die) s =
        .next (s.sealed ((s.issueBundle die ws (bHold ws)).updTd die (fun t => { t with
          loops := ⟨bits (bSlot ws 15) 49 48, t.pc, bits (bSlot ws 15) 23 0, bits (bSlot ws 15) 43 24⟩ ::
            t.loops })))) ∧
    (∀ l, (s.td die).iterEnd = some l → (s.td die).image = some im → s.canIssue die = true →
      (s.td die).branchDue = false →
      (l.left ≤ 1 → exec (.loopIterationEnd die) s =
        .next (s.sealed (s.updTd die (fun t => { t with loops := t.loops.drop 1 })))) ∧
      (1 < l.left → jumpOk im ((s.td die).pc - 1) l.first = true → exec (.loopIterationEnd die) s =
        .next (s.sealed (s.updTd die (fun t =>
          { t with pc := l.first, loops := { l with left := l.left - 1 } :: t.loops.drop 1 })))))

/-- The commands that end a work item, and the freeze commands, complete (R72, R83, R85, R94). -/
def Obligations.WorkItemEnds : Prop :=
  ∀ (s : State) (die : Nat) (ws : List Word),
    (s.ready die kEND = some ws → ((s.drainAs die 0x109).td die).reports = [] →
      ((s.drainAs die 0x109).td die).endCause = none →
      exec (.endFetch die) s =
        .next (s.sealed ((s.drainAs die 0x109).updTd die (fun t => { releaseHeld t with ending := true })))) ∧
    (s.running die = true → (s.td die).ending = true → s.vwrInv = [] → (s.td die).outstanding = false →
      (s.td die).endCause = none →
      ((s.td die).failed = false →
        exec (.workItemComplete die) s = .next (s.sealed (s.finishItem die seqREADY 0 none))) ∧
      ((s.td die).failed = true →
        exec (.workItemComplete die) s =
          .next (s.sealed ((s.foldAll die).finishItem die seqSTOPPED 2 (some .aborted))))) ∧
    ((s.td die).endCause = some .aborted → s.running die = true → (s.td die).unfrozen = true →
      ((s.td die).ending = false ∨ (s.td die).outstanding = false) →
      exec (.drainComplete die) s =
        .next (s.sealed ((((s.drainAs die 0x109).scoreReports die).foldAll die).finishItem die seqSTOPPED 2
          (some .aborted)))) ∧
    ((s.td die).unfrozen = false → s.running die = true →
      exec (.freezeBegin die) s = .next (s.sealed (s.fset die SEQ_STATUS.FROZEN 1))) ∧
    (∀ u, (s.td die).freezeRefresh = true →
      u = (s.freezeCycles die 192 0x108).updTd die (fun t => { t with freezeRefresh := false }) →
      ((u.td die).unfrozen = true → exec (.freezeEnd die) s = .next (s.sealed (u.fset die SEQ_STATUS.FROZEN 0))) ∧
      ((u.td die).unfrozen = false → exec (.freezeEnd die) s = .next (s.sealed u)))

/-- The scalar slots complete (R136 to R140): where the scalar unit is free, SALU, SLI and SFROMV write their result after their
latency, SLDS reads and SSTS writes 8 B of the slab, SIGNAL adds to a token counter of its own die or sends the increment, MARK
writes a sample record. -/
def Obligations.ScalarSlots : Prop :=
  ∀ (s u v : State) (die c t : Nat) (w : Word) (x : Slot),
    v = s.pmuEvent die 0x10A 1 → x = v.slotOn die c w (0, 0, 0) → t = (v.td die).cycle →
    v.hold die [⟨uScalar x.ctx, t, t + 1⟩] [] = some u →
    (s.issuesOn die 0x30 w c = true →
      exec (.salu die w) s = .next (s.sealed ((u.launch die (regFlight x.core x.ctx (t + 1) (scalarReg (bits w 44 40)).1
        (scalarReg (bits w 44 40)).2 (saluOp (bits w 48 45) ((v.td die).screg x.ctx (bits w 39 35)).toNat
          (if bitAt w 29 then unsignedN 64 (signedN 29 (bits w 28 0))
           else ((v.td die).screg x.ctx (bits w 34 30)).toNat)))).afterSlot die))) ∧
    (s.issuesOn die 0x31 w c = true → bitAt w 39 = false →
      exec (.sli die w) s = .next (s.sealed ((u.launch die (regFlight x.core x.ctx (t + 1) (scalarReg (bits w 44 40)).1
        (scalarReg (bits w 44 40)).2 (unsignedN 64 (signedN 39 (bits w 38 0))))).afterSlot die))) ∧
    (s.issuesOn die 0x34 w c = true → bitAt w 28 = false →
      exec (.sfromv die w) s = .next (s.sealed ((u.launch die (regFlight x.core x.ctx (t + 3) (scalarReg (bits w 44 40)).1
        (scalarReg (bits w 44 40)).2 (lane ((v.td die).vreg x.ctx (bits w 39 35)) (bits w 34 29)))).afterSlot die))) ∧
    (∀ o, s.issuesOn die 0x32 w c = true →
      v.slabOperand die x.ctx ((v.td die).areg x.ctx (bits w 39 36)) 8 8 permR false = some o →
      exec (.slds die w) s = .next (s.sealed ((u.launch die
        { x.flight .slds t with src := o, len := 8, arg := [bits w 44 40] }).afterSlot die))) ∧
    (∀ o, s.issuesOn die 0x33 w c = true →
      v.slabOperand die x.ctx ((v.td die).areg x.ctx (bits w 39 36)) 8 8 permW false = some o →
      exec (.ssts die w) s = .next (s.sealed ((u.launch die
        { x.flight .ssts t with dst := o, bytes := leBytes 8 ((v.td die).screg x.ctx (bits w 44 40)).toNat }).afterSlot die))) ∧
    (s.issuesOn die 0x35 w c = true → bits w 44 42 = die →
      exec (.signal die w) s =
        .next (s.sealed ((u.tokenAdd (bits w 44 42) (bits w 41 38) (bits w 37 22)).afterSlot die))) ∧
    (s.issuesOn die 0x35 w c = true → bits w 44 42 ≠ die →
      exec (.signal die w) s =
        .next (s.sealed (({ u with
          signals := u.signals ++ [(bits w 44 42, bits w 41 38, bits w 37 22, die)] } : State).afterSlot die))) ∧
    (s.issuesOn die 0x36 w c = true →
      exec (.mark die w) s =
        .next (s.sealed ((u.sbRecord die
          [BitVec.ofNat 64 (0x2 + v.fget die SEQ_STATUS.STEP * 2 ^ 16 + bits w 44 29 * 2 ^ 32),
           BitVec.ofNat 64 (t - (v.td die).start), 0, BitVec.ofNat 64 (v.tmkNs die)]).afterSlot die)))

/-- The vector slots complete (R118 to R122): VFP, VINT and VCVT write their 64 lanes to a v register and VCMP its mask to a
p register, on a free FMA pipe after 6, 3, 6 and 3 cycles; VTRN on the transcendental unit after 16. -/
def Obligations.VectorSlots : Prop :=
  ∀ (s u v : State) (die c t : Nat) (w : Word) (x : Slot),
    v = s.pmuEvent die 0x10A 1 → x = v.slotOn die c w (0, 0, 0) → t = (v.td die).cycle →
    (v.hold die [⟨uFma x.ctx 0, t, t + 1⟩] [] = some u →
      (s.issuesOn die 0x08 w c = true →
        exec (.vfp die w) s = .next (s.sealed (((u.coreEvent die x.core 0x006 1).launch die (regFlight x.core x.ctx (t + 6) 0
          (bits w 44 40) (vpuResult (v.td die) x.ctx 0x08 w).toNat)).afterSlot die))) ∧
      (s.issuesOn die 0x09 w c = true →
        exec (.vint die w) s = .next (s.sealed (((u.coreEvent die x.core 0x006 1).launch die (regFlight x.core x.ctx (t + 3) 0
          (bits w 44 40) (vpuResult (v.td die) x.ctx 0x09 w).toNat)).afterSlot die))) ∧
      (s.issuesOn die 0x0A w c = true →
        exec (.vcmp die w) s = .next (s.sealed (((u.coreEvent die x.core 0x006 1).launch die (regFlight x.core x.ctx (t + 3) 3
          (bits w 42 40) (vcmpResult (v.td die) x.ctx w).toNat)).afterSlot die))) ∧
      (s.issuesOn die 0x0B w c = true →
        exec (.vcvt die w) s = .next (s.sealed (((u.coreEvent die x.core 0x006 1).launch die (regFlight x.core x.ctx (t + 6) 0
          (bits w 44 40) (vpuResult (v.td die) x.ctx 0x0B w).toNat)).afterSlot die)))) ∧
    (v.hold die [⟨uTrn x.ctx, t, t + 4⟩] [] = some u → s.issuesOn die 0x0C w c = true →
      exec (.vtrn die w) s = .next (s.sealed (((u.coreEvent die x.core 0x006 1).launch die (regFlight x.core x.ctx (t + 16) 0
        (bits w 44 40) (vpuResult (v.td die) x.ctx 0x0C w).toNat)).afterSlot die)))

/-- The slab slots complete (R124 to R126, R131): with its operands in windows that permit it and its units free, SLD, SST, SCOPY
and SFILL move bytes between slab and registers or within the slab, and SSEND to the slab of its target core. -/
def Obligations.SlabSlots : Prop :=
  ∀ (s u v : State) (die c t a b : Nat) (w : Word) (x : Slot),
    v = s.pmuEvent die 0x10A 1 → x = v.slotOn die c w (0, 0, 0) → t = (v.td die).cycle →
    (s.issuesOn die 0x10 w c = true →
      v.slabOperand die x.ctx ((v.td die).areg x.ctx (bits w 43 40)) (widthBytes (bits w 35 34)) (widthBytes (bits w 35 34))
        permR false = some a →
      v.hold die [⟨uMove x.ctx, t, t + 1⟩] [] = some u →
      exec (.sld die w) s = .next (s.sealed ((u.launch die { x.flight .sld t with
        src := a, len := widthBytes (bits w 35 34),
        arg := [bits w 48 44, bits w 35 34, bits w 36 36, ((v.td die).preg x.ctx (bits w 39 37)).toNat,
          ((v.td die).vreg x.ctx (bits w 48 44)).toNat] }).afterSlot die))) ∧
    (s.issuesOn die 0x11 w c = true → bitAt w 36 = false →
      v.slabOperand die x.ctx ((v.td die).areg x.ctx (bits w 43 40)) (widthBytes (bits w 35 34)) (widthBytes (bits w 35 34))
        permW false = some a →
      v.hold die [⟨uMove x.ctx, t, t + 1⟩] [] = some u →
      exec (.sst die w) s = .next (s.sealed ((u.launch die { x.flight .sst t with
        dst := a,
        bytes := (sstBytes ((v.td die).vreg x.ctx (bits w 48 44)) ((v.td die).preg x.ctx (bits w 39 37)) w).1,
        mask := (sstBytes ((v.td die).vreg x.ctx (bits w 48 44)) ((v.td die).preg x.ctx (bits w 39 37)) w).2 }).afterSlot
          die))) ∧
    (s.issuesOn die 0x12 w c = true →
      v.slabOperand die x.ctx ((v.td die).areg x.ctx (bits w 48 45)) (256 * (bits w 40 29 + 1)) 256 permR false = some a →
      v.slabOperand die x.ctx ((v.td die).areg x.ctx (bits w 44 41)) (256 * (bits w 40 29 + 1)) 256 permW false = some b →
      v.hold die [⟨uMove x.ctx, t, t + (bits w 40 29 + 1)⟩] [] = some u →
      exec (.scopy die w) s = .next (s.sealed ((u.launch die
        { x.flight .scopy t with src := a, dst := b, len := bits w 40 29 + 1 }).afterSlot die))) ∧
    (s.issuesOn die 0x13 w c = true →
      v.slabOperand die x.ctx ((v.td die).areg x.ctx (bits w 48 45)) (256 * (bits w 40 29 + 1)) 256 permW false = some a →
      v.hold die [⟨uMove x.ctx, t, t + (bits w 40 29 + 1)⟩] [] = some u →
      exec (.sfill die w) s = .next (s.sealed ((u.launch die { x.flight .sfill t with
        dst := a, len := bits w 40 29 + 1,
        bytes := (List.range 64).flatMap
          (fun _ => leBytes 4 ((v.td die).sreg x.ctx (bits w 44 41)).toNat) }).afterSlot die))) ∧
    (∀ dest rcore rctx, s.issuesOn die 0x20 w c = true → ssendTarget w c = some dest → v.placeOf die dest = (rcore, rctx) →
      v.slabOperand die x.ctx ((v.td die).areg x.ctx (bits w 48 45)) (64 * (bits w 32 21 + 1)) 64 permR false = some a →
      v.slabOperand die rctx ((v.td die).areg x.ctx (bits w 44 41)) (64 * (bits w 32 21 + 1)) 64 permW false = some b →
      v.hold die (⟨uLocal x.ctx, t, t + (bits w 32 21 + 1)⟩ ::
        ⟨uLocal rctx, t + 4 + 4 * hops c dest, t + 4 + 4 * hops c dest + (bits w 32 21 + 1)⟩ ::
        routeBusy (routeXY c dest) t (bits w 32 21 + 1)) (routeXY c dest) = some u →
      exec (.ssend die w (0, 0, 0)) s = .next (s.sealed ((({ x.flight .ssend t with
        src := a, dst := b, len := bits w 32 21 + 1, lat := 4 + 4 * hops c dest,
        arg := [rcore, b2n (isGuest rctx), 0, 0, 0] } ::
        damageReport x rcore (t + 4 + 4 * hops c dest) (entryPort (routeXY c dest))).foldl
          (fun (y : State) g => y.launch die g) u).afterSlot die)))

/-- The matrix and stack slots complete (R85, R112 to R116, R127, R128): TLOAD fills its buffer half and MPASS streams rows through
a loaded one; VRD brings stack blocks to the slab and VWR slab blocks to the near vault; REFRESH holds its vault for 192 cycles. -/
def Obligations.MatrixAndStackSlots : Prop :=
  ∀ (s u v : State) (die c t o a : Nat) (w : Word) (x : Slot),
    v = s.pmuEvent die 0x10A 1 → x = v.slotOn die c w (0, 0, 0) → t = (v.td die).cycle →
    (∀ k bs links img unc poi u2, s.issuesOn die 0x00 w c = true →
      v.stackOperand die c ((v.td die).areg x.ctx (bits w 44 41)) (tileBytes (bits w 47 45)) 512 permR = some (o, .near k) →
      mapFind (v.td die).bufs (x.ctx * 2 + bits w 48 48) = none → stackHold x (.near k) t 64 136 136 = (bs, links) →
      v.hold die (⟨uBuf x.ctx (bits w 48 48), t, t + 64⟩ :: bs) links = some u →
      u.streamLoad x (.near k) o ((tileBytes (bits w 47 45) + 127) / 128 * 128) = (img, unc, poi, u2) →
      exec (.tload die w (0, 0, 0)) s = .next (s.sealed (((reportFlights x (t + 64 - 1) unc poi ++ []).foldl
        (fun (y : State) f => y.launch die f) ((u2.updTd die (fun q => { q with
          bufs := mapSet q.bufs (x.ctx * 2 + bits w 48 48)
            ⟨t + 64, bits w 47 45, img.take (tileBytes (bits w 47 45)), 0⟩ })).coreEvent die x.core 0x004 1)).afterSlot
          die))) ∧
    (∀ q sc, s.issuesOn die 0x01 w c = true → mapFind (v.td die).bufs (x.ctx * 2 + bits w 48 48) = some q → q.ready ≤ t →
      fmtClass q.fmt = fmtClass (bits w 47 45) → (passShape q.fmt).scaled = true → bitAt w 24 = false →
      v.slabOperand die x.ctx ((v.td die).areg x.ctx (bits w 32 29))
        ((passShape q.fmt).actBytes * (bits w 44 33 + 1)) (passShape q.fmt).actBytes permR false = some a →
      v.slabOperand die x.ctx ((v.td die).areg x.ctx (bits w 28 25)) (4 * (bits w 44 33 + 1)) 4 permR false = some sc →
      v.slabOperand die x.ctx ((v.td die).areg x.ctx (bits w 19 16))
        ((passShape q.fmt).outBytes * (bits w 44 33 + 1)) 256 permW false = some o →
      v.hold die [⟨uPass x.ctx, t, t + (bits w 44 33 + 1)⟩] [] = some u →
      exec (.mpass die w) s = .next (s.sealed ((((u.updTd die (fun y => { y with
          bufs := mapSet y.bufs (x.ctx * 2 + bits w 48 48) { q with useEnd := t + (bits w 44 33 + 1) },
          passEnd := mapSet y.passEnd x.core (t + 140 + (bits w 44 33 + 1)) })).coreCycles die x.core
          (if bits w 47 45 = 0 then 0x002 else 0x003) 1 (bits w 44 33 + 1)).launch die { x.flight .mpass t with
            src := a, dst := o, len := bits w 44 33 + 1, bytes := q.image,
            arg := [q.fmt, bits w 47 45, sc, 0, 0] }).afterSlot die))) ∧
    (∀ k bs links dat unc poi u2, s.issuesOn die 0x18 w c = true →
      v.stackOperand die c ((v.td die).areg x.ctx (bits w 48 45)) (128 * (bits w 40 29 + 1)) 128 permR = some (o, .near k) →
      v.slabOperand die x.ctx ((v.td die).areg x.ctx (bits w 44 41)) (128 * (bits w 40 29 + 1)) 128 permW false = some a →
      stackHold x (.near k) t (bits w 40 29 + 1) (2 * (bits w 40 29 + 1)) (2 * (bits w 40 29 + 1)) = (bs, links) →
      v.hold die (⟨uVcls x.ctx, t, t + (bits w 40 29 + 1)⟩ :: bs) links = some u →
      u.streamLoad x (.near k) o (128 * (bits w 40 29 + 1)) = (dat, unc, poi, u2) →
      exec (.vrd die w (0, 0, 0)) s = .next (s.sealed ((({ x.flight .vrd t with
          dst := a, lat := 96, len := bits w 40 29 + 1, arg := [128], bytes := dat } ::
          (reportFlights x (t + 96 + (bits w 40 29 + 1) - 1) unc poi ++ [])).foldl (fun (y : State) g => y.launch die g)
          (u2.coreCycles die x.core 0x00A 1 (bits w 40 29 + 1))).afterSlot die))) ∧
    (∀ k, s.issuesOn die 0x19 w c = true →
      v.stackOperand die c ((v.td die).areg x.ctx (bits w 48 45)) (128 * (bits w 40 29 + 1)) 128 permW = some (o, .near k) →
      v.slabOperand die x.ctx ((v.td die).areg x.ctx (bits w 44 41)) (128 * (bits w 40 29 + 1)) 128 permR false = some a →
      v.hold die [⟨uVcls x.ctx, t, t + (bits w 40 29 + 1)⟩, ⟨uVport x.ctx, t, t + (bits w 40 29 + 1)⟩,
        ⟨uVault k, t, t + (bits w 40 29 + 1)⟩] [] = some u →
      exec (.vwr die w) s = .next (s.sealed (((u.coreCycles die x.core 0x00B 1 (bits w 40 29 + 1)).launch die
        { x.flight .vwr t with src := a, dst := o, len := bits w 40 29 + 1 }).afterSlot die))) ∧
    (s.issuesOn die 0x1A w c = true → busyIn (v.td die).busy ⟨uGlzAt c, t, t + 192⟩ = false →
      v.hold die [⟨uVcls x.ctx, t, t + 192⟩, ⟨uVault c, t, t + 192⟩, ⟨uRefresh c, t, t + 192⟩] [] = some u →
      exec (.refresh die w) s = .next (s.sealed ((u.startRound die c).afterSlot die)))

/-- The command slots complete (R132 to R135): GLZ reads its descriptor and enters its core's queue, DMA and RATOM enter it with the
operands they read; the commands of a REPLAYABLE step are held. -/
def Obligations.CommandSlots : Prop :=
  ∀ (s u v : State) (die c t a b : Nat) (w : Word) (x : Slot),
    v = s.pmuEvent die 0x10A 1 → x = v.slotOn die c w (0, 0, 0) → t = (v.td die).cycle → v.holdCmd x = some u →
    (s.issuesOn die 0x28 w c = true →
      v.slabOperand die x.ctx ((v.td die).areg x.ctx (bits w 44 41)) 64 64 permR false = some a →
      v.window die ((v.td die).areg x.ctx (bits w 40 37)) 1 1 permG true = some b → v.inRefresh die b = false →
      exec (.glz die w) s = .next (s.sealed (((u.markGlz die b).launch die { x.flight .glz t with
        src := a, len := 64,
        arg := [bits w 48 45, b, bits w 36 33, bits w 32 32, ((v.td die).areg x.ctx (bits w 40 37)).toNat] ++
          keyArgs (v.streamKey die) }).afterSlot die))) ∧
    (s.issuesOn die 0x29 w c = true →
      v.window die ((v.td die).areg x.ctx (bits w 48 45)) (bits ((v.td die).sreg x.ctx (bits w 40 37)) 31 0) 1 permRG true =
        some a →
      v.window die ((v.td die).areg x.ctx (bits w 44 41)) (bits ((v.td die).sreg x.ctx (bits w 40 37)) 31 0) 1 permWG true =
        some b →
      exec (.dma die w) s = .next (s.sealed ((u.enqueue x { Cmd.blank with
        kind := .dma, source := a, target := b, length := bits ((v.td die).sreg x.ctx (bits w 40 37)) 31 0,
        token := bits w 36 33, tokEn := bitAt w 32 }).afterSlot die))) ∧
    (s.issuesOn die 0x2A w c = true → bitAt w 28 = false →
      v.window die ((v.td die).areg x.ctx (bits w 44 41)) (atomBytes (bits w 48 45)) (atomBytes (bits w 48 45)) permG true =
        some a → v.inRefresh die a = false →
      exec (.ratom die w) s = .next (s.sealed (((u.markGlz die a).enqueue x { Cmd.blank with
        key := v.streamKey die, kind := .ratom, op := bits w 48 45, target := a,
        operand := ((v.td die).sreg x.ctx (bits w 40 37)).toNat, compare := ((v.td die).sreg x.ctx (bits w 36 33)).toNat,
        ret := 0, retEn := false, token := bits w 27 24, tokEn := bitAt w 23 }).afterSlot die)))

/-- The commands of R132 and R139 complete: an increment on its way reaches its counter; the oldest command that no open step holds
leaves for its engine; one that has completed adds its token; one that failed is recorded and sets ABORT. -/
def Obligations.CommandEngine : Prop :=
  ∀ (s : State) (die : Nat),
    (∀ n inc src rest, s.signals = (die, n, inc, src) :: rest → s.dieUp die = true →
      exec (.signalArrival die) s = .next (s.sealed (({ s with signals := rest } : State).tokenAdd die n inc))) ∧
    (∀ core cmd, (s.td die).cmdq.find? (fun c => c.core = core) = some cmd → cmd.held = false → s.dieUp die = true →
      s.accepts die cmd = true →
      exec (.commandSend die core) s =
        .next (s.sealed (((s.updTd die (fun t =>
          { t with cmdq := t.cmdq.filter (fun x => x.id ≠ cmd.id), sent := t.sent ++ [cmd] })).sendCmd die cmd).enterStep2 die))) ∧
    (∀ e rest cmd left, isC die = true → s.dieUp die = true → s.dmas = [] →
      takeFirst (fun e => decide (e.die = die && e.fail = none)) s.cmdEnds = some (e, rest) →
      takeFirst (fun c => decide (c.id = e.id)) (s.td die).sent = some (cmd, left) →
      exec (.commandComplete die) s =
        .next (s.sealed ((({ s with cmdEnds := rest } : State).updTd die (fun t => { t with sent := left })).cmdDone die cmd
          e))) ∧
    (∀ e rest cmd left code u, isC die = true → s.dieUp die = true →
      takeFirst (fun e => decide (e.die = die && e.fail ≠ none)) s.cmdEnds = some (e, rest) →
      takeFirst (fun c => decide (c.id = e.id)) (s.td die).sent = some (cmd, left) →
      e.fail = some code → e.recorded = false →
      u = (({ s with cmdEnds := rest } : State).updTd die (fun t => { t with sent := left })).logErr die 2
        (if cmd.kind = .dma then 0x10 else 0x04) cmd.core code cmd.target →
      (u.td die).itemCmd ≤ cmd.id → u.running die = true →
      exec (.commandFailure die) s =
        .next (s.sealed (((u.updTd die (fun t =>
          if t.failed then t else { t with failed := true, failCode := code, failHome := e.home })).fset die SEQ_CTRL.ABORT
            1).endItem die .aborted)))

/-- SEQ_LOAD, IMAGE_LOAD_DONE, SEQ_START, SEQ_ABORT and SEQ_TOKEN_ADD complete (R32, R75, R91, R93, R94, R101): LOAD starts loading in
IDLE, READY and STOPPED, and its checks end it with a code; START zeroes registers, shadows and tokens, unloads the stationary buffers
and runs from ENTRY; ABORT of a running work item begins its end; TOKEN_ADD adds to a counter. -/
def Obligations.SequencerControlCommands : Prop :=
  ∀ (s : State) (die : Nat),
    (isC die = true → s.dieUp die = true →
      s.seqState die = seqIDLE ∨ s.seqState die = seqREADY ∨ s.seqState die = seqSTOPPED →
      exec (.seqLoad die) s = .next (s.sealed (((s.coresReady die).fset die SEQ_STATUS.STATE seqLOADING).updTd die
        (fun t => { t with loading := true })))) ∧
    (∀ base, s.seqState die = seqLOADING → base = s.fget die SEQ_IMAGE_BASE.BASE * 4096 → base / 2 ^ 37 ≠ die →
      exec (.imageLoadDone die) s = .next (s.sealed (s.endLoad die 1 ⟨base, 0, 0, 0, false, 0⟩ []))) ∧
    (∀ base hd bad u v code im, s.seqState die = seqLOADING → base = s.fget die SEQ_IMAGE_BASE.BASE * 4096 →
      base / 2 ^ 37 = die → s.vaultsFree die (base % 2 ^ 37) 256 = true →
      s.stackRead die (base % 2 ^ 37) 256 srcRefill = (hd, bad, u) →
      v = u.fset die SEQ_LOAD_RESULT.REQ_LEVEL (hd.getD 6 0).toNat → v.checkHeader die base hd = (code, im) →
      (bad = true →
        exec (.imageLoadDone die) s = .next (s.sealed (u.endLoad die 6 ⟨base, 0, 0, 0, false, 0⟩ []))) ∧
      (bad = false → code ≠ 0 → exec (.imageLoadDone die) s = .next (s.sealed (v.endLoad die code im []))) ∧
      (∀ bs bad2 w, bad = false → code = 0 → s.vaultsFree die (base % 2 ^ 37 + 256) (128 * im.length) = true →
        v.stackRead die (base % 2 ^ 37 + 256) (128 * im.length) srcRefill = (bs, bad2, w) →
        exec (.imageLoadDone die) s = .next (s.sealed (
          if bad2 then w.endLoad die 6 im []
          else if crc32 (bs.map BitVec.toNat) ≠ leNat ((hd.drop 0x18).take 4) then w.endLoad die 5 im []
          else w.endLoad die 0 im bs)))) ∧
    (∀ im, (s.td die).image = some im → s.dieUp die = true →
      s.seqState die = seqREADY ∨ s.seqState die = seqSTOPPED →
      (s.admissible die im.coreMap im.foldable = false →
        exec (.seqStart die) s = .next (s.sealed (s.fset die SEQ_LOAD_RESULT.CODE 4))) ∧
      (∀ u, s.admissible die im.coreMap im.foldable = true →
        u = (List.range 4).foldl (fun (t : State) i => t.wr die 0 (0x050 + 8 * i) 0) (s.coresReady die) →
        exec (.seqStart die) s =
          .next (s.sealed (((u.fsets die [(SEQ_STATUS.STATE, seqRUNNING),
            (SEQ_STATUS.HALF_RATE, b2n (u.halfRate die im.coreMap))]).setCoreStates die 1).updTd die (fun t =>
              { t with regs := .zero, shadow := .zero, bufs := [], abortAt := 0, replayCores := [], stepCycles := 0,
                       dynWrites := [], pc := im.entry, fetched := none, loops := [], ckpt := none, replayable := false,
                       replays := 0, restoring := false, branch := none, ending := false, endCause := none, failCode := 0,
                       failHome := false, failed := false, issued := [], reports := [],
                       refill := if imageRing im then some 0 else none,
                       halves := if imageRing im then [] else t.halves, flights := [], busy := [], start := t.cycle,
                       itemCmd := t.nextCmd, passEnd := [], step2 := false, freezeRefresh := false,
                       freezeFetch := false }))))) ∧
    (s.running die = true →
      exec (.seqAbort die) s = .next (s.sealed ((s.fset die SEQ_CTRL.ABORT 1).endItem die .aborted))) ∧
    (∀ n inc, isC die = true → n < 16 → inc < 2 ^ 16 →
      exec (.seqTokenAdd die n inc) s = .next (s.sealed (s.tokenAdd die n inc)))

/-- The core commands complete (R46, R50, R56, R57, R61): the injection bits arm, ones clear fault bits, an access through the slab
window waits, or is refused for a fenced core, and is served in turn. -/
def Obligations.CoreFaultAndSlabWindow : Prop :=
  ∀ (s : State) (die core : Nat),
    (isC die = true → core < 64 →
      exec (.tcInjectSlabParity die core) s = .next (s.sealed (s.fset die (TC_INJECT.SLAB_PARITY.unit core) 1)) ∧
      exec (.tcInjectResidue die core) s = .next (s.sealed (s.fset die (TC_INJECT.RESIDUE.unit core) 1)) ∧
      (∀ w : Word, exec (.tcFaultClear die core w) s =
        .next (s.sealed (s.wr die (0x100 + core) 0x008 (clearFirst (setBits (s.rd die (0x100 + core) 0x008) 6 0
          (bits ((s.rd die (0x100 + core) 0x008) &&& ~~~w) 6 0)) 7))))) ∧
    (∀ agent addr len off write data, regionOf addr = .slab die core off → off + len ≤ 2 ^ 22 →
      (s.isFenced die core = false → exec (.dynamicSlabAccess agent addr len write data) s =
        .next (s.sealed { s with slabWait := s.slabWait ++ [⟨agent, addr, write, len, data.take len⟩] })) ∧
      (s.isFenced die core = true → exec (.dynamicSlabAccess agent addr len write data) s =
        .next (s.sealed (s.emit (.refused agent addr))))) ∧
    (∀ r rest, takeFirst (s.slabFree die) s.slabWait = some (r, rest) →
      exec (.dynamicSlabServed die) s = .next (s.sealed (({ s with slabWait := rest } : State).slabServe r)))

/-- The refresh commands complete (R85, R171, R173): the debt rises to at most 8 and the peak follows, a finished round frees the
vault and a self-paced vault in debt starts the next; a vault that leaves self-refresh performs one round, at whose end it is active. -/
def Obligations.VaultRefresh : Prop :=
  ∀ (s : State) (die v : Nat),
    (∀ d u, isC die = true → v < 64 → s.dieUp die = true → s.refreshes die v = true →
      d = min 8 (s.fget die (MFS_STATUS.DEBT.unit v) + 1) →
      u = (s.fset die (MFS_STATUS.DEBT.unit v) d).fset die SEQ_REFRESH.PEAK_DEBT (max d (s.fget die SEQ_REFRESH.PEAK_DEBT)) →
      (u.selfPaced die = true → exec (.refreshDebtRise die v) s = .next (s.sealed (u.tryRound die v))) ∧
      (u.selfPaced die = false → d < u.debtLimit die → exec (.refreshDebtRise die v) s = .next (s.sealed u)) ∧
      (u.selfPaced die = false → u.debtLimit die ≤ d → (u.td die).freezeRefresh = false →
        exec (.refreshDebtRise die v) s = .next (s.sealed (u.insertRefresh die)))) ∧
    (∀ t u, (s.vault die v).refreshing = true → t = s.updVault die v (fun x => { x with refreshing := false }) →
      u = (if t.vState die v = vSELFREF then t.fset die (MFS_STATUS.STATE.unit v) vACTIVE else t) →
      (u.selfPaced die = false → exec (.refreshRoundDone die v) s = .next (s.sealed u)) ∧
      (u.selfPaced die = true → u.refreshes die v = true →
        exec (.refreshRoundDone die v) s = .next (s.sealed (u.tryRound die v)))) ∧
    (isC die = true → v < 64 → s.dieUp die = true → s.vState die v = vSELFREF →
      exec (.selfRefreshExit die v) s =
        .next (s.sealed ((s.fset die (MFS_STATUS.DEBT.unit v) 0).updVault die v (fun x => { x with refreshing := true }))))

/-- The access commands of a vault complete (R161, R162, R165, R177, R203, R345): a dynamic access waits in its vault and is
performed in order in time that the stream and the Glaze units leave, a block of a vault or of a Shelf channel that a read found
uncorrectable is rewritten in poisoned form, the patrol reads the next block. -/
def Obligations.VaultAccess : Prop :=
  ∀ (s : State) (die v : Nat),
    (∀ agent addr len write data o, regionOf addr = .stack die o →
      exec (.vaultDynamicRequest agent addr len write data) s =
        .next (s.sealed (s.updVault die (stackLoc (s.share die) o).1 (fun x =>
          { x with waiting := x.waiting ++ [⟨agent, addr, write, len, data.take len⟩] })))) ∧
    (∀ r rest u, (s.vault die v).waiting = r :: rest → s.vaultFree die v = true →
      s.vaultsFree die (r.addr % 2 ^ 37) r.len = true → s.glzHoldsAny die (r.addr % 2 ^ 37) r.len = false →
      u = s.updVault die v (fun x => { x with waiting := rest }) →
      (r.write = true → exec (.vaultDynamicServed die v) s =
        .next (s.sealed ((u.stackWrite die (r.addr % 2 ^ 37) r.data false srcDynamic).emit (.done r.agent r.addr)))) ∧
      (∀ bs bad t, r.write = false → u.stackRead die (r.addr % 2 ^ 37) r.len srcDynamic = (bs, bad, t) →
        exec (.vaultDynamicServed die v) s = .next (s.sealed (t.emit (.data r.agent r.addr bs bad))))) ∧
    (isQ die = true → v < 32 → s.dieUp die = true →
      exec (.poisonRewrite die v) s = .next (s.sealed (s.shelfPoison (32 * (die - 4) + v)))) ∧
    (∀ b bs, isQ die = false → (s.vault die v).rewrite = b :: bs → s.vaultFree die v = true →
      exec (.poisonRewrite die v) s = .next (s.sealed (s.poisonBlock die v (b / 4)
        (((s.vault die v).rewrite.filter (fun x => x / 4 = b / 4)).map (· % 4))))) ∧
    (∀ blk b u, isC die = true → v < 64 → s.fbit die (MFS_CTRL.SCRUB_EN.unit v) = true → s.vState die v = vACTIVE →
      s.vaultFree die v = true → (s.vault die v).scrub = blk → s.readBlock die v blk srcScrub = (b, u) →
      (b.uncorr.any id = true →
        exec (.scrubRead die v) s =
          .next (s.sealed (u.updVault die v (fun x => { x with scrub := (blk + 1) % 0x1000000 })))) ∧
      (b.uncorr.any id = false →
        encodeBlock (u.isCrumb die v blk) (b.bytes.map BitVec.toNat) b.poison ≠ (u.rawBlock die v blk).take 144 →
        exec (.scrubRead die v) s =
          .next (s.sealed ((u.writeBlock die v blk b.bytes b.poison).updVault die v
            (fun x => { x with scrub := (blk + 1) % 0x1000000 })))))

/-- VAULT_FENCE, VAULT_FENCE_WALK_DONE, VAULT_INIT, VAULT_INIT_DONE, VAULT_INJECT_ARM and STACK_THERM_SAMPLE complete (R172, R175, R179,
R185): fencing begins with a walk of the vault's directory and ends with STATE fenced and DEBT 0, each of its unit's commands failing with
code 0xA; initialisation leaves every byte of the vault and every record of its Glaze area gone and the vault active; an injection arms;
a temperature sample is recorded and trips at 95 °C. -/
def Obligations.VaultControl : Prop :=
  ∀ (s : State) (die v : Nat),
    (isC die = true → v < 64 → s.vState die v = vACTIVE ∨ s.vState die v = vSELFREF → (s.vault die v).walking = false →
      exec (.vaultFence die v) s = .next (s.sealed (((s.fset die (MFS_CTRL.FENCE.unit v) 1).updVault die v
        (fun x => { x with walking := true })).walkDir die v))) ∧
    (∀ t u cs, isC die = true → (s.vault die v).walking = true → s.txns = [] → s.dirOf (.vault die v) = [] →
      t = ((s.updVault die v (fun x => { x with walking := false, refreshing := false, initing := false })).fsets die
        [(MFS_STATUS.STATE.unit v, vFENCED), (MFS_STATUS.DEBT.unit v, 0), (MFS_CTRL.INIT.unit v, 0)]).logErr die 3 0x03 v 0x5 0 →
      u = (if t.hasArea die v then t.fset die (GLZ_STATUS.STATE.unit v) 2 else t) →
      cs = (u.glzUnit die v).cmds ++ (u.glzUnit die v).coming →
      exec (.vaultFenceWalkDone die v) s =
        .next (s.sealed ((cs.foldl (fun x c => x.glzFail die v c 0xA)
          (u.updGlz die v (fun q => { q with cmds := [], coming := [] }))).wake))) ∧
    (isC die = true → v < 64 → s.dieUp die = true →
      s.vState die v = vUNINIT ∨ (s.vState die v = vACTIVE ∧ s.seqState die = seqIDLE) →
      exec (.vaultInit die v) s = .next (s.sealed ((s.fset die (MFS_CTRL.INIT.unit v) 1).updVault die v
        (fun x => { x with initing := true })))) ∧
    ((s.vault die v).initing = true → s.fbit die (MFS_INJECT.ARM.unit v) = false →
      exec (.vaultInitDone die v) s =
        .next (s.sealed ((((s.clearVault die v).clearRecords die v).fsets
          die [(MFS_CTRL.INIT.unit v, 0), (MFS_STATUS.STATE.unit v, vACTIVE)]).updVault die v
          (fun x => { x with initing := false })))) ∧
    (∀ channel wire, isC die = true → v < 64 →
      exec (.vaultInjectArm die v channel wire) s =
        .next (s.sealed (s.fsets die [(MFS_INJECT.CHANNEL.unit v, channel), (MFS_INJECT.WIRE.unit v, wire),
          (MFS_INJECT.ARM.unit v, 1)]))) ∧
    (∀ temps u w ts hot, isC die = true → s.dieUp die = true → ts = (List.range 8).map (fun i => temps.getD i 0 % 256) →
      hot = ts.foldl max 0 →
      u = (s.wr die 0x200 0x110 (BitVec.ofNat 64 (ts.foldr (fun b acc => b + 256 * acc) 0))).fsets die
        [(MFS_DIESTAT.MAX_TEMP, hot), (MFS_DIESTAT.HOT_LAYER, (ts.findIdx? (· = hot)).getD 0)] →
      84 ≤ hot → w = (u.updVault die 0 (fun x => { x with coolSince := 0 })).fset die MFS_DIESTAT.REF2X 1 →
      (hot < 95 → exec (.stackThermSample die temps) s = .next (s.sealed w)) ∧
      (95 ≤ hot → exec (.stackThermSample die temps) s =
        .next (s.sealed ((w.fset die MFS_DIESTAT.TRIP 1).raise ⟨2, die, 3, hot⟩))))

/-- FILL, COPY, ACCUM, SCALE_ADD, OPT_STEP, KV_APPEND, GATHER_COMPACT and TOPK complete (R196 to R201, R203, R206, R208): the front
command's next stroke, whose sources are there and whose target lines are ready, is computed; a direct operation writes its target, a
shadowed one holds its lines at their home for the commit, a staged one keeps its bytes for its staging records. -/
def Obligations.GlazeOperations : Prop :=
  ∀ (s t : State) (die v : Nat) (c d : GlzCmd) (ws : List (Nat × List Byte × Bool)) (old : Nat) (i : Instr),
    isC die = true → v < 64 → s.glzFront die v = some c → c.ready = false → c.stroke < c.strokes →
    (i, c.gop) ∈ [(.fill die v, 0), (.copy die v, 1), (.accum die v, 2), (.scaleAdd die v, 3), (.optStep die v, 4),
      (.kvAppend die v, 5), (.gatherCompact die v, 6), (.topk die v, 7)] →
    (s.glzReads c).flatMap (fun p => c.lacks p.1 p.2) = [] → s.glzCompute die v c = (.ok ws old, t) →
    ws.any (fun w => w.2.2) = false → d = (if c.gop = 6 then { c with total := old } else c) →
    t.writeWait die v c.key ws = none → t.rowWait die (t.rowPieces die v d) = none →
    (c.key ≠ none →
      exec i s = .next (s.sealed (t.setFront die v
        { d with ready := true, writes := ws.map (fun w => (w.1, w.2.1)), old := old }))) ∧
    (c.key = none → (t.rowPieces die v d).any (fun r => t.stageClash die v none r.1 rowPiece) = false →
      (glzShadowed c.gop = true →
        exec i s = .next (s.sealed ((ws.foldl (fun (u : State) w =>
            u.engSnoop (engOf die) true (linesOf w.1 w.2.1.length)) t).setFront die v
          { d with ready := true, writes := ws.map (fun w => (w.1, w.2.1)), old := old, held := true }))) ∧
      (glzShadowed c.gop = false → ∀ u, t.glzWrites die v none ws = (u, none) →
        exec i s = .next (s.sealed ((u.rowCopies die v (t.rowPieces die v d)).setFront die v
          { d with ready := true, writes := ws.map (fun w => (w.1, w.2.1)), old := old }))))

/-- The progress of a Glaze command (R190, R203, R206, R208, R214): it enters the unit's queue with a progress record, each
ready stroke commits its number, a shadowed or staged one with the bytes that it kept, and after the last stroke the record is freed, the command counted and its source told. -/
def Obligations.GlazeProgress : Prop :=
  ∀ (s : State) (die v : Nat),
    (isC die = true → v < 64 → s.dieUp die = true → s.resuming die v = false →
      exec (.glazeCommandArrival die v) s =
        .next (s.sealed ((List.range 5).foldl (fun (t : State) p => t.glzPort die v p) s))) ∧
    (∀ p c rest u, (s.glzUnit die v).cmds.length < 64 →
      takeFirst (fun c => decide (c.port = p)) (s.glzUnit die v).coming = some (c, rest) →
      u = s.updGlz die v (fun x => { x with coming := rest }) → u.glzCheck die v c = none →
      s.glzPort die v p = u.updGlz die v (fun x => { x with cmds := x.cmds ++ [c] })) ∧
    (∀ c d, isC die = true → v < 64 → s.glzFront die v = some c → c.ready = true → c.gop ≠ 8 → s.vaultFree die v = true →
      d = { c with stroke := c.stroke + 1, ready := false, writes := [], held := false } →
      (c.key = none → glzShadowed c.gop = false → exec (.strokeCommit die v) s = .next (s.sealed (s.setFront die v d))) ∧
      (∀ t, c.key ≠ none ∨ glzShadowed c.gop = true →
        c.held = true ∨ s.writeWait die v c.key (cleanWrites c.writes) = none →
        s.glzWrites die v c.key (cleanWrites c.writes) = (t, none) →
        exec (.strokeCommit die v) s = .next (s.sealed (t.setFront die v d)))) ∧
    (∀ c, isC die = true → v < 64 → s.glzFront die v = some c → c.ready = false → c.strokes ≤ c.stroke →
      exec (.glazeCommandComplete die v) s =
        .next (s.sealed ((((s.dropFront die v).finc die (GLZ_CNT.CMD_CNT.unit v)).pmuEvent die 0x115 1).glzEnd c none c.old)))

/-- The Glaze area and journal commands complete (R207, R210, R213, R217): VALID written 1 records the area, and discards its records
or scans them; a
scan's surviving commands continue and its staged ones fail with code 0xC (R207, R211); an apply marks the die busy and sets its key at all 64 units, and BUSY clears with RESULT. -/
def Obligations.GlazeAreaAndApply : Prop :=
  ∀ (s : State) (die v : Nat),
    (∀ base size u w, isC die = true → v < 64 → s.fget die (GLZ_STATUS.HELD.unit v) = 0 →
      s.fget die (GLZ_STATUS.STAGE_USED.unit v) = 0 → 2 ≤ size → size ≤ 256 → base + size ≤ 2048 → ∀ discard : Bool,
      u = (s.updVault die v (fun x => { x with dirOn := false })).fsets die [(GLZ_AREA.VALID.unit v, 1), (GLZ_AREA.MODE.unit v, b2n discard), (GLZ_AREA.SIZE.unit v, size),
        (GLZ_AREA.BASE.unit v, base)] →
      w = u.fset die (GLZ_STATUS.STATE.unit v) (if u.vState die v = vFENCED then 2 else 1) →
      (discard = true → exec (.glzAreaDiscard die v base size) s =
        .next (s.sealed (({ w with
          glz := mapSet w.glz (vaultKey die v) { w.glzUnit die v with area := some (base, size) } } : State).updGlz die v
          (fun x => { x with cmds := [], staging := [], apply := [], kept := [], keptStage := [] })))) ∧
      (discard = false → (w.glzUnit die v).area = some (base, size) → exec (.glzAreaResume die v base size) s =
        .next (s.sealed (({ w with
          glz := mapSet w.glz (vaultKey die v) { w.glzUnit die v with area := some (base, size) } } : State).fset die
          (GLZ_STATUS.RESUMING.unit v) 1)))) ∧
    (∀ u, isC die = true → v < 64 → s.dieUp die = true → s.resuming die v = true → s.vState die v ≠ vSELFREF →
      u = s.fset die (GLZ_STATUS.RESUMING.unit v) 0 → ∀ cs stay, cs = (u.glzUnit die v).kept →
      stay = (cs.filter (fun c => c.key = none)).map (fun c => { c with asked := [] }) →
      exec (.resumeScanDone die v) s =
        .next (s.sealed ((cs.filter (fun c => c.key ≠ none)).foldl (fun t c => t.glzFail die v c 0xC)
          ((u.updGlz die v (fun x => { x with
            cmds := stay ++ x.cmds, staging := x.keptStage ++ x.staging, kept := [], keptStage := [] })).fadd die
            (GLZ_CNT.RESUME_CNT.unit v) stay.length)))) ∧
    (∀ pkg jid, isC die = true → s.fbit die GLZ_APPLY.BUSY = false →
      exec (.glzApplyCommit die pkg jid) s = .next (s.sealed (s.applyBegin die 1 pkg jid)) ∧
      exec (.glzApplyDiscard die pkg jid) s = .next (s.sealed (s.applyBegin die 2 pkg jid))) ∧
    (isC die = true → s.dieUp die = true → s.fbit die GLZ_APPLY.BUSY = true → ∀ u, s.applyUnits die = (u, false) →
      exec (.glzApplyDone die) s =
        .next (s.sealed ((u.fsets die [(GLZ_APPLY.BUSY, 0),
          (GLZ_APPLY.RESULT, b2n ((List.range 64).any (fun v => s.vState die v = vFENCED)))]).applyAll)))

/-- RD_S, RD_E, RD_NC, WR_INV and WR_WT complete at the home (R228, R232, R235, R281 to R283, R453): a request that no message on its
way holds back carries the attribute of its issuer's table and is taken up, or waits at the home behind an earlier request for its line;
a companion's goes through the IOMMU first, and one that does not translate is answered with completer abort. -/
def Obligations.RequestsReachTheirHome : Prop :=
  ∀ (s : State) (agent line : Nat) (data : List Byte) (mask : Nat) (poison : Bool),
    data.length = 64 → mask < 2 ^ 64 →
    (∀ i k write d mk p, (i, k, write, d, mk, p) ∈
        [(Instr.rdS agent line, MsgKind.rdS, false, List.replicate 64 0, 0, false),
         (.rdE agent line, .rdE, true, List.replicate 64 0, 0, false),
         (.rdNc agent line, .rdNc, false, List.replicate 64 0, 0, false),
         (.wrInv agent line data mask poison, .wrInv, true, data, mask, poison),
         (.wrWt agent line data mask poison, .wrWt, true, data, mask, poison)] →
      (agent < 7 ∨ 8 < agent → s.vwrInv = [] → s.anyMsg k agent line = none →
        exec i s = .next (s.sealed (s.recvReq
          (s.withClass (agentTable agent) { mkMsg k agent line with data := d, mask := mk, poison := p })))) ∧
      (∀ a t, agent = 7 ∨ agent = 8 → s.admitted (agent - 7) = true → s.fbit (4 + (agent - 7)) UCI_STATUS.PROTO = true →
        s.siteAddr (agent - 7) (line * 64) write = (some (some a), t) → a < 2 ^ 44 → t.vwrInv = [] →
        t.anyMsg k agent (a / 64) = none →
        exec i s = .next (s.sealed (t.recvReq
          (t.withClass (agentTable agent) { mkMsg k agent (a / 64) with data := d, mask := mk, poison := p })))) ∧
      (∀ t, agent = 7 ∨ agent = 8 → s.admitted (agent - 7) = true → s.fbit (4 + (agent - 7)) UCI_STATUS.PROTO = true →
        s.siteAddr (agent - 7) (line * 64) write = (some none, t) →
        exec i s = .next (s.sealed (t.emit (.abort agent (line * 64)))))) ∧
    (∀ k m t, k ∈ [MsgKind.rdS, .rdE, .rdNc, .wrWt] → s.heldBack k agent line = false → s.anyMsg k agent line = some (m, t) →
      s.takeReq k agent line data mask poison = t.recvReq m)

/-- A home serves a request by the table of R282: what it answers, and the entry after it, where it grants caching. -/
def Obligations.HomeServesByTheTable : Prop :=
  ∀ (s u : State) (t : Txn) (line a : Nat) (d : List Byte) (p : Bool),
    t.req.agent = a → t.req.line = line → a < 6 → s.caches_ t.req = true → s.memLine line srcDynamic = (d, p, u) →
    -- RD_S of a line that no agent holds: DAT_E, and the requester owns it
    (t.req.kind = .rdS → entryOf s line = ⟨false, 0, 0⟩ →
      s.serveReq t = ((u.answer { mkMsg .datE a line with data := d, poison := p, tag := t.req.tag }).setDir line true
        (2 ^ a))) ∧
    -- RD_S of a line that others share: DAT_S, and the requester is added
    (t.req.kind = .rdS → (entryOf s line).owned = false → (agentsOf (entryOf s line).sharers).filter (· ≠ a) ≠ [] →
      s.serveReq t = ((u.answer { mkMsg .datS a line with data := d, poison := p, tag := t.req.tag }).setDir line false
        (setBit (entryOf s line).sharers a))) ∧
    -- RD_S of a line that another owned: DAT_S where the owner kept S, DAT_E where it kept nothing
    (t.req.kind = .rdS → (entryOf s line).owned = true → (agentsOf (entryOf s line).sharers).filter (· ≠ a) ≠ [] →
      s.serveReq t =
        if t.kept then (u.answer { mkMsg .datS a line with data := d, poison := p, tag := t.req.tag }).setDir line false
          (setBit (entryOf s line).sharers a)
        else (u.answer { mkMsg .datE a line with data := d, poison := p, tag := t.req.tag }).setDir line true (2 ^ a)) ∧
    -- RD_E of a line that the requester shares: RSP_GRANT_E; any other: DAT_E; the requester owns it
    (t.req.kind = .rdE →
      s.serveReq t =
        if bitOf (entryOf s line).sharers a && !(entryOf s line).owned then
          (u.answer { mkMsg .grantE a line with tag := t.req.tag }).setDir line true (2 ^ a)
        else (u.answer { mkMsg .datE a line with data := d, poison := p, tag := t.req.tag }).setDir line true (2 ^ a)) ∧
    -- RD_NC of a line that no other owns: DAT_NC, and the entry is unchanged
    (t.req.kind = .rdNc → (entryOf s line).owned = false →
      s.serveReq t = u.answer { mkMsg .datNc a line with data := d, poison := p, tag := t.req.tag }) ∧
    -- a write: the masked bytes are merged into memory and RSP_CMP is sent; all but a named requester are removed
    (t.req.kind = .wrWt ∨ t.req.kind = .wrInv → bitOf (entryOf s line).sharers a = false →
      s.serveReq t = ((((s.memPut line t.req.data t.req.mask t.req.poison srcDynamic).answer
        { mkMsg .cmp a line with tag := t.req.tag }).loseResv line
        (fun x => x / 32 ≠ a || t.req.kind = .wrInv)).setDir line false 0))

/-- What agents send to a home completes (R280, R282, R284): a WB writes memory and is answered, the data of a snoop count as its
response, EVICT removes its sender, and a response goes to the transaction that awaits it. -/
def Obligations.HomeReceives : Prop :=
  ∀ (s t : State) (agent line : Nat) (data : List Byte) (poison keepS : Bool) (m : Msg),
    (s.takeMsg .wb agent line = some (m, t) → t.dieUp (t.homeOf line).die = true →
      exec (.wb agent line data poison) s = .next (s.sealed (t.recvWb m))) ∧
    (s.takeMsg .wbSnp agent line = some (m, t) → t.dieUp (t.homeOf line).die = true →
      exec (.wbSnp agent line data poison keepS) s = .next (s.sealed (t.recvWb m))) ∧
    (s.takeMsg .evict agent line = some (m, t) → t.dieUp (t.homeOf line).die = true →
      exec (.evict agent line) s = .next (s.sealed ((t.dropSharer m.line m.agent).hostSettle m.line))) ∧
    (s.takeMsg .rspI agent line = some (m, t) →
      exec (.rspI agent line) s = .next (s.sealed (t.recvRsp .rspI agent line))) ∧
    (s.takeMsg .rspS agent line = some (m, t) →
      exec (.rspS agent line) s = .next (s.sealed (t.recvRsp .rspS agent line))) ∧
    (s.takeMsg .rspIWb agent line = some (m, t) →
      exec (.rspIWbpend agent line) s = .next (s.sealed (t.recvRsp .rspIWb agent line)))

/-- What a cache receives completes (R279, R281, R283, R284): a snoop is answered from what it holds, a grant is held and what waits
for it is performed, RSP_CMP performs the stores that left to the line, RSP_WBACK frees the write-back buffer's entry. -/
def Obligations.CacheReceives : Prop :=
  ∀ (s t : State) (agent line : Nat) (m : Msg),
    isCacheAgent agent = true →
    (s.takeMsg .snpDown agent line = some (m, t) → t.dieUp (cacheDie agent) = true →
      exec (.snpDown agent line) s = .next (s.sealed (t.answerSnoop agent line false))) ∧
    (s.takeMsg .snpInv agent line = some (m, t) → t.dieUp (cacheDie agent) = true →
      exec (.snpInv agent line) s =
        .next (s.sealed (if t.deferred agent line then s else t.answerSnoop agent line true))) ∧
    (s.takeMsg .datS agent line = some (m, t) →
      exec (.datS agent line) s =
        .next (s.sealed ((t.granted agent line .s m.data m.poison).rangeLate agent line))) ∧
    (s.takeMsg .datE agent line = some (m, t) →
      exec (.datE agent line) s =
        .next (s.sealed ((t.granted agent line .e m.data m.poison).rangeLate agent line))) ∧
    (∀ r, s.takeMsg .datNc agent line = some (m, t) → t.mshrs = [r] → r.agent = agent → r.line = line →
      r.sent = true → r.nc = true →
      exec (.datNc agent line) s = .next (s.sealed
        ((({ t with mshrs := [] } : State).serveOnce agent line m.data m.poison [r]).rangeLate agent line))) ∧
    (∀ l, s.takeMsg .grantE agent line = some (m, t) → t.held agent line = some l →
      exec (.rspGrantE agent line) s =
        .next (s.sealed ((t.granted agent line .e l.data l.poison).rangeLate agent line))) ∧
    (s.takeMsg .cmp agent line = some (m, t) →
      exec (.rspCmp agent line) s = .next (s.sealed (t.writeDone agent line))) ∧
    (∀ u, s.takeMsg .wback agent line = some (m, t) →
      u = (t.updCache agent (fun c => Cache.rangeAck { c with wb := mapErase c.wb line } line)).drainMerge agent
        (fun e => e.line = line && e.due) → u.mshrs = [] →
      exec (.rspWback agent line) s =
        .next (s.sealed { u with harts := u.harts.map (fun h => (h.1, { h.2 with wbWait := h.2.wbWait.filter (· ≠ line) })) }))

/-- The cache commands complete (R291 to R293, R295): the oldest merging entry drains, a confident stream's line and a hinted line
are prefetched, a range operation begins and ends, the cache is disabled and enabled. -/
def Obligations.CacheCommands : Prop :=
  ∀ (s : State) (agent : Nat),
    (∀ e es, (s.cache agent).merge = e :: es →
      exec (.mergeTimeout agent) s = .next (s.sealed (s.drainMerge agent (fun x => x.line = e.line)))) ∧
    (∀ p l, isCacheAgent agent = true → s.fbit (cacheDie agent) (s.cacheRef agent CACHE_PF_CTRL.STRIDE_EN) = true →
      (s.cache agent).streams = [p] → 3 ≤ p.count → 0 < p.stride →
      l = ((p.last : Int) + (max 1 (s.fget (cacheDie agent) (s.cacheRef agent CACHE_PF_CTRL.DIST)) : Nat)).toNat →
      s.prefetchable agent l = true →
      exec (.stridePrefetch agent) s = .next (s.sealed (s.prefetchLine agent l false))) ∧
    (∀ hart addr write, hart < 64 → addr < 2 ^ 44 →
      s.fbit (cacheDie (hart / 32)) (s.cacheRef (hart / 32) CACHE_PF_CTRL.ZICBOP_EN) = true →
      exec (.zicbopPrefetch hart addr write) s = .next (s.sealed (s.prefetchLine (hart / 32) (addr / 64) write))) ∧
    (isCacheAgent agent = true → s.fbit (cacheDie agent) (s.cacheRef agent CACHE_RNG_OP.BUSY) = false →
      exec (.rngClean agent) s = .next (s.sealed (s.rangeRun agent 1)) ∧
      exec (.rngInvalidate agent) s = .next (s.sealed (s.rangeRun agent 2)) ∧
      exec (.rngCleanInvalidate agent) s = .next (s.sealed (s.rangeRun agent 3))) ∧
    (∀ r, (s.cache agent).rng = some r → r.waits = [] → r.later = [] →
      exec (.rangeOpDone agent) s =
        .next (s.sealed ((s.updCache agent (fun c => { c with rng := none })).fset (cacheDie agent)
          (s.cacheRef agent CACHE_RNG_OP.BUSY) 0))) ∧
    (∀ u v, isCacheAgent agent = true → s.cacheOn agent = true →
      u = (((s.drainMerge agent (fun _ => true)).cache agent).side.map (·.1)).foldl (fun (t : State) l => t.dropLine agent l)
        (s.drainMerge agent (fun _ => true)) →
      (u.cache agent).lines.filter (fun e => e.2.st = .m) = [] →
      v = (u.fset (cacheDie agent) (u.cacheRef agent CACHE_CTRL.ENABLE) 0).fset (cacheDie agent)
        (u.cacheRef agent CACHE_STATUS.DIRTY_CNT) 0 →
      exec (.cacheDisable agent) s =
        .next (s.sealed (((v.cache agent).lines.map (·.1)).foldl (fun (t : State) l => t.dropL1 agent l) v))) ∧
    (isCacheAgent agent = true →
      exec (.cacheEnable agent) s =
        .next (s.sealed (s.fset (cacheDie agent) (s.cacheRef agent CACHE_CTRL.ENABLE) 1)))

/-- The table and link commands complete (R228, R234, R244, R245, R248, R250, R257, R264): a commit makes the staged table the committed one, and
every running die then takes it; a NAKed flit is counted and captured, and the sixteenth or thirty-second in a row takes the
direction down or fails the link; a link is up once both ends have the other's LINK_UP; a FAILED link runs link-up again. -/
def Obligations.TablesAndLinks : Prop :=
  ∀ (s : State),
    (s.fbit shDie PKG_RAT_CTRL.BUSY = false →
      exec .ratCommit s =
        .next (s.sealed (({ s with rat := mapSet s.rat ratCommitted s.ratStaged } : State).fset shDie PKG_RAT_CTRL.BUSY 1))) ∧
    (s.fbit shDie PKG_RAT_CTRL.BUSY = true →
      exec .ratCommitDone s =
        .next (s.sealed ((foldN 6 (fun t d => if t.dieUp d then t.takeRat d else t) s).fset shDie PKG_RAT_CTRL.BUSY 0))) ∧
    (∀ q, isQ q = true → s.dieUp q = true →
      ∀ t, t = ({ s with iommuGen := mapSet s.iommuGen q (s.iommuAt q + 1) } : State).updIommu q (fun x => { x with kept := [] }) →
      (t.iomHeadInv q = false → exec (.iommuInvalidation q) s = .next (s.sealed t)) ∧
      (t.iomHeadInv q = true → exec (.iommuInvalidation q) s = .next (s.sealed ((t.fset q IOM_CQHT.HEAD
        ((t.fget q IOM_CQHT.HEAD + 1) % 2 ^ (t.fget q IOM_CQB.LOG2SZ + 1))).iomRun q)))) ∧
    (∀ die router port cls word again key n u, isC die = true → s.dieUp die = true →
      allLinks.contains (router, port) = true → s.linkDown die (router, port) = false →
      key = die * 256 + router * 4 + port → n = s.nakCount key again →
      u = ((s.setNak key n).finc die SWL_CNT.REPLAY_CNT).pmuEvent die 0x10C 1 →
      (n < 16 → exec (.dynamicFlitNak die router port cls word again) s =
        .next (s.sealed (u.swlCapture die false (nextRouter router port) ((port + 2) % 4) word cls))) ∧
      (16 ≤ n → exec (.dynamicFlitNak die router port cls word again) s =
        .next (s.sealed ((((u.wr die 0x280 (0x020 + 8 * (router / 16)) (setBits (u.rd die 0x280 (0x020 + 8 * (router / 16)))
          (router % 16 * 4 + port) (router % 16 * 4 + port) 1)).swlCapture die true router port word cls).finc die
          SWL_CNT.REROUTE_CNT).logErr die 3 0x05 router 0x2 port)))) ∧
    (∀ a b sub word again key n u, linkBlks a b ≠ [] → s.linkState a b = jUP → s.dieUp a = true → s.dieUp b = true →
      key = 2 ^ 16 + (a * 8 + b) * 8 + sub % 8 → n = s.nakCount key again →
      u = (s.setNak key n).linkAll a b (fun t d k _ => t.finc d (JTY_CNT.REPLAY_CNT.inBlk k)) →
      (n < 32 → exec (.jettyFlitNak a b sub word again) s =
        .next (s.sealed (u.linkAll a b (fun t d k _ => t.jtyCapture d k false (decide (d = b)) sub word)))) ∧
      (∀ q k, 32 ≤ n → linkHome a b = some (q, k) →
        exec (.jettyFlitNak a b sub word again) s =
          .next (s.sealed (((u.linkAll a b (fun t d k _ =>
            (t.jtyCapture d k true (decide (d = b)) sub word).fset d (JTY_STATUS.STATE.inBlk k) jFAILED)).logErr a 3 0x06
            (k - 0x290) 0x1 b).logErr b 3 0x06 (k - 0x290) 0x1 a)))) ∧
    (∀ die peer k u, jtyBlk die peer = some k → s.linkState die peer = jALIGNING → linkBlks die peer ≠ [] →
      s.dieUp die = true → s.dieUp peer = true →
      u = s.fsets die [(JTY_STATUS.PEER_LEVEL.inBlk k, (Config.revlevel peer).toNat), (JTY_STATUS.PEER_DIE.inBlk k, peer)] →
      (u.links.ups.contains (peer, die) = false →
        exec (.linkUpReceived die peer) s = .next (s.sealed
          { u with links := { u.links with ups := (die, peer) :: u.links.ups.filter (· ≠ (die, peer)) } })) ∧
      (∀ d j, u.links.ups.contains (peer, die) = true → rateEnd die peer = some (d, j) →
        exec (.linkUpReceived die peer) s = .next (s.sealed
          ((({ u with links := { u.links with ups := u.links.ups.filter (fun x => x ≠ (peer, die) && x ≠ (die, peer)) } } :
            State).linkAll die peer (fun t e k _ => t.fsets e [(JTY_STATUS.STATE.inBlk k, jUP),
              (JTY_STATUS.RATE.inBlk k, u.fget d (JTY_CTRL.RATE.inBlk j)), (JTY_CTRL.REJOIN.inBlk k, 0)])).linkReturned die peer)))) ∧
    (∀ die link p, linkPeer die link = some p → isC die = true → s.dieUp die = true → link < 3 → s.linkState die p = jFAILED →
      exec (.jtyRejoin die link) s =
        .next (s.sealed ((s.alignLink die p).fset die (JTY_CTRL.REJOIN.inBlk (0x290 + link)) 1)))

/-- The commands by which a die stops and returns complete (R21, R253, R254): a reset sends its notices and stops the die, a lost clock
stops it (and a reference clock stops every die it feeds), both return it; a notice or a missing forwarded clock fences the peer's end of the link. -/
def Obligations.DieStopsAndReturns : Prop :=
  ∀ (s : State),
    (∀ die, isC die = true → s.dieUp die = true →
      exec (.dieReset die) s =
        .next (s.sealed ((({ s with links := { s.links with notices := s.links.notices ++ (jtyPeers die).map (fun p => (die, p)) } } :
          State).stopDie die 1).fset shDie PKG_DIE_RESET.RESET
          (bits (setBits (BitVec.ofNat 64 (s.fget shDie PKG_DIE_RESET.RESET)) die die 1) 3 0)))) ∧
    (∀ die, isC die = true → mapGet 0 s.dieMode die = 1 →
      exec (.dieResetExit die) s = .next (s.sealed (s.dieReturns die))) ∧
    (∀ die, isC die = true → mapGet 0 s.dieMode die = 2 →
      exec (.clockReturn die) s = .next (s.sealed (s.dieReturns die))) ∧
    (∀ die, isC die = true → mapGet 0 s.dieMode die = 1 →
      exec (.clockLoss die false) s = .next (s.sealed (s.setMode die 2))) ∧
    (∀ ref, ref = 6 ∨ ref = 7 → exec (.clockLoss ref false) s =
      .next (s.sealed (((if ref = 6 then [0, 1, 4] else [2, 3, 5]) : List Nat).foldl (fun t d => t.loseClock d) s))) ∧
    (∀ die, isC die = true → mapGet 0 s.dieMode die ≠ 1 → s.dieUp die = true →
      exec (.clockLoss die false) s = .next (s.sealed (s.stopDie die 2)) ∧
      exec (.clockLoss die true) s = .next (s.sealed (effDieReset die (s.logErr die 3 0x07 0 0x2 0)))) ∧
    (∀ die, isQ die = true → s.dieUp die = true →
      exec (.clockLoss die false) s = .next (s.sealed (s.loseQ die))) ∧
    (∀ die peer, s.links.notices.contains (peer, die) = true → s.dieUp die = true →
      exec (.downNotice die peer) s =
        .next (s.sealed (({ s with links := { s.links with notices := s.links.notices.filter (· ≠ (peer, die)) } } :
          State).fenceEnd die peer))) ∧
    (∀ die peer k q b, linkHome die peer = some (q, b) → jtyBlk die peer = some k → s.dieUp die = true →
      s.dieUp peer = false → s.links.notices.contains (peer, die) = false → s.links.fenced.contains (die, peer) = false →
      s.fget die (JTY_STATUS.STATE.inBlk k) ≠ jDOWN →
      exec (.forwardedClockLoss die peer) s =
        .next (s.sealed (((s.fenceEnd die peer).finc die (JTY_CNT.CLKLOSS_CNT.inBlk k)).logErr die 3 0x06 (b - 0x290) 0x2
          peer)))

/-- The accesses of a hart complete (R307, R308, R311, R314): a load reads its bytes, a store retires into the store buffer and is
later performed at its memory, a non-temporal store collects in its buffer, a failed remote store is recorded and interrupts. -/
def Obligations.HartAccesses : Prop :=
  ∀ (s : State) (hart addr pbmt : Nat) (data : List Byte),
    (∀ len, s.hartRuns hart = true → s.fencedKind hart (isMemKind addr && pbmt ≠ 2) false = false → 0 < len → len ≤ 64 →
      (addr < 2 ^ 44 && isRegRange addr) = false → s.issuable addr len = true → addr % 64 + len ≤ 64 →
      exec (.hartLoad hart addr len pbmt 0) s = .next (s.sealed (s.loadPart hart addr len pbmt))) ∧
    (s.hartRuns hart = true → s.fencedKind hart (isMemKind addr && pbmt ≠ 2) false = false → isRegRange addr = true →
      addr < 2 ^ 44 → addr % 8 = 0 → s.regStores hart addr = false →
      exec (.hartLoad hart addr 8 pbmt 0) s = .next (s.sealed (s.regGet (.hart hart) addr 8))) ∧
    (s.hartRuns hart = true → s.fencedKind hart (isMemKind addr && pbmt ≠ 2) true = false → 0 < data.length →
      data.length ≤ 64 → (addr < 2 ^ 44 && isRegRange addr) = false → s.issuable addr data.length = true →
      (addr < 2 ^ 44 && s.fencedSlab addr) = false →
      exec (.hartStore hart addr data pbmt) s =
        .next (s.sealed ((s.drainNtLine hart addr).retireAll hart addr data (min pbmt 2)))) ∧
    (∀ id e, (s.hart hart).stores.find? (fun e => e.id = id) = some e → e.sent = false → s.storeWaits hart e = false →
      (s.hart hart).failing = [] → s.dieUp (hartDie hart) = true →
      (e.addr < 2 ^ 44 → isRegRange e.addr = true →
        exec (.storePerformed hart id false) s = .next (s.sealed (s.storeReg hart e))) ∧
      ((e.addr < 2 ^ 44 && isRegRange e.addr) = false →
        (e.addr < 2 ^ 44 && (!s.populated e.addr e.data.length || s.fencedSlab e.addr)) = false →
        s.farOf e.addr = none → s.ioPort (hartDie hart) e.addr = none →
        (∀ die core off, regionOf e.addr = .slab die core off → s.dieUp die = true →
            s.slabPortBusy die core off e.data.length true = false →
          exec (.storePerformed hart id false) s =
            .next (s.sealed ((s.dynSlabPut die core off e.data (maskBytes e.mask e.data.length)).storeDone hart id))) ∧
        (∀ die off, regionOf e.addr = .stack die off →
          exec (.storePerformed hart id false) s = .next (s.sealed (s.storeLocal hart e))))) ∧
    (∀ id kind at_ rest, (s.hart hart).failing = (id, kind, at_) :: rest →
      s.fbit (hartDie hart) (hlRef hart HL_REMOTE_ERR.VALID) = false →
      exec (.remoteStoreFailure hart) s =
        .next (s.sealed (((s.fsets (hartDie hart)
          [(hlRef hart HL_REMOTE_ERR.VALID, 1), (hlRef hart HL_REMOTE_ERR.KIND, kind),
           (hlRef hart HL_REMOTE_ERR.PKG, at_ / 2 ^ 44), (hlRef hart HL_REMOTE_ERR.LINE, at_ % 2 ^ 44 / 64)]).updHart hart
          (fun x => { x with failing := rest, failed := (x.failed + 1) % 2 ^ 32, irq16 := true })).storeDone hart id))) ∧
    (s.hartRuns hart = true → s.fenced hart addr true = false → s.issuable addr data.length = true → isMemKind addr = true →
      addr % 64 + data.length ≤ 64 → s.l1Owned hart (addr / 64) = false →
      ((s.hart hart).nt.any (fun e => e.line = addr / 64) = true →
        exec (.ntStore hart addr data) s = .next (s.sealed (s.updHart hart (fun x =>
          { x with nt := x.nt.map (fun e => if e.line = addr / 64 then e.put (addr % 64) data else e) })))) ∧
      ((s.hart hart).nt = [] →
        exec (.ntStore hart addr data) s = .next (s.sealed (s.updHart hart (fun x =>
          { x with nt := x.nt ++ [NtEnt.put ⟨addr / 64, List.replicate 64 0, 0⟩ (addr % 64) data] }))))) ∧
    (s.hartRuns hart = true → s.fenced hart addr true = false → s.issuable addr data.length = true → isMemKind addr = true →
      data.length ≤ 64 → 64 < addr % 64 + data.length →
      exec (.ntStore hart addr data) s = .next (s.sealed ((s.ntPut hart addr (data.take (64 - addr % 64))).ntPut hart
        (addr + (64 - addr % 64)) (data.drop (64 - addr % 64))))) ∧
    (hart < 64 → s.dieUp (hartDie hart) = true →
      exec (.ntIdleDrain hart) s = .next (s.sealed (s.drainNt hart (fun _ => true))))

/-- The ordering and atomic operations of a hart complete (R310, R312, R313): a fence with w in its predecessors drains, and completes
when they are performed; LR, SC and AMO work on a line that is obtained; an SC with no reservation fails at once; the deferred
snoop is answered after 64 cycles. -/
def Obligations.HartOrderAndAtomics : Prop :=
  ∀ (s : State) (hart addr : Nat) (data : List Byte),
    (∀ pred succ u, s.hartRuns hart = true → (s.hart hart).fence = none → (s.hart hart).mdrain = false →
      u = s.updHart hart (fun x => { x with fence := some (pred % 16 + 16 * (succ % 16)) }) →
      (pred / 2 % 2 = 1 → exec (.fence hart pred succ) s =
        .next (s.sealed ((u.drainNt hart (fun _ => true)).fenceMerge hart))) ∧
      (pred / 2 % 2 = 0 → exec (.fence hart pred succ) s = .next (s.sealed u))) ∧
    (∀ f, (s.hart hart).fence = some f → s.fenceMet hart (f % 16) = true →
      exec (.fenceComplete hart) s = .next (s.sealed (s.updHart hart (fun x => { x with fence := none })))) ∧
    (∀ len u, ∀ constrained : Bool, s.hartRuns hart = true → s.fenced hart addr false = false → 0 < len → addr % len = 0 →
      s.atomicOk hart addr len = true → u = s.drainNtLine hart addr → u.ownStores hart addr = false →
      exec (.lr hart addr len constrained) s =
        .next (s.sealed (u.tryLine (s.hartReq hart addr len .lr [] (b2n constrained))))) ∧
    (∀ u, s.hartRuns hart = true → s.fenced hart addr true = false → data ≠ [] → addr % data.length = 0 →
      s.atomicOk hart addr data.length = true → u = s.drainNtLine hart addr → u.ownStores hart addr = false →
      ((u.hart hart).resv = some (addr / 64) →
        exec (.sc hart addr data) s =
          .next (s.sealed (u.tryLine (s.hartReq hart addr data.length .sc data 0)))) ∧
      ((u.hart hart).resv ≠ some (addr / 64) →
        exec (.sc hart addr data) s =
          .next (s.sealed (((u.updHart hart (fun x => { x with resv := none, deferring := false })).hartEvent hart 0x17 1).emit
            (.data (.hart hart) addr [1] false))))) ∧
    (∀ code u, s.hartRuns hart = true → s.fenced hart addr true = false → s.fenced hart addr false = false → data ≠ [] → addr % data.length = 0 →
      u = s.drainNtLine hart addr → u.remoteOf addr = none → u.atomicOk hart addr data.length = true →
      u.ownStores hart addr = false →
      exec (.amo hart addr code data) s =
        .next (s.sealed (u.tryLine (s.hartReq hart addr data.length .amo data code)))) ∧
    (∀ line u m t, (s.hart hart).resv = some line → (s.hart hart).deferring = true →
      u = s.updHart hart (fun x => { x with deferring := false }) → u.deferred (hart / 32) line = false →
      u.takeMsg .snpInv (hart / 32) line = some (m, t) →
      exec (.snoopDeferralExpiry hart) s = .next (s.sealed (t.answerSnoop (hart / 32) line true)))

/-- The cache-block operations and the hart's own control registers complete (R291, R315, R330, R333, R334): a clean writes a dirty
copy back, a flush removes it too, an invalidate removes it, a zero obtains the line; mdrain drains; the key 0x0FF1 offlines. -/
def Obligations.CacheBlocksAndDrain : Prop :=
  ∀ (s : State) (hart addr : Nat),
    (∀ u l, s.hartRuns hart = true → s.fenced hart addr true = false → s.cboWay hart addr = some true →
      u = (s.drainNtLine hart addr).drainMerge (hart / 32) (fun e => e.line = addr / 64) →
      u.held (hart / 32) (addr / 64) = some l → u.ownStores hart addr = false →
      (l.st = .m →
        exec (.cboClean hart addr) s =
          .next (s.sealed ((u.cboWb hart (addr / 64)).rangeLine (hart / 32) 1 (addr / 64))) ∧
        exec (.cboFlush hart addr) s =
          .next (s.sealed ((u.cboWb hart (addr / 64)).rangeLine (hart / 32) 3 (addr / 64))) ∧
        exec (.cboInval hart addr true) s =
          .next (s.sealed ((u.cboWb hart (addr / 64)).rangeLine (hart / 32) 3 (addr / 64)))) ∧
      (l.st ≠ .m →
        exec (.cboClean hart addr) s = .next (s.sealed u) ∧
        exec (.cboFlush hart addr) s = .next (s.sealed (u.rangeLine (hart / 32) 3 (addr / 64))) ∧
        exec (.cboInval hart addr true) s = .next (s.sealed (u.rangeLine (hart / 32) 3 (addr / 64)))) ∧
      exec (.cboInval hart addr false) s = .next (s.sealed (u.rangeLine (hart / 32) 2 (addr / 64)))) ∧
    (∀ u, s.hartRuns hart = true → s.fenced hart addr true = false → s.cboWay hart addr = some true →
      u = s.drainNtLine hart addr → u.ownStores hart addr = false →
      exec (.cboZero hart addr) s = .next (s.sealed (u.tryLine
        (s.hartReq hart (addr / 64 * 64) 64 .zero (List.replicate 64 0) 0)))) ∧
    (s.hartRuns hart = true → s.fenced hart addr true = false → s.cboWay hart addr = some false →
      exec (.cboZero hart addr) s = .next (s.sealed ((s.drainNtLine hart addr).retireAs hart (addr / 64 * 64)
        (List.replicate 64 0) fullLine 0))) ∧
    (∀ num priv virt, s.hartRuns hart = true → (s.hart hart).mdrain = false → csrTrap num priv virt = none →
      exec (.mdrainWrite hart num priv virt) s =
        .next (s.sealed (((s.drainNt hart (fun e => 2 ^ 44 ≤ e.line * 64)).updHart hart
          (fun x => Hart.drained { x with mdrain := true })).drainMerge (hart / 32) (fun e => e.harts.contains hart)))) ∧
    (∀ priv virt key, s.hartRuns hart = true → csrTrap 0x7C1 priv virt = none → bits key 15 0 = 0x0FF1 →
      exec (.mfence hart priv virt key) s = .next (s.sealed (s.offline hart 2)))

/-- The commands that stop, resume and interrupt a hart complete (R335 to R340): offlining begins and ends with the hart's stores
performed and its lines left to the SLC, an MSI becomes pending or is counted as dropped, the timer is compared, debug halts and
resumes. -/
def Obligations.HartControl : Prop :=
  ∀ (s : State) (hart : Nat), hart < 64 →
    exec (.hartOffline hart) s =
      .next (s.sealed ((s.fset (hartDie hart) (hlRef hart HL_CTRL.OFFLINE) 1).offline hart 3)) ∧
    (∀ u : State, s.hlState hart = 2 → (s.hart hart).stores = [] → (s.hart hart).nt = [] → (s.hart hart).failing = [] →
      u = ({ s with
        l1 := (s.l1.map (fun (e : Nat × List (Nat × Bool)) => (e.1, e.2.filter (fun (p : Nat × Bool) => decide (p.1 ≠ hart))))).filter
          (fun e => decide (e.2 ≠ [])),
        mshrs := s.mshrs.filter (fun r => r.hart ≠ some hart) } : State).fsets (hartDie hart)
          [(hlRef hart HL_CTRL.STATE, 3), (hlRef hart HL_CTRL.CAUSE, (s.hart hart).stopping)] →
      exec (.hartOfflineDone hart) s =
        .next (s.sealed ((u.logErr (hartDie hart) 3 0x08 hart 0x3 (s.hart hart).stopping).notify
          (u.rd (hartDie hart) (hart % 32) 0x008)))) ∧
    (∀ file eiid, file < 6 → 0 < eiid → eiid < 256 →
      (s.hlState hart = 3 → exec (.msiWrite hart file eiid) s =
        .next (s.sealed (({ s with msis := s.msis.erase ⟨hart, file, eiid⟩ } : State).finc (hartDie hart)
          (hlRef hart HL_CTRL.MSI_DROP)))) ∧
      (s.hlState hart ≠ 3 → mapGet 0 s.imsic (hart * 8 + file) / 2 ^ eiid % 2 = 0 →
        exec (.msiWrite hart file eiid) s =
          .next (s.sealed { s with
            msis := s.msis.erase ⟨hart, file, eiid⟩,
            imsic := mapSet s.imsic (hart * 8 + file) (mapGet 0 s.imsic (hart * 8 + file) + 2 ^ eiid) }))) ∧
    exec (.machineTimer hart) s = .next (s.sealed (s.timerCheck hart)) ∧
    (s.hartRuns hart = true → s.debugOn.contains (hartDie hart) = true →
      exec (.debugHalt hart) s = .next (s.sealed (s.fset (hartDie hart) (hlRef hart HL_CTRL.STATE) 1))) ∧
    (s.hlState hart = 1 → s.debugOn.contains (hartDie hart) = true →
      exec (.debugResume hart) s = .next (s.sealed (s.fset (hartDie hart) (hlRef hart HL_CTRL.STATE) 0)))

/-- The Shelf and tidal commands complete (R352, R353, R356, R361): initialisation zeros every channel that is not down, each command
of the tidal engine moves, allocates, frees or describes its page, and a migration goes from acknowledgements to its copy. -/
def Obligations.ShelfAndTide : Prop :=
  ∀ (s : State),
    exec .shelfInit s = .next (s.sealed (s.fset shDie SHF_SPLIT.INIT 1)) ∧
    (s.fbit shDie SHF_SPLIT.INIT = true →
      exec .shelfInitDone s = .next (s.sealed ((foldN 64 (fun (t : State) ch => t.shelfZero ch) s).fset shDie
        SHF_SPLIT.INIT 0))) ∧
    (s.fbit shDie TDL_CMD.BUSY = false → ∀ page account t,
      (t = s.tdlStart 1 page account → page < t.pageCount → mapFind t.remap page = none →
        bits (t.rd shDie 0x060 (0x100 + 8 * (account % 64))) 63 44 < bits (t.rd shDie 0x060 (0x100 + 8 * (account % 64))) 19 0 →
        ∀ n u, t.freePool = (some (.pool n), u) →
        exec (.alloc page account) s =
          .next (s.sealed (((u.zeroPool n).setPage page ⟨.pool n, account % 64, 0, false⟩).tdlEnd 0))) ∧
      (∀ p, t = s.tdlStart 2 page 0 → t.page page = some p →
        exec (.free page) s = .next (s.sealed (t.migrate 2 page p p.slot none))) ∧
      (∀ p n u dst, t = s.tdlStart 3 page 0 → t.page page = some p → p.slot = .pool n → t.reserve ≠ 0 →
        t.freeReserve = (some dst, u) →
        exec (.flood page) s = .next (s.sealed (u.migrate 3 page p dst none))) ∧
      (∀ p n u dst, t = s.tdlStart 4 page 0 → t.page page = some p → p.slot = .reserve n → t.freePool = (some dst, u) →
        exec (.ebb page) s = .next (s.sealed (u.migrate 4 page p dst none))) ∧
      (∀ p, t = s.tdlStart 5 page 0 → page < t.pageCount → t.page page = some p →
        exec (.query page) s = .next (s.sealed ((t.wr shDie 0x060 0x010 p.word).tdlEnd 0)))) ∧
    (∀ die, s.tdl.phase = 1 → die < 6 → s.dieUp die = true → s.tdl.acks.contains die = false →
      s.pageBusy s.tdl.page die = false → s.slotUp s.tdl.src = true → s.slotUp s.tdl.dst = true →
      ((List.range 6).all (fun d => (die :: s.tdl.acks).contains d || !s.dieUp d) = true →
        exec (.migrationAck die) s = .next (s.sealed
          (({ s with tdl := { s.tdl with acks := die :: s.tdl.acks, phase := 2 } } : State).recallPage s.tdl.page))) ∧
      ((List.range 6).all (fun d => (die :: s.tdl.acks).contains d || !s.dieUp d) = false →
        exec (.migrationAck die) s = .next (s.sealed { s with tdl := { s.tdl with acks := die :: s.tdl.acks } }))) ∧
    (s.tdl.phase = 2 → s.slotUp s.tdl.src = true → s.slotUp s.tdl.dst = true →
      s.txns.any (fun t => inPage s.tdl.page t.1) = false → s.dir.any (fun e => inPage s.tdl.page e.1) = false →
      ((∀ c, s.tdl.cmd = some c → c.1 ≠ 2) →
        exec .migrationCopyDone s = .next (s.sealed ((s.copyPage s.tdl.src s.tdl.dst).flip))) ∧
      (∀ p a, s.tdl.cmd = some (2, p, a) →
        exec .migrationCopyDone s =
          .next (s.sealed ((({ s with remap := mapErase s.remap p } : State).wake).tdlEnd 0)))) ∧
    exec .epochAdvance s =
      .next (s.sealed (({ s with remap := s.remap.map (fun (e : Nat × Page) => (e.1, { e.2 with age := min 255 (e.2.age + 1) })) } :
        State).fset shDie TDL_STATUS.EPOCH ((s.fget shDie TDL_STATUS.EPOCH + 1) % 256)))

/-- The commands of Breakwater lanes and flits complete (R368, R370, R371, R375, R390, R395): a lane trains, locks or fails, a flit
with a bad CRC is discarded and told, an acknowledgement flit frees replay entries and credit, a port narrows, retrains, is enabled
or is taken down. -/
def Obligations.BreakwaterLinks : Prop :=
  ∀ (s : State) (port lane : Nat) (d : Nat), d = portDie port → port < 32 → s.dieUp d = true →
    (lane < 8 → s.fget d (portRef port BWF_STATUS.FAILED) / 2 ^ lane % 2 = 0 →
      (s.portState port = pTRAINING →
        exec (.laneTrainingEnd port lane true) s =
          .next (s.sealed ((s.updPort port (fun t => { t with trained := orBit t.trained lane })).portProgress port)) ∧
        exec (.laneTrainingEnd port lane false) s = .next (s.sealed ((s.laneFails port lane).portProgress port)) ∧
        exec (.laneFailure port lane) s = .next (s.sealed ((s.laneFails port lane).portProgress port))) ∧
      (s.portState port = pLOCKING →
        exec (.laneLock port lane) s = .next (s.sealed ((s.fset d (portRef port BWF_STATUS.LOCKED)
          (orBit (s.fget d (portRef port BWF_STATUS.LOCKED)) lane)).portProgress port))) ∧
      (∀ u w, s.portState port = pLINKED → u = s.laneFails port lane →
        w = widthOf (u.fget d (portRef port BWF_STATUS.FAILED)) → w ≠ 0 → u.fget d (portRef port BWF_STATUS.WIDTH) = 3 →
        w ≠ 3 →
        exec (.laneFailure port lane) s = .next (s.sealed
          ((u.updPort port (fun t => { t with width := some w, held := true })).sendCtl port 2 false 1 w)))) ∧
    (s.portState port = pDOWN → s.fbit d (portRef port BWF_CTRL.EN) = true →
      exec (.portRetrainTimer port) s = .next (s.sealed (s.portTrain port))) ∧
    (∀ bytes, s.portUp port = true → bytes.length = 256 →
      (crc32 ((bytes.take 252).map BitVec.toNat) ≠ leNat (bytes.drop 252) →
        exec (.flitReceive port bytes) s = .next (s.sealed (s.sendCtl port 0 true 0 0))) ∧
      (∀ h u, crc32 ((bytes.take 252).map BitVec.toNat) = leNat (bytes.drop 252) → h = leNat (bytes.take 12) →
        bitsN h 95 92 = 0 → bitsN h 91 80 = 0 → bitsN h 67 67 = 0 → bitsN h 66 64 = 0 →
        u = ((s.pmuEvent d 0x209 1).takeAck port (bitsN h 79 68)).takeCredit port (bitsN h 63 0) → u.portUp port = true →
        exec (.flitReceive port bytes) s = .next (s.sealed (u.pump port)))) ∧
    exec (.violationWindowEnd port) s = .next (s.sealed (portWindowEnd port s)) ∧
    (∀ half, (s.port port).width = some half → s.portUp port = true →
      exec (.linkControlResend port) s = .next (s.sealed (s.sendCtl port 2 false 1 half)) ∧
      exec (.widthAck port half) s = .next (s.sealed (s.narrow port half))) ∧
    (s.portUp port = true → s.fget d (portRef port BWF_STATUS.FAILED) = 0 → (s.port port).width = none →
      s.fget d (portRef port BWF_STATUS.WIDTH) = 3 →
      exec (.width port 1) s = .next (s.sealed ((s.sendCtl port 2 false 2 1).narrow port 1)) ∧
      exec (.width port 2) s = .next (s.sealed ((s.sendCtl port 2 false 2 2).narrow port 2))) ∧
    (s.fbit d (portRef port BWF_CTRL.EN) = true →
      (s.portState port = pLINKED → exec (.bwfRetrain port) s = .next (s.sealed (((s.portDown port).portTrain port).fset d
        (portRef port BWF_CTRL.RETRAIN) 1))) ∧
      (s.portState port ≠ pLINKED → exec (.bwfRetrain port) s = .next (s.sealed ((s.portTrain port).fset d
        (portRef port BWF_CTRL.RETRAIN) 1))) ∧
      (s.portState port ≠ pDOWN →
        exec (.bwfEnWrite port false) s = .next (s.sealed (((s.fset d (portRef port BWF_CTRL.EN) 0).portDown port).fset d
          (portRef port BWF_STATUS.STATE) pDISABLED))) ∧
      (s.portState port = pDOWN →
        exec (.bwfEnWrite port false) s = .next (s.sealed ((s.fset d (portRef port BWF_CTRL.EN) 0).fset d
          (portRef port BWF_STATUS.STATE) pDISABLED)))) ∧
    (s.fbit d (portRef port BWF_CTRL.EN) = false →
      exec (.bwfEnWrite port true) s = .next (s.sealed ((s.fset d (portRef port BWF_CTRL.EN) 1).portTrain port)))

/-- The requests of other packages complete (R380, R385, R387, R477): a new request for this package at a port is performed at its
address and answered, a Glaze command or an atomic of the stack goes to its unit, a key message starts its commit or discard, and a
request that was held is sent again or answered that its home is unavailable. -/
def Obligations.FabricRequests : Prop :=
  ∀ (s : State) (port : Nat) (m : FabMsg), s.fabFresh port m = true →
    (∀ d p t, m.typ = mRD → m.aux % 2 = 0 → s.fabAt (m.addr / 64 * 64) = .ok true →
      s.anyRead engHome (m.addr / 64 * 64) 64 = (.got d p, t) →
      exec (.rd port m) s = .next (s.sealed (t.fabAnswered port m mRSPDATA (b2n p) (unitsOf d)))) ∧
    (∀ v t, m.typ = mRD → m.aux % 2 = 1 → isRegRange m.addr = true →
      s.fabReg port (Config.serialOf m.src).toNat m.addr none = .ok (v, t) →
      exec (.rd port m) s = .next (s.sealed (t.fabAnswered port m mRSPDATA 0 [v.toNat]))) ∧
    (∀ die off, s.fabAt (m.addr / 64 * 64) = .ok true → s.partnerShut (m.addr / 64 * 64) m.src = false →
      regionOf (m.addr / 64 * 64) = .stack die off → s.engWait engHome true (m.addr / 64 * 64) 64 = none →
      (m.typ = mWRFULL → exec (.wrFull port m) s = .next (s.sealed
        ((s.engPut engHome (m.addr / 64 * 64 / 64) (unitBytes m.units) fullLine).fabAnswered port m mRSPACK 0 []))) ∧
      (m.typ = mWRMASK → exec (.wrMask port m) s = .next (s.sealed
        ((s.engPut engHome (m.addr / 64 * 64 / 64) (unitBytes (m.units.drop 1)) (m.units.headD 0 % 2 ^ 64)).fabAnswered port m mRSPACK 0
          [])))) ∧
    (∀ die off, m.typ = mATOM → m.aux % 32 < 0x14 → m.addr % atomSize (m.aux % 32) = 0 → regionOf m.addr = .stack die off →
      s.fabAt m.addr = .ok true → s.unitCut port m.addr = false → s.unitRoom port m.addr = true →
      exec (.atom port m) s = .next (s.sealed (((s.fabCmd port m 8 (m.aux % 32) [] (m.units.headD 0 % 2 ^ 64)
        (m.units.headD 0 / 2 ^ 64 % 2 ^ 64) none).takeIn port m).keepTag m))) ∧
    (∀ off d p t, m.typ = mATOM → m.aux % 32 < 0x14 → m.addr % atomSize (m.aux % 32) = 0 → regionOf m.addr = .shelf off →
      s.fabAt m.addr = .ok true → s.engWait engHome true m.addr (atomSize (m.aux % 32)) = none →
      s.engRead engHome m.addr (atomSize (m.aux % 32)) srcDynamic = (d, p, t) →
      exec (.atom port m) s = .next (s.sealed ((t.engWrite engHome m.addr (leBytes (atomSize (m.aux % 32)) (atomResult (m.aux % 32)
        (leNat d) (m.units.headD 0 % 2 ^ 64) (m.units.headD 0 / 2 ^ 64 % 2 ^ 64))) p srcDynamic).fabAnswered port m mRSPOLD 0
        [leNat d]))) ∧
    (∀ die off, m.typ = mGLZ → m.aux % 16 < 8 → regionOf m.addr = .stack die off → s.fabAt m.addr = .ok true →
      s.unitCut port m.addr = false → s.unitRoom port m.addr = true →
      exec (.fabricGlz port m) s = .next (s.sealed (((s.fabCmd port m (m.aux % 16) 0 (unitBytes m.units) 0 0
        (if m.aux / 2 ^ 20 % 2 = 1 then some (m.src, m.aux / 16 % 2 ^ 16) else none)).takeIn port m).keepTag m))) ∧
    (m.typ = mGLZ →
      (m.aux % 16 = 0xC → exec (.journalCommitMessage port m) s = .next (s.sealed ((((s.updFab (fun f =>
        { f with applies := f.applies ++ [(m, port, [], [])] })).takeIn port m).keepTag m).applyAll))) ∧
      (m.aux % 16 = 0xD → exec (.journalDiscardMessage port m) s = .next (s.sealed ((((s.updFab (fun f =>
        { f with applies := f.applies ++ [(m, port, [], [])] })).takeIn port m).keepTag m).applyAll)))) ∧
    (∀ v t, m.typ = mWRREG → isRegRange m.addr = true →
      s.fabReg port (Config.serialOf m.src).toNat m.addr (some (BitVec.ofNat 64 (m.units.headD 0))) = .ok (v, t) →
      exec (.wrReg port m) s = .next (s.sealed (t.fabAnswered port m mRSPACK 0 []))) ∧
    (∀ src agent tag, s.fab.inbox.find? (fun x => x.2.isRequest && x.2.src = src && x.2.agent = agent && x.2.tag = tag) =
        some (port, m) →
      (m.typ = mRD → exec (.requestResend (.fab src agent tag)) s = exec (.rd port m) s) ∧
      (∀ d p t, m.typ = mRD → m.aux % 2 = 0 → s.fabAt (m.addr / 64 * 64) = .ok true →
        s.anyRead engHome (m.addr / 64 * 64) 64 = (.got d p, t) →
        exec (.requestResend (.fab src agent tag)) s =
          .next (s.sealed (t.fabAnswered port m mRSPDATA (b2n p) (unitsOf d)))) ∧
      (s.fabHeld port m = true →
        exec (.homeUnavailable (.fab src agent tag)) s =
          .next (s.sealed (((s.takeIn port m).keepTag m).fabReply port (nakOf s.ownId nHOME m)))))

/-- The answers of other packages complete (R386 to R389): a response ends the request with its tag, RSP_PENDING and its timer keep a
long command alive, a NAK and a timeout fail the request, are counted, and a timeout at another package is reported. -/
def Obligations.FabricAnswers : Prop :=
  ∀ (s : State) (port : Nat) (m : FabMsg), port < 32 → s.portUp port = true →
    (m.typ = mRSPDATA → exec (.rspData port m) s = .next (s.sealed (s.answerIn port m
      (.data (if m.units.length = 1 then (unitBytes m.units).take 8 else unitBytes m.units) (m.aux % 2 = 1))))) ∧
    (m.typ = mRSPACK → exec (.rspAck port m) s = .next (s.sealed (s.answerIn port m .ack))) ∧
    (m.typ = mRSPOLD → exec (.rspOld port m) s = .next (s.sealed (s.answerIn port m (.old (m.units.headD 0 % 2 ^ 64))))) ∧
    (m.typ = mRSPPENDING →
      s.fab.reqs.any (fun r => decide (r.msg.tag = m.tag && r.msg.agent = m.agent && r.sent)) = true →
      exec (.rspPending port m) s = .next (s.sealed ((s.takeIn port m).updFab (fun f =>
        { f with reqs := f.reqs.map (fun r =>
          if decide (r.msg.tag = m.tag && r.msg.agent = m.agent && r.sent) then { r with at_ := s.now } else r) })))) ∧
    (∀ pkg agent tag ps, s.fabRunning pkg agent tag = port :: ps →
      exec (.rspPendingTimer pkg agent tag) s =
        .next (s.sealed (s.dispatch (portDie port) (rspMsg mRSPPENDING s.ownId pkg agent tag 0 [])))) ∧
    (∀ r t, m.typ = mNAK → m.agent ≠ agCol → m.aux ≠ nHOME → m.aux ≠ nNOID → s.fabTake m.tag m.agent = some (r, t) →
      m.src = r.msg.dst →
      exec (.nak port m) s = .next (s.sealed (((s.answerIn port m (.fail 1)).finc r.q BWF_REQ_CNT.NAK_CNT).faultReport r.q
        r.msg.dst rNAK))) ∧
    (∀ tag agent r t u, s.fabTake tag agent = some (r, t) → t.deliver r (.fail 0) = some u → r.msg.dst < siteDst 0 →
      exec (.fabricTimeout tag agent) s =
        .next (s.sealed (((u.fabNext r.msg).finc r.q BWF_REQ_CNT.TIMEOUT_CNT).faultReport r.q r.msg.dst rTIMEOUT)))

/-- The control messages of the fabric complete (R378, R379, R392, R393, R400, R403): neighbours identify each other, a directed request
goes out, is passed on by its path, answers and times out, the manager assigns an ID, reports are merged and sent on, and an event is
read. -/
def Obligations.FabricControl : Prop :=
  ∀ (s : State) (port q : Nat) (m : FabMsg), s.portUp port = true → isQ q = true →
    (∀ u, m.typ = mCTL → m.aux = cIDENT → u = m.units.headD 0 →
      exec (.ident port m) s = .next (s.sealed (((s.takeIn port m).fsets (portDie port)
        [(portRef port BWF_NBR.VALID, 1), (portRef port BWF_NBR.PEER_IDV, bitsN u 62 62),
         (portRef port BWF_NBR.PEER_PORT, bitsN u 67 63), (portRef port BWF_NBR.PEER_SERIAL, bitsN u 127 80),
         (portRef port BWF_NBR2.PEER_LEVEL, bitsN u 49 42), (portRef port BWF_NBR2.PEER_LOC, bitsN u 79 68),
         (portRef port BWF_NBR2.PEER_ID, bitsN u 61 50)]).sendPort port (ctlMsg cIDENTACK 0 [])))) ∧
    (m.typ = mCTL → m.aux = cIDENTACK →
      exec (.identAck port m) s = .next (s.sealed ((s.takeIn port m).updPort port (fun u => { u with ident := false })))) ∧
    ((s.port port).ident = true →
      exec (.identResend port) s = .next (s.sealed (s.sendPort port (ctlMsg cIDENT 0 [s.identUnit port])))) ∧
    (∀ d, m.typ = mCTL → m.aux = cDRREQ → d = DrUnits.of m.units → d.plen ≤ 8 → d.ptr + 1 < d.plen →
      (s.takeIn port m).portUp (drPort d.path (d.ptr + 1)) = true →
      exec (.drReq port m) s = .next (s.sealed ((s.takeIn port m).sendPort (drPort d.path (d.ptr + 1))
        { m with units := ({ d with ret := putPort d.ret d.ptr port, ptr := d.ptr + 1 } : DrUnits).units }))) ∧
    (∀ d, m.typ = mCTL → m.aux = cDRRSP → d = DrUnits.of m.units → 0 < d.ptr →
      exec (.drRsp port m) s = .next (s.sealed ((s.takeIn port m).sendPort (drPort d.ret (d.ptr - 1))
        { m with units := ({ d with ptr := d.ptr - 1 } : DrUnits).units }))) ∧
    (∀ d, m.typ = mCTL → m.aux = cDRRSP → d = DrUnits.of m.units → d.ptr = 0 → m.agent = q →
      mapFind (s.takeIn port m).fab.drAt q = some m.tag → (s.takeIn port m).fbit q BWF_DR_CTRL.BUSY = true → d.write = false →
      exec (.drRsp port m) s =
        .next (s.sealed (((s.takeIn port m).fset q BWF_DR_DATA.DATA d.data).drEnd q d.result))) ∧
    (∀ u plen path, s.dieUp q = true → s.fbit q BWF_DR_CTRL.BUSY = false → plen = s.fget q BWF_DR_PATH.PLEN →
      path = s.fget q BWF_DR_PATH.PATH → 0 < plen → plen ≤ 8 →
      u = (s.fsets q [(BWF_DR_CTRL.BUSY, 1), (BWF_DR_CTRL.RESULT, 0)]).updFab (fun f =>
        { f with nextTag := (s.fab.nextTag + 1) % 65536, drAt := mapSet f.drAt q s.fab.nextTag }) →
      (u.portUp (drPort path 0) = true → exec (.bwfDrGo q) s = .next (s.sealed (u.sendPort (drPort path 0)
        { ctlMsg cDRREQ (s.fget q BWF_DR_ADDR.ADDR) (⟨path, plen, 0, 0, 0, Config.serial.toNat, s.fbit q BWF_DR_CTRL.WRITE,
          s.fget q BWF_DR_DATA.DATA⟩ : DrUnits).units with tag := s.fab.nextTag, agent := q }))) ∧
      (u.portUp (drPort path 0) = false → exec (.bwfDrGo q) s = .next (s.sealed (u.drEnd q 3)))) ∧
    (s.fbit q BWF_DR_CTRL.BUSY = true → exec (.drTimeout q) s = .next (s.sealed (s.drEnd q 1))) ∧
    (∀ valid id, exec (.bwfAssignWrite valid id) s =
      .next (s.sealed (s.fsets shDie [(BWF_ASSIGN.VALID, b2n valid), (BWF_ASSIGN.ID, id)]))) ∧
    (m.typ = mCTL → m.aux = cREPORT →
      exec (.report port m) s = .next (s.sealed ((s.takeIn port m).takeReport (FabReport.ofUnit (m.units.headD 0))))) ∧
    (∀ period, s.fab.forwarded ≤ period →
      (s.fbit shDie BWF_REPORT.ROOT = false →
        exec (.reportPeriodForward period) s = .next (s.sealed (s.sendPeriod period))) ∧
      (s.fbit shDie BWF_REPORT.ROOT = true →
        exec (.rootEventDelivery period) s = .next (s.sealed (s.sendPeriod period)))) ∧
    (∀ agent, exec (.bwfEvtHiRead agent) s = .next (s.sealed ((s.popEvt).emit (.regData agent s.evtWords.2))))

/-- The Tidemark commands complete (R407, R409, R410, R424): a tick leaves with its time, echo and sequence number, and slews the offset of
the side toward the time source; an unacquired master's count is set forward; a holdover of 1 s is reported; the ballast level steps
toward its end. -/
def Obligations.TidemarkCommands : Prop :=
  ∀ (s : State),
    (∀ a b u rest s1 d o, s.tickUp (.jetty a b) = true →
      takeFirst (fun (x : Nat × Nat × Nat) => decide (x = (a, b, u))) s.tidemark.wire = some ((a, b, u), rest) →
      s1 = ({ s with tidemark := { s.tidemark with wire := rest } } : State).updTick (.jetty a b)
        (fun e => { e with peer := some (bitsN u 15 0, ({ s with tidemark := { s.tidemark with wire := rest } } : State).tmk16 a) }) →
      s.tickOffset (.jetty a b) u = some (d, o) → a ≠ s.timeSource → nextDie a s.timeSource 0 = b →
      exec (.tick (.jetty a b) u) s =
        .next (s.sealed { s1 with tidemark := { s1.tidemark with slew := mapSet s1.tidemark.slew a (-o * 640) } })) ∧
    (∀ p e t u, s.tickUp (.port p) = true → e = s.tickEnd (.port p) → t = s.tmk16 (portDie p) →
      (e.peer = none → u = tickUnit (t / 16) 0xFFFFFFFF 0 e.seq →
        exec (.tickSend (.port p)) s = .next (s.sealed ((s.updTick (.port p) (fun x =>
          { x with seq := (x.seq + 1) % 65536, sent := mapSet x.sent x.seq t })).sendPort p (ctlMsg cTICK 0 [u])))) ∧
      (∀ n at_, e.peer = some (n, at_) → u = tickUnit (t / 16) (min (t - at_) 0xFFFFFFFE) n e.seq →
        exec (.tickSend (.port p)) s = .next (s.sealed ((s.updTick (.port p) (fun x =>
          { x with seq := (x.seq + 1) % 65536, sent := mapSet x.sent x.seq t })).sendPort p (ctlMsg cTICK 0 [u]))))) ∧
    (∀ q time, isQ q = true → s.dieUp q = true → s.fbit shDie TMK_CTRL.MASTER = true → s.fbit q TMK_STATUS.ACQUIRED = false →
      s.tmkNs q ≤ BitVec.toNat time →
      exec (.tmkSetWrite q time) s =
        .next (s.sealed (foldN 6 (fun t d => { t with tmk := mapSet t.tmk d (time.toNat * 10240) }) s).setAcquired)) ∧
    (s.fbit s.timeSource TMK_STATUS.HOLDOVER = true → s.idValid = true →
      exec .holdoverFault s = .next (s.sealed (s.faultReport s.timeSource s.ownId rLINK))) ∧
    (∀ die ws, isC die = true → (s.td die).fetched = some ws → s.seqState die = seqAWAITING → (s.td die).step2 = true →
      bBallast ws = true → (s.td die).ballastUp = false → s.releaseNs die = none →
      exec (.ballastRampStep die) s =
        .next (s.sealed (s.fset die SEQ_BALLAST.LEVEL (s.fget die SEQ_BALLAST.LEVEL - 1)))) ∧
    (∀ die ws, isC die = true → (s.td die).fetched = some ws → s.seqState die = seqAWAITING → (s.td die).step2 = true →
      bBallast ws = true → (s.td die).ballastUp = true →
      exec (.ballastRampStep die) s =
        .next (s.sealed ((s.updTd die (fun t => { t with ballastUp := true })).fset die SEQ_BALLAST.LEVEL
          (min (s.td die).ballastTop (s.fget die SEQ_BALLAST.LEVEL + 1)))))

/-- The collective commands complete (R412, R414, R418 to R425): a group's table is copied with its CRC, a command joins its instance and
launches, its messages bring values, arrivals, releases and failures, an instance with every rank done ends, a release adds its token,
and a floor expires. -/
def Obligations.CollectiveCommands : Prop :=
  ∀ (s : State),
    (∀ q group ranks a d p t tbl, isQ q = true → s.dieUp q = true → group < 64 → s.groupBusy group = false → 0 < ranks →
      ranks ≤ 32768 → a = s.fget q (COL_GRP_TABLE.ADDR.plus (16 * group)) * 2 → s.readFrom q 0 idColl a (2 * ranks) = (.got d p, t) →
      tbl = (List.range ranks).map (fun r => leNat ((d.drop (2 * r)).take 2)) →
      exec (.colGroupValid q group ranks) s = .next (s.sealed ((t.updColl (fun c =>
        { c with tables := mapSet c.tables (q * 64 + group) tbl, failed := c.failed.filter (· ≠ group), ended := mapErase c.ended group })).fsets q
        [(COL_GRP_CFG.VALID.plus (16 * group), 1), (COL_GRP_CFG.RANKS.plus (16 * group), ranks),
         (COL_GRP_CFG.CRC.plus (16 * group), tableCrc tbl)]))) ∧
    (∀ q i op c rest u x v, (i, op) ∈ [(Instr.reduce q, opREDUCE), (.allreduce q, opALLREDUCE), (.reduceScatter q, opSCATTER),
        (.allgather q, opGATHER), (.broadcast q, opBROADCAST), (.barrier q, opBARRIER)] →
      takeFirst (fun (c : ColCmd) => decide (c.q = q ∧ c.op = op)) s.coll.coming = some (c, rest) → s.dieUp q = true →
      u = (s.updColl (fun y => { y with coming := rest })).needInst c.group c.seq → u.inst c.group c.seq = some x →
      v = u.setInst { x with cmds := x.cmds ++ [c] } → v.colFormat c = false → v.coll.failed.contains c.group = false →
      v.colMismatch x c = false → c.tick = 0 →
      exec i s = .next (s.sealed (v.colLaunch c.group c.seq c.rank))) ∧
    (∀ group seq x, s.inst group seq = some x → s.engineUp x = true →
      exec (.collectiveLaunch group seq) s = .next (s.sealed
        (((x.cmds.filter (fun m => !m.launched)).foldl (fun t m => t.colLaunch group seq m.rank) s).colStep group seq)) ∧
      (x.cmds.any (fun m => m.launched) = true →
        exec (.collectiveTimeout group seq) s = .next (s.sealed (s.colFail x fTIMEOUT true))) ∧
      exec (.floorExpiry group seq) s = .next (s.sealed (s.setInst { x with floor := false }))) ∧
    (∀ group seq u x tbl, u = s.colStep group seq → u.inst group seq = some x → u.engineUp x = true → tbl = u.instTable x →
      x.cmds.all (x.rankDone tbl.length) = true → x.messages u.ownId tbl = [] →
      exec (.instanceComplete group seq) s = .next (s.sealed (x.cmds.foldl (fun t c =>
        if c.op = opBARRIER then t else t.colToken c)
        (((x.cmds.map (fun (c : ColCmd) => c.q)).dedup.foldl (fun (t : State) q => t.finc q COL_CNT.DONE_CNT)
          { (u.dropInst group seq).updColl (fun c => { c with ended := mapSet c.ended group seq }) with
            queueEnds := u.queueEnds ++ x.cmds.map (fun (c : ColCmd) => (c.queue, none)) }).pmuEvent
          ((x.cmds.map (fun (c : ColCmd) => c.q)).dedup.headD 4) 0x20D (x.combined u.ownId tbl))))) ∧
    (∀ die, s.dieUp die = true →
      exec (.releaseTickApply die) s = .next (s.sealed
        ((s.coll.releases.filter (fun r => decide (r.1 = die) && decide (r.2.2 ≤ s.tickCount die))).foldl
          (fun t r => t.tokenAdd die r.2.1 1)
          (s.updColl (fun c => { c with
            releases := c.releases.filter (fun r => !(decide (r.1 = die) && decide (r.2.2 ≤ s.tickCount die))) }))))) ∧
    (∀ port m kind t x h, s.colFresh port m kind = some (t, x, h) →
      (kind = kDATA → exec (.colData port m) s = .next (s.sealed
        ((t.setInst { x with vals := x.vals ++ [⟨h.lo, h.hi, h.seg, unitBytes (m.units.drop 1)⟩] }).colStep h.group h.seq))) ∧
      (kind = kRESULT → exec (.colResult port m) s = .next (s.sealed
        ((t.setInst { x with inbound := x.inbound ++ [⟨h.lo, h.hi, h.seg, unitBytes (m.units.drop 1)⟩] }).colStep h.group
          h.seq))) ∧
      (kind = kGATHER → exec (.colGather port m) s = .next (s.sealed
        ((t.setInst { x with inbound := x.inbound ++ [⟨h.lo, h.hi, h.seg, unitBytes (m.units.drop 1)⟩] }).colStep h.group
          h.seq))) ∧
      (kind = kARRIVE → exec (.colArrive port m) s = .next (s.sealed
        ((t.setInst { x with vals := x.vals ++ [⟨h.lo, h.hi, 0, []⟩] }).colStep h.group h.seq))) ∧
      (kind = kRELEASE → x.release = none → exec (.colRelease port m) s = .next (s.sealed
        (((t.setInst { x with release := some (m.units.getD 1 0) }).barrierOut { x with release := some (m.units.getD 1 0) }
          (m.units.getD 1 0)).colStep h.group h.seq))) ∧
      (kind = kFAIL → exec (.colFail port m) s = .next (s.sealed
        ((t.colFail x (m.units.getD 1 0 % 8) false).colStep h.group h.seq))))

/-- The host's memory and cache commands complete (R286, R436, R438, R439, R441 to R445): a read or write is served at the home of its
line, a snoop is answered, GO gives the proxy its line or its bytes' leave, a decoder commits, the apertures are read and written in
order, and the package's own CXL.io requests go out and end. -/
def Obligations.HostMemory : Prop :=
  ∀ (s : State) (port line : Nat) (data : List Byte), s.linkUp port = true →
    (s.memOk port line = true → s.lostHome line = false → ∀ snp,
      (snp = 0 → exec (.memRd port line snp) s = .next (s.sealed (s.recvReq (s.withClass homeTable (mkMsg .rdS 6 line))))) ∧
      (snp = 1 → exec (.memRd port line snp) s = .next (s.sealed (s.recvReq (s.withClass homeTable (mkMsg .rdE 6 line))))) ∧
      (1 < snp → exec (.memRd port line snp) s = .next (s.sealed (s.recvReq (s.withClass homeTable (mkMsg .rdNc 6 line)))))) ∧
    (∀ mask poison keepS d, s.memOk port line = true → s.lostHome line = false →
      d = (data ++ List.replicate 64 (0 : Byte)).take 64 →
      (bitOf (entryOf s line).sharers 6 = true → mask % 2 ^ 64 = fullLine → s.dieUp (s.homeOf line).die = true →
        exec (.memWr port line data mask poison keepS) s = .next (s.sealed
          (s.recvWb { mkMsg .wb 6 line with data := d, mask := fullLine, poison := poison, keepS := keepS }))) ∧
      (bitOf (entryOf s line).sharers 6 = false →
        exec (.memWr port line data mask poison keepS) s = .next (s.sealed
          (s.recvReq (s.withClass homeTable
          { mkMsg .wrInv 6 line with data := d, mask := mask % 2 ^ 64, poison := poison }))))) ∧
    (exec (.h2dSnpInv port line) s = .next (s.sealed (s.h2d port line true)) ∧
      exec (.h2dSnpData port line) s = .next (s.sealed (s.h2d port line false)) ∧
      exec (.h2dSnpCur port line) s = .next (s.sealed (s.h2d port line false))) ∧
    (∀ h poison, mapFind s.hostLines line = some h → h.leaving = true →
      exec (.hostGo port (line * 64) data poison) s = .next (s.sealed (s.goLeaving line h))) ∧
    (∀ t poison, mapFind s.hostLines line = none → mapFind s.txns line = some t → t.hostWait = true →
      exec (.hostGo port (line * 64) data poison) s = .next (s.sealed (s.goFilled line
        { data := (data ++ List.replicate 64 (0 : Byte)).take 64, poison := poison, owned := s.wantsOwn t, dirty := false,
          lent := !(s.hostOp t).2, leaving := false } t))) ∧
    (∀ t, mapFind s.txns line = some t → t.snoops.contains 6 = true → s.exposedBy (line * 64) = some port →
      exec (.birsp port line true) s = .next (s.sealed (s.recvRsp .rspS 6 line)) ∧
      exec (.birsp port line false) s = .next (s.sealed (s.recvRsp .rspI 6 line))) ∧
    (∀ dec base size, isPort port = true → dec < 4 → s.dieUp (4 + port) = true → dpaOk base size = true →
      (s.hostPort (1 - port)).hdm = [] →
      exec (.hdmCommit port dec base size) s = .next (s.sealed (s.updHost port (fun p =>
        { p with hdm := p.hdm.filter (fun d => d.1 ≠ dec) ++ [(dec, base, size)], hdmErr := p.hdmErr.filter (· ≠ dec) })))) ∧
    (∀ off, off + data.length ≤ 0x400000 → off / 2 ^ 20 = (off + data.length - 1) / 2 ^ 20 →
      exec (.dportWrite port off data) s = .next (s.sealed (s.dport port (.write (off / 2 ^ 20) data)))) ∧
    (∀ off len, off + len ≤ 0x400000 → off / 2 ^ 20 = (off + len - 1) / 2 ^ 20 →
      exec (.dportRead port off len) s = .next (s.sealed (s.dport port (.read (off / 2 ^ 20) len)))) ∧
    (∀ ap, ap < 4 → exec (.dportStatusRead port ap) s = .next (s.sealed (s.dport port (.status ap)))) ∧
    (∀ agent addr len o, regionOf addr = .host port o → (s.p2pOf port addr).isSome = true → s.ioUp port = true →
      (s.populated addr data.length = true → exec (.p2pRequest agent addr len true data) s = .next (s.sealed
        ((s.emit (.hostIo port addr data.length true data)).emit (.done agent addr)))) ∧
      (agent = .engine → s.populated addr len = true →
        exec (.p2pRequest agent addr len false data) s = .next (s.sealed (s.ioAsk port .engine addr len)))) ∧
    (∀ addr r, s.ios.find? (fun r => r.port = port && r.addr = addr && r.answer = none && r.len ≠ 0) = some r →
      exec (.p2pTimeout port addr) s = .next (s.sealed (s.ioAnswer r none))) ∧
    (∀ queue timeout x rest r, takeFirst (fun (r : IoRead) => decide (r.who = .drain queue)) s.ios = some (x, rest) →
      s.frontRec queue = some r →
      exec (.drainReadCompletion queue timeout) s = .next (s.sealed
        (({ s with ios := rest } : State).setRec { r with drains := r.drains - 1, late := r.late || timeout })))

/-- The commands of a host link complete (R440, R446 to R448): it trains, retrains, is enabled, is lost, ends its reset, leaves service,
and drops its uncertain writes. -/
def Obligations.HostLink : Prop :=
  ∀ (s : State) (port : Nat), isPort port = true →
    (∀ speed width, s.dieUp (4 + port) = true → s.fbit (4 + port) HPU_STATUS.RESETTING = false → (speed = 1 ∨ speed = 2) →
      (width = 1 ∨ width = 2) →
      (s.hpu port HPU_STATUS.LINK ≠ 2 → exec (.hostLinkUp port speed width) s = .next (s.sealed
        ((s.fsets (4 + port) [(HPU_STATUS.LINK, 2), (HPU_STATUS.SPEED, speed), (HPU_STATUS.WIDTH, width)]).updHost port
          (fun p => { p with downAt := none })))) ∧
      (s.linkUp port = true → exec (.hostRetrain port speed width) s = .next (s.sealed
        ((s.fsets (4 + port) [(HPU_STATUS.SPEED, speed), (HPU_STATUS.WIDTH, width)]).finc (4 + port)
          HPU_LOSS.RETRAIN_CNT)))) ∧
    (∀ cause, s.dieUp (4 + port) = true → s.hpu port HPU_STATUS.LINK ≠ 0 →
      exec (.hostLinkLoss port cause) s = .next (s.sealed (s.linkLoss port cause))) ∧
    exec (.hpuResetDone port) s = .next (s.sealed (s.fset (4 + port) HPU_STATUS.RESETTING 0)) ∧
    (∀ mem cache u, s.linkUp port = true →
      (∀ bme, bme = false → u = s.fsets (4 + port) [(HPU_STATUS.BME, 0), (HPU_STATUS.MEM_EN, b2n mem),
          (HPU_STATUS.CACHE_EN, b2n cache)] →
        exec (.hostEnable port bme mem cache) s = .next (s.sealed u.wake)) ∧
      (∀ bme, bme = true → cache = true → u = s.fsets (4 + port) [(HPU_STATUS.BME, 1), (HPU_STATUS.MEM_EN, b2n mem),
          (HPU_STATUS.CACHE_EN, 1)] →
        exec (.hostEnable port bme mem cache) s =
          .next (s.sealed ((u.fset (4 + port) HPU_STATUS.IN_SERVICE 1).reissue port).wake))) ∧
    (s.hpu port HPU_STATUS.LINK ≠ 2 → s.fbit (4 + port) HPU_STATUS.IN_SERVICE = true →
      exec (.portOutOfService port) s =
        .next (s.sealed ((s.failHeld port).fset (4 + port) HPU_STATUS.IN_SERVICE 0))) ∧
    (s.hpu port HPU_LOSS.UNCERTAIN ≠ 0 → s.fbit (4 + port) HPU_STATUS.BME = false →
      exec (.hpuLossDiscard port) s = .next (s.sealed ((s.dropUncertain port).fset (4 + port) HPU_LOSS.DISCARD 1)))

/-- The companion commands complete (R451 to R453): a partner trains or fails admission, its descriptor admits or fails it, silence
fails it, its temperature is recorded and raises its events, and a sideband access with no answer reads 0. -/
def Obligations.CompanionCommands : Prop :=
  ∀ (s : State) (site d : Nat), site < 2 → d = 4 + site → s.dieUp d = true →
    (∀ modules rate cxl u, s.fget d UCI_STATUS.STATE = 1 →
      u = s.fsets d [(UCI_STATUS.MODULES, modules % 16), (UCI_STATUS.RATE, rate), (UCI_STATUS.PROTO, b2n cxl)] →
      (modules % 16 = 15 → 1 ≤ rate → rate ≤ 3 →
        exec (.companionAdmission site modules rate cxl true) s =
          .next (s.sealed ((u.fset d UCI_STATUS.STATE 2).siteStep site))) ∧
      (modules % 16 ≠ 15 →
        exec (.companionAdmission site modules rate cxl true) s = .next (s.sealed ((u.admitEnd site 2).siteStep site)))) ∧
    (∀ bytes b u, s.fget d UCI_STATUS.STATE = 2 → b = (bytes ++ List.replicate 256 (0 : Byte)).take 256 →
      u = (foldN 32 (fun t n => t.wr d 0x160 (0x100 + 8 * n) (BitVec.ofNat 64 (dNum b (8 * n) 8))) s).fset d
        UCI_STATUS.LEVEL (dNum b 6 1) →
      (descResult b ≠ 0 →
        exec (.descriptorReceived site bytes) s = .next (s.sealed ((u.admitEnd site (descResult b)).siteStep site))) ∧
      (descResult b = 0 → u.fbit d UCI_CTRL.MEASURE = false →
        exec (.descriptorReceived site bytes) s = .next (s.sealed ((u.admitEnd site 0).siteStep site)))) ∧
    (s.fget d UCI_STATUS.STATE = 1 →
      exec (.admissionTimeout site) s = .next (s.sealed ((s.admitEnd site 1).siteStep site))) ∧
    (s.fget d UCI_STATUS.STATE = 2 →
      exec (.admissionTimeout site) s = .next (s.sealed ((s.admitEnd site 3).siteStep site))) ∧
    (∀ temp thr lim, s.fget d UCI_STATUS.STATE = 4 → s.siteTemps site = (thr, lim) → temp < thr → temp < lim →
      exec (.companionTempSample site temp) s = .next (s.sealed (s.fset d UCI_STATUS.TEMP (min 255 temp)))) ∧
    (∀ temp thr lim, s.fget d UCI_STATUS.STATE = 4 → s.siteTemps site = (thr, lim) → thr ≤ temp → lim ≤ temp →
      (s.site site).hot = true →
      exec (.companionTempSample site temp) s = .next (s.sealed
        (((s.fset d UCI_STATUS.TEMP (min 255 temp)).finc d UCI_CNT.THERM_CNT).raise ⟨2, d, 5, temp⟩))) ∧
    (∀ g a w rest, (s.site site).side = (g, a, w) :: rest →
      exec (.sidebandTimeout site) s = .next (s.sealed
        ((s.updSite site (fun p => { p with side := rest })).sideEnd g a w 0)))

/-- The commands by which an entry is queued and started complete (R467, R469, R471 to R476): a doorbell raises TAIL, an entry is fetched
and accepted, a partner that does not answer is marked down, and each opcode's work starts. -/
def Obligations.QueueEntries : Prop :=
  ∀ (s : State) (queue : Nat) (x : Queue), x = s.queue queue →
    (∀ tail, queue < 4096 → x.st = 1 → s.dieUp (s.queueDie queue) = true → x.accepted < BitVec.toNat tail →
      tail.toNat ≤ x.accepted + 2 ^ x.ctx.log2 → (s.freeRec (homeQ queue)).isSome = true →
      exec (.doorbell queue tail) s =
        .next (s.sealed (s.updQueue queue (fun y => { y with tail := max y.tail tail.toNat })))) ∧
    (∀ n b t, x.st = 1 → s.hqRuns queue = true → n = (x.fetched.map (·.1)).foldl max x.accepted + 1 → n ≤ x.tail →
      s.readFrom (s.queueDie queue) 0 idQueue (x.ctx.ring + 256 * (n % 2 ^ x.ctx.log2)) 256 = (.got b false, t) → dNum b 8 8 = n →
      exec (.entryFetched queue) s =
        .next (s.sealed (t.updQueue queue (fun y => { y with fetched := y.fetched ++ [(n, b)] })))) ∧
    (∀ n b rest k, s.hqRuns queue = true → s.hq.journal.find? (fun r => r.queue = queue && !r.counted) = none → x.st = 1 →
      x.fetched = (n, b) :: rest → s.freeRec (homeQ queue) = some k →
      (s.entryJournaled queue (JRec.fresh ((homeQ queue - 4) * 2 ^ 15 + k) queue n b) rest).partnered queue = false →
      exec (.entryAccept queue) s =
        .next (s.sealed (((s.entryJournaled queue (JRec.fresh ((homeQ queue - 4) * 2 ^ 15 + k) queue n b) rest).accepted
          (JRec.fresh ((homeQ queue - 4) * 2 ^ 15 + k) queue n b)).putPointer queue))) ∧
    (∀ r u, s.hq.journal.find? (fun r => r.queue = queue && r.mirror ≠ 0) = some r →
      u = ((s.updFab (fun f => { f with reqs := f.reqs.filter (fun x => !(decide (x.origin = .mirror r.jid))) })).updRec r.jid
        (fun x => { x with mirror := 0 })).fset (s.queueDie queue) HQ_STATUS.PARTNER_DOWN 1 →
      exec (.partnerTimeout queue) s = .next (s.sealed ((u.hqErr (s.queueDie queue) 0x5 queue).faultReport (s.queueDie queue)
        (u.fget (homeQ queue) HQ_PARTNER.PKG) rTIMEOUT))) ∧
    (∀ t r, s.entryStarts queue 0 = some (t, r) → exec (.nop queue) s = .next (s.sealed (t.endWith r 0 0))) ∧
    (∀ t r die b u v, s.entryStarts queue 1 = some (t, r) → t.pickDie r = some die →
      t.readFrom (t.queueDie queue) 0 idQueue (r.num 0x28 8) 2048 = (.got b false, u) → v = u.putWindows die b →
      v.sameImage die (r.num 0x20 8 / 4096 * 4096) = true →
      exec (.run queue) s = .next (s.sealed (v.runOn r die))) ∧
    (∀ t r, ∀ g : GlzCmd, ∀ u v die off, s.entryStarts queue 2 = some (t, r) → t.queueGlz queue r = (some (.ok g), u) → g.target < 2 ^ 44 →
      v = u.setRec { r with phase := .running, parts := 1 } → regionOf g.target = .stack die off →
      v.placeOfAddr g.target ≠ .nowhere → v.wayCut (v.unitWay (v.queueDie queue) 0 g.target) = false →
      exec (.glaze queue) s = .next (s.sealed (v.toUnit (v.queueDie queue) 0 0 g))) ∧
    (∀ t r a b parts u v, s.entryStarts queue 3 = some (t, r) →
      t.translate (t.queueDie queue) queue (t.queue queue).ctx.pasid (r.num 0x20 8) (r.num 0x30 8) false = (.ok a, u) →
      u.translate (t.queueDie queue) queue (t.queue queue).ctx.pasid (r.num 0x28 8) (r.num 0x30 8) true = (.ok b, v) →
      r.num 0x30 8 ≠ 0 → parts = pairParts a b (r.num 0x30 8) → parts ≠ [] →
      (∀ p ∈ parts, p.1 < 2 ^ 44 ∧ p.2.1 < 2 ^ 44) →
      exec (.queueDma queue) s = .next (s.sealed
        (parts.foldl (fun t p => (t.notePath (t.recOf r.jid) p.2.1 p.2.2).dmaStart (.queue queue) p.1 p.2.1 p.2.2)
          (v.setRec { r with phase := .running, parts := parts.length })))) ∧
    (∀ t r parts ps t1 u r1, s.entryStarts queue 4 = some (t, r) →
      t.translate (t.queueDie queue) queue (t.queue queue).ctx.pasid (r.num 0x20 8)
        ((r.entry.drop 0x40).take r.inlineLen).length true = (.ok parts, t1) →
      ps = parts.flatMap (fun p => linePieces p.1 p.2.1 p.2.2) → (∀ p ∈ ps, p.2.1 < 2 ^ 44) →
      t1.inlineHere r ((r.entry.drop 0x40).take r.inlineLen) ps = (u, false, false) → u.recOf r.jid = some r1 →
      exec (.write queue) s = .next (s.sealed (u.endWith r1 0 0))) ∧
    (∀ t r, s.entryStarts queue 5 = some (t, r) →
      exec (.collective queue) s = .next (s.sealed ((t.setRec { r with phase := .running, parts := 1 }).updColl (fun x =>
        { x with coming := x.coming ++ [t.entryCol r] }))))

/-- The commands by which entries end and queues are controlled complete (R477, R478, R480, R488): a run's result or an engine's parts
end the entry, its key is applied, its completion is written, a vector is sent, and a queue is enabled, disabled, queried and drained. -/
def Obligations.QueueEndsAndControl : Prop :=
  ∀ (s : State) (queue : Nat),
    (∀ r, s.frontRec queue = some r → s.hqRuns queue = true → s.written r = true →
      (∀ y rest st det, r.phase = .running → r.opcode = 1 → (s.td (r.die.getD 0)).results = y :: rest →
        (s.updTd (r.die.getD 0) (fun t => { t with results := rest })).runStatus r (r.die.getD 0) y = (st, det, false) →
        exec (.runEnd queue) s =
          .next (s.sealed ((s.updTd (r.die.getD 0) (fun t => { t with results := rest })).endWith r st det))) ∧
      (∀ u r0 v r1, r.phase = .running → r.opcode ≠ 1 →
        u = s.dmaAll (fun d => d.ofQueue queue) →
        u.recOf r.jid = some r0 → u.takeParts r0 = (v, r1) → r1.parts = 0 → r1.bad = none →
        exec (.runEnd queue) s = .next (s.sealed (v.endWith r1 0 0))) ∧
      (∀ u r1, r.phase = .commit → u = s.applyKey r true → u.recOf r.jid = some r1 → 4 ≤ r1.applied.length → r1.pkgs = [] →
        r1.again = false →
        exec (.runEnd queue) s = .next (s.sealed (u.setRec { r1 with phase := .ended }))) ∧
      ((s.queue queue).stop = 0 →
        (r.phase = .ended → r.paths = [] → exec (.entryComplete queue) s = .next (s.sealed (s.journalDone r))) ∧
        (r.phase = .drain → r.drains = 0 → exec (.entryComplete queue) s = .next (s.sealed (s.journalDone r))) ∧
        (r.phase = .done → exec (.entryComplete queue) s = .next (s.sealed (s.writeCpl r))))) ∧
    (∀ port vector, (s.hostPort port).pba.contains vector = true → s.msixOpen port vector = true →
      exec (.msixPendingSend port vector) s = .next (s.sealed
        ((s.updHost port (fun p => { p with pba := p.pba.filter (· ≠ vector) })).msixNotify port vector))) ∧
    (∀ die loc op t, isQ die = true → s.dieUp die = true → loc < 2048 → s.fbit die HQ_QCMD.BUSY = false →
      t = s.qcmdStart die op loc →
      (∀ b u p v n, op = 1 → (t.queue (queueOf die loc)).st = 0 →
        t.readFrom die 0 idQueue (t.fget die HQ_CTX.BASE * 2 ^ 17 + 64 * loc) 64 = (.got b false, u) → ctxOk b = true →
        u.readFrom die 0 idQueue (QCtx.of b).accept 8 = (.got p false, v) →
        n = ((v.hq.journal.filter (fun r => r.queue = queueOf die loc && r.counted)).map (·.seq)).foldl max (leNat p) →
        exec (.hqEnable die loc) s = .next (s.sealed ((v.updQueue (queueOf die loc) (fun _ =>
          { st := 1, stop := 0, ctx := QCtx.of b, tail := n, accepted := n, ptr := leNat p, fetched := [] })).qcmdEnd die 0))) ∧
      (op = 2 → (t.queue (queueOf die loc)).st = 1 →
        exec (.hqDisable die loc) s = .next (s.sealed
          ((t.updQueue (queueOf die loc) (fun x => { x with st := 3, fetched := [] })).qcmdEnd die 0))) ∧
      (∀ y, op = 3 → y = t.queue (queueOf die loc) →
        exec (.hqQuery die loc) s = .next (s.sealed ((t.fsets die [(HQ_QSTAT.STATE, y.st), (HQ_QSTAT.STOP, y.stop),
          (HQ_QSTAT.ACCEPTED, y.accepted % 2 ^ 48)]).qcmdEnd die 0)))) ∧
    ((s.queue queue).st = 3 → s.frontRec queue = none →
      exec (.queueDrained queue) s = .next (s.sealed (s.updQueue queue (fun x => { x with st := 0 }))))

/-- The commands by which a die's point, its droop and the package's events change complete (R495 to R498, R511, R512, R524): a request
and a software event go to the arbiter, a tick advances time and the tick count, a ramp ends at its target, and a droop stands until
every domain has cleared and the settling has ended. -/
def Obligations.PointsDroopAndEvents : Prop :=
  ∀ (s : State) (die : Nat), s.dieUp die = true →
    (∀ point, die < 6 → exec (.pwrReqWrite die point) s =
      .next (s.sealed (((s.fset die (pwr die PWR_POINT.REQ) (point % 16)).showCeil die).raise ⟨7, die, 0, 0⟩))) ∧
    (∀ n, (s.dieP die).target = some n → s.droops die = false →
      exec (.voltageRampDone die) s = .next (s.sealed ((s.updP die (fun p => { p with target := none })).fsets die
        [(pwr die PWR_POINT.CUR, n), (pwr die PWR_POINT.BUSY, 0)]))) ∧
    (∀ dom, die < 6 → (s.dieP die).droop.contains dom = false → dom = 0 ∨ dom = 1 ∧ isQ die = true →
      exec (.droop die dom) s = .next (s.sealed ((((s.updP die (fun p => { p with droop := p.droop ++ [dom], settling := false })).fset
        die (pwr die PWR_DROOP.ACTIVE) 1).finc die (pwr die PWR_DROOP.DROOP_CNT)).raise ⟨4, die, dom, 0⟩))) ∧
    (∀ dom rest, (s.dieP die).droop.contains dom = true → rest = (s.dieP die).droop.filter (· ≠ dom) →
      (rest = [] → exec (.droopClear die dom) s = .next (s.sealed
        ((s.updP die (fun p => { p with droop := [], settling := true })).fset die (pwr die PWR_DROOP.ACTIVE) 0))) ∧
      (rest ≠ [] → exec (.droopClear die dom) s = .next (s.sealed
        (s.updP die (fun p => { p with droop := rest, settling := false }))))) ∧
    (∀ u, (s.dieP die).settling = true → u = s.updP die (fun p => { p with settling := false }) →
      (u.fbit die (pwr die PWR_POINT.DEFERRED) = true → exec (.droopSettleEnd die) s =
        .next (s.sealed ((u.fset die (pwr die PWR_POINT.DEFERRED) 0).changePoint die))) ∧
      (u.fbit die (pwr die PWR_POINT.DEFERRED) = false → exec (.droopSettleEnd die) s = .next (s.sealed u))) ∧
    (∀ code, s.power.phase ≠ .off → s.power.phase ≠ .held →
      exec (.evtSwWrite code) s = .next (s.sealed (s.raise ⟨8, s.arb, 0, code % 2 ^ 16⟩))) ∧
    (s.power.phase = .off ∨ s.power.phase = .held →
      exec .eventTickResolve s = .next (s.sealed { s with now := s.now + 1024 })) ∧
    (∀ u v : State, s.power.phase ≠ .off → s.power.phase ≠ .held → u = ({ s with events := [] } : State).resolveEvents s.events →
      v = { u.tmkAdvance with now := u.now + 1024 } → v.power.phase ≠ .held →
      exec .eventTickResolve s =
        .next (s.sealed (v.fset v.arb EVT_TICK.TICK ((v.fget v.arb EVT_TICK.TICK + 1) % 2 ^ 64))))

/-- The commands of the power cap, of heat and of the package's pins complete (R499 to R510, R513, R514, R562, R573, R607, R609): a
control period adds energies and sets the level and the ceilings, a cap change, a stop input and an external reset go to the arbiter,
and power and the end of reset start the package. -/
def Obligations.PowerHeatAndPins : Prop :=
  ∀ (s : State),
    (∀ energies package temps acts s1 s2 s3, s.runs = true →
      s1 = foldN 6 (fun t d => if t.dieUp d then t.addEnergy d (pwr d PWR_ENERGY.ENERGY_UJ) (energies.getD d 0) else t) s →
      s2 = acts.foldl (fun t a => t.meter a) (s1.addEnergy shDie PKG_ENERGY.ENERGY_UJ package) →
      s3 = (s2.updPower (fun p => { p with periods := (package :: p.periods).take 1000 })).fset shDie PKG_CAPSTAT.PERIOD_W
        (min 0xFFFF (package * 10 / 1024)) →
      exec (.controlPeriodEnd energies package temps acts) s =
        .next (s.sealed (foldN 6 (fun t d => t.thermStep temps d) s3.adjustLevel))) ∧
    (s.power.phase ≠ .off → s.power.phase ≠ .held →
      (∀ w, exec (.pkgCapWrite w) s =
        .next (s.sealed ((s.wr shDie 0x180 0x080 (w &&& fieldMask 51 0)).raise ⟨5, s.arb, 0, (w &&& fieldMask 51 0).toNat⟩))) ∧
      (∀ b, s.power.capN = b → exec (.capLimitEdge b) s =
        .next (s.sealed ((s.updPower (fun p => { p with capN := !b })).raise ⟨5, s.arb, 1, b2n b⟩))) ∧
      exec .coolantOkLow s = .next (s.sealed ((s.updPower (fun p => { p with coolant := false })).raise ⟨1, s.arb, 0, 0⟩)) ∧
      exec .trayPwrOkLow s = .next (s.sealed ((s.updPower (fun p => { p with tray := false })).raise ⟨1, s.arb, 1, 0⟩)) ∧
      (s.power.tray = true → exec .railFault s = .next (s.sealed (s.raise ⟨1, s.arb, 1, 1⟩))) ∧
      exec .pkgResetAssert s = .next (s.sealed ((s.updPower (fun p => { p with resetN := false })).raise ⟨3, s.arb, 0, 0⟩))) ∧
    exec .coolantOkHigh s = .next (s.sealed (s.updPower (fun p => { p with coolant := true }))) ∧
    (s.power.tray = false → exec .trayPwrOkHigh s = .next (s.sealed
      { s.updPower (fun p => { p with tray := true }) with lht := { s.lht with rose := true } })) ∧
    (∀ site, site < 2 → (s.site site).hot = true → s.fget (4 + site) UCI_STATUS.TEMP + 5 ≤ (s.siteTemps site).1 →
      exec (.companionThrottleEnd site) s = .next (s.sealed (s.updSite site (fun p => { p with hot := false })))) ∧
    (∀ channel derate u, channel < 64 → s.dieUp (shfDie channel) = true →
      u = s.updPower (fun p => { p with derate := mapSet p.derate channel derate }) →
      exec (.shelfTemperatureRead channel derate false) s = .next (s.sealed u) ∧
      exec (.shelfTemperatureRead channel derate true) s = .next (s.sealed (u.raise ⟨2, shfDie channel, 6, channel⟩))) ∧
    (∀ links shelf, s.power.phase = .held → s.isStopped = false → s.power.coolant = true → s.power.tray = true →
      exec (.pkgResetDeassert links shelf) s =
        .next (s.sealed ((s.updPower (fun p => { p with resetN := true })).startUp links shelf))) ∧
    (s.power.phase = .off → exec .powerUp s = .next (s.sealed { s.updPower (fun p => { p with phase := .held }) with
      strand := { s.strand with nextSeq := (s.strand.flashSeq + 1) % 2 ^ 32 }, lht := { s.lht with entryAt := s.now } })) ∧
    exec .powerLoss s = .next (s.sealed { State.reset with
      pending := s.pending, out := s.out, now := s.now, freeCtr := s.freeCtr,
      regs := s.regs.filter (fun (e : Nat × Word) => e.1 = regKey shDie 0x180 0x008 && bitAt e.2 7), dieMode := allHeld,
      strand := { Strand.reset with
        copies := s.strand.copies, writes := s.strand.writes, flashSeq := s.strand.flashSeq, permEnd := s.strand.permEnd,
        directEnd := s.strand.directEnd },
      power := { Power.reset with coolant := false, tray := false, resetN := false, phase := .off },
      lht := { s.lht with granted := false, harbour := false } })

/-- The commands by which faults, losses and the boot record are handled complete (R531 to R537, R545, R548, R556, R559, R560, R570). -/
def Obligations.FaultsLossesAndBoot : Prop :=
  ∀ (s : State) (die : Nat), s.dieUp die = true →
    (∀ core, isC die = true → core < 64 → (s.fset die ERR_FENCE.CORE core).isFenced die core = false →
      exec (.errFenceGo die core) s =
        .next (s.sealed (((s.fset die ERR_FENCE.CORE core).fset die ERR_FENCE.GO 1).fenceCore die core))) ∧
    (die < 6 → exec (.scoreDecay die) s = .next (s.sealed
      (foldN (if isC die then 64 else 32) (fun t n => if t.score die n = 0 then t else t.setScore die n (t.score die n - 1)) s))) ∧
    (∀ agent, s.links.losses.contains (die, agent) = true →
      exec (.lossRelay die agent) s = .next (s.sealed { s with
        links := { s.links with losses := s.links.losses.filter (fun (l : Nat × Nat) => l ≠ (die, agent)) },
        sweeps := s.sweeps.filter (fun (w : Nat × Nat) => w ≠ (die, agent)) ++ [(die, agent)] })) ∧
    (∀ (agent : Nat) (mine : List (Nat × DirEnt)) (owned : List Nat) (u v w : State), s.sweeps.contains (die, agent) = true →
      mine = s.dir.filter (fun (e : Nat × DirEnt) =>
        (s.homeOf e.1).die = die && s.homeOf e.1 ≠ .none && bitOf e.2.sharers agent) →
      owned = (mine.filter (fun (e : Nat × DirEnt) => e.2.owned)).map (fun (e : Nat × DirEnt) => e.1) →
      u = mine.foldl (fun t (e : Nat × DirEnt) => t.dropSharer e.1 agent) (owned.foldl (fun t l => t.sweepBlock l) s) →
      v = ((u.fadd die (ERR_SWEEP.POISONED_CNT.inBlk (errBlk die)) owned.length).fadd die
        (ERR_SWEEP.REMOVED_CNT.inBlk (errBlk die)) (mine.length - owned.length)).logErr die (if owned = [] then 1 else 2) 0x0B 0 0x1
        (owned.length * 2 ^ 32 + 2 ^ agent) →
      w = { v with sweeps := v.sweeps.filter (fun (w : Nat × Nat) => w ≠ (die, agent)) } →
      exec (.homeSweepDone die agent) s = .next (s.sealed ((((w.txns.filter (fun (t : Nat × Txn) => (w.homeOf t.1).die = die)).map
        (fun (t : Nat × Txn) => t.1)).foldl (fun t l => t.advance l) w).wake))) ∧
    (isQ die = true → exec (.qdieLost die) s = .next (s.sealed (s.loseQ die))) ∧
    (∀ agent, die < 6 → exec (.errRec0Read agent die) s =
      .next (s.sealed ((s.setErrs die ((s.errs die).drop 1)).emit (.regData agent (s.errWords die).1)))) ∧
    (s.lht.harbour = true → s.fbit 4 LHT_BOOT.DONE = false → s.runs = true →
      exec .bootWatchdogExpiry s = .next (s.sealed (s.failReset
        (((List.range 256).filter (fun i => progressSlot i && i ≠ 1 && decide (128 ≤ s.stepByte i))).headD 1)))) ∧
    (∀ (slot : Nat) (f : Nat → State), isQ die = true → ownStep slot = false → progressSlot slot = true →
      f = (fun e => s.fsets die [(LHT_PROGRESS.EVENT, e % 4), (LHT_PROGRESS.SLOT, slot % 256)]) →
      (∀ t, (f 1).lht.harbour = true → (f 1).fbit 4 LHT_BOOT.DONE = false → (f 1).stepBegin slot = (t, .run) →
        exec (.lhtProgressWrite die 1 slot) s = .next (s.sealed t)) ∧
      ((f 2).lht.harbour = true → (f 2).fbit 4 LHT_BOOT.DONE = false →
        exec (.lhtProgressWrite die 2 slot) s =
          .next (s.sealed (if slot = 1 then ((f 2).stepDone slot).boot LHT_BOOT.DONE 1 else (f 2).stepDone slot))) ∧
      ((f 3).lht.harbour = true → (f 3).fbit 4 LHT_BOOT.DONE = false →
        exec (.lhtProgressWrite die 3 slot) s =
          .next (s.sealed (if optionalStep slot then (f 3).stepFail slot else (f 3).failReset slot)))) ∧
    (s.power.phase ≠ .off → s.power.tray = true → exec .counterLogAppend s =
      .next (s.sealed (s.appendCounter (s.lht.hours + 1) s.lht.powers s.lht.starts)))

/-- The mailbox commands of Lighthouse complete with RESULT 0 (R554, R557, R559, R563, R564, R566, R568, R581). The signature and the
digest are values that the manual leaves to a published standard (log entry on Lighthouse). -/
def Obligations.MailboxCommands : Prop :=
  ∀ (s : State) (die : Nat),
    (s.lhtRuns die 1 = true → ∀ r, r = s.report (s.bufBytes die 0 32) (s.bufBytes die 32 64) →
      exec (.attest die) s = .next (s.sealed ((({ s with freeCtr := s.freeCtr + 1 } : State).putBuf die
        (r ++ Config.sm2Sign s.freeCtr (Config.sm3 r))).lhtEnd die 0))) ∧
    (s.lhtRuns die 2 = true → exec (.getIdentity die) s = .next (s.sealed
      ((s.putBuf die (Config.identityKey ++ Config.identityCert ++ s.bufBytes die 128 384)).lhtEnd die 0))) ∧
    (s.lhtRuns die 3 = true → s.lhtArg die < 2 ^ 18 → exec (.flashRead die false) s =
      .next (s.sealed ((s.putBuf die (s.flashRead (s.lhtArg die * 512) 512)).lhtEnd die 0))) ∧
    (s.lhtRuns die 4 = true → s.lhtArg die * 512 + 512 ≤ imageMax → s.lhtRuns (peerQ die) 5 = false →
      exec (.flashWrite die false) s = .next (s.sealed ((s.flashPut (imageBase (1 - s.imageSlot) + s.lhtArg die * 512)
        (s.bufBytes die 0 512)).lhtEnd die 0))) ∧
    (s.lhtRuns die 5 = true → s.imageOk (1 - s.imageSlot) = true → exec (.imageCommit die) s =
      .next (s.sealed ((s.putRec s.bootRec (1 - s.imageSlot)
        (s.bootRec.table.set 1 (s.bootRec.table.getD 1 0 / 128 * 128))).lhtEnd die 0))) ∧
    (s.lhtRuns die 6 = true → s.lhtArg die ≤ 64 → s.lhtArg die ≤ s.imageSvn s.imageSlot →
      s.lhtArg die ≤ s.imageSvn (1 - s.imageSlot) → s.imageOk 0 = true → s.imageOk 1 = true →
      exec (.advanceSvn die) s =
        .next (s.sealed (({ s with lht := { s.lht with svn := max s.lht.svn (s.lhtArg die) } } : State).lhtEnd die 0))) ∧
    (∀ t arg, s.lhtRuns die 7 = true → t = s.bufBytes die 0 96 → arg = dNum t 0x18 8 →
      (∀ u, s.tokenOk t 1 = true → 0 < arg → arg < 8 → s.stlClear arg = (u, true) →
        exec (.token die) s = .next (s.sealed (u.lhtEnd die 0))) ∧
      (s.tokenOk t 1 = false → s.tokenOk t 2 = true → arg < 4 →
        exec (.token die) s = .next (s.sealed ((({ s with
          debugOn := (s.debugOn ++ (List.range 2).filterMap (fun q => if arg / 2 ^ q % 2 = 1 then some (4 + q) else none)).dedup,
          lht := { s.lht with granted := true } } : State).fixedCause 0x86 arg).lhtEnd die 0)))) ∧
    (s.lhtRuns die 8 = true → knownStep (s.lhtArg die) = true → exec (.bootrecRetry die) s =
      .next (s.sealed ((s.setStep (s.lhtArg die)
        (s.stepByte (s.lhtArg die) / 128 * 128 + s.stepByte (s.lhtArg die) % 32)).lhtEnd die 0))) ∧
    (∀ h, s.lhtRuns die 9 = true → h = Config.sm3 (s.bufBytes die 0 64) → s.lht.owner.isSome = false →
      s.tokenOk (s.bufBytes die 64 96) 3 = true → dNum (s.bufBytes die 64 96) 0x18 8 = leNat (h.take 8) →
      exec (.fuseOwner die) s = .next (s.sealed (({ s with lht := { s.lht with owner := some h } } : State).lhtEnd die 0)))

/-- The commands of the Strandline recorder complete (R573, R574, R576 to R580, R582, R584): a period is offered to its trigger, the
oldest record that waits is written, a copy ends with its header, and a page is selected and fetched. -/
def Obligations.Recorder : Prop :=
  ∀ (s : State),
    (∀ t, t < 64 → bits (s.rd 4 0x1A0 (0x2008 + 16 * t)) 4 0 ≤ 20 → s.power.phase ≠ .off →
      exec (.periodTrigger t) s = .next (s.sealed (s.offerTrig t 5 0 0 (bits (s.rd 4 0x1A0 (0x2008 + 16 * t)) 4 0)))) ∧
    (∀ late e rest b u v, s.strand.queue = e :: rest → b = s.recBytes e (s.strand.nextSeq % 2 ^ 32) (s.snapSet e.cause late) →
      u = ({ s with strand := { s.strand with queue := rest } } : State) →
      v = ({ s with strand := { s.strand with queue := rest, nextSeq := (s.strand.nextSeq % 2 ^ 32 + 1) % 2 ^ 32 } } : State) →
      (s.arb = 4 → exec (.strandlineRecordWrite late) s =
        .next (s.sealed (v.ringRecord b (s.strand.nextSeq % 2 ^ 32) e.marked))) ∧
      (s.arb = 5 → e.marked = true → exec (.strandlineRecordWrite late) s =
        .next (s.sealed (v.directRecord b (s.strand.nextSeq % 2 ^ 32)))) ∧
      (s.arb = 5 → e.marked = false → exec (.strandlineRecordWrite late) s = .next (s.sealed u))) ∧
    (∀ n img newest head t u, s.fbit 4 STL_STATUS.COPY_BUSY = true → n = s.strand.slot → img = s.strand.copyBuf →
      newest = s.fget 4 STL_STATUS.LAST_SEQ → head = leBytes 8 (s.strand.writes + 1) ++ leBytes 4 newest ++ leBytes 48 0 →
      t = s.flashPut (copyHead n) (head ++ leBytes 4 (crc32 ((head ++ memReadN img 0 (2 ^ 21)).map BitVec.toNat))) →
      u = ({ t with strand := { t.strand with
        copies := mapSet t.strand.copies n img, writes := s.strand.writes + 1, flashSeq := newest } } : State).fsets 4
        [(STL_STATUS.COPY_BUSY, 0), (STL_STATUS.LAST_SLOT, n)] →
      exec .flashCopyDone s = .next (s.sealed (if u.fbit 4 STL_STATUS.COPY_PENDING then u.startCopy else u))) ∧
    (∀ source page, s.arb ≠ 5 → s.power.phase ≠ .off → exec (.cursorWrite source page) s = .next (s.sealed (s.fsets 4
      [(STL_CURSOR.SOURCE, source % 8), (STL_CURSOR.PAGE, page % 4096), (STL_CURSOR.READY, b2n (decide (source % 8 = 0)))]))) ∧
    (∀ base len a, s.fbit 4 STL_CURSOR.READY = false → stlSource (s.fget 4 STL_CURSOR.SOURCE) = (base, len) →
      a = s.fget 4 STL_CURSOR.PAGE * 4096 →
      (a + 4096 ≤ len → exec .pageFetchDone s = .next (s.sealed (({ s with
        strand := { s.strand with win := memWriteN [] 0 (s.flashRead (base + a) 4096) } } : State).fset 4 STL_CURSOR.READY 1))) ∧
      (len < a + 4096 → exec .pageFetchDone s = .next (s.sealed (({ s with
        strand := { s.strand with win := [] } } : State).fset 4 STL_CURSOR.READY 1))))

/-- The commands of the performance counters complete (R587, R589, R591, R596, R597, R601, R602): an unchained counter wraps, an even
counter's read latches its partner, and sampling starts, records and is cleared. -/
def Obligations.CountersAndSamples : Prop :=
  ∀ (s : State) (die : Nat), s.dieUp die = true →
    (∀ core i inc, hasCounter die core i = true → s.fbit die (PMU_CTRL.EN.inBlk (pmuBlk die)) = true →
      bitAt (s.rd die (pmuBlk die) (selOff core i)) 63 = true →
      2 ^ 48 ≤ bits (s.rd die (pmuBlk die) (cntOff core i)) 47 0 + inc →
      (i % 2 = 0 → bitAt (s.rd die (pmuBlk die) (selOff core (i + 1))) 62 = false) →
      exec (.counterOverflow die core i inc) s = .next (s.sealed ((s.wr die (pmuBlk die) (cntOff core i)
        (BitVec.ofNat 64 ((bits (s.rd die (pmuBlk die) (cntOff core i)) 47 0 + inc) % 2 ^ 48))).counterWrap die core i))) ∧
    (∀ agent core i, hasCounter die core i = true → i % 2 = 0 →
      exec (.evenCounterRead agent die core i) s = .next (s.sealed ((s.wr die (pmuBlk die) 0x010
        (BitVec.ofNat 64 (bits (s.rd die (pmuBlk die) (cntOff core (i + 1))) 47 0))).emit
        (.regData agent (BitVec.ofNat 64 (bits (s.rd die (pmuBlk die) (cntOff core i)) 47 0)))))) ∧
    (∀ u seed, die < 6 → seed = s.fget die (PMU_SEED.SEED.inBlk (pmuBlk die)) → u = s.fset die (PMU_SAMPLE.EN.inBlk (pmuBlk die)) 1 →
      exec (.pmuSampleEnable die) s = .next (s.sealed { u with
        samplers := mapSet u.samplers die { u.sampler die with lfsr := if seed = 0 then 1 else seed } })) ∧
    (∀ flags a pc n last u, die < 6 → s.fbit die (PMU_SAMPLE.EN.inBlk (pmuBlk die)) = true →
      u = ({ s with samplers := mapSet s.samplers die { s.sampler die with lfsr := lfsrStep (s.sampler die).lfsr } } : State) →
      (isC die = true → exec (.sampleTag die flags a pc n last) s = .next (s.sealed (u.sbRecord die
        [BitVec.ofNat 64 (1 + flags % 8 * 2 ^ 8 + s.fget die SEQ_STATUS.STEP * 2 ^ 16 + a % 2 ^ 32 * 2 ^ 32),
         BitVec.ofNat 64 ((s.td die).cycle - (s.td die).start), BitVec.ofNat 64 (n % 2 ^ 16 + last % 2 ^ 32 * 2 ^ 32),
         BitVec.ofNat 64 (s.tmkNs die)]))) ∧
      (isC die = false → exec (.sampleTag die flags a pc n last) s = .next (s.sealed (u.sbRecord die
        [BitVec.ofNat 64 (3 + flags % 16 * 2 ^ 8 + (32 * (die - 4) + s.fget die (PMU_SAMPLE.HART.inBlk (pmuBlk die))) * 2 ^ 16 +
           a % 2 ^ 32 * 2 ^ 32),
         BitVec.ofNat 64 pc, BitVec.ofNat 64 (n % 2 ^ 32), BitVec.ofNat 64 (s.tmkNs die)])))) ∧
    (∀ u, die < 6 → u = s.fsets die [(PMU_SB_CTRL.STOPPED.inBlk (pmuBlk die), 0), (PMU_SB_CTRL.CLEAR.inBlk (pmuBlk die), 0)] →
      exec (.pmuSbClear die) s = .next (s.sealed { u with samplers := mapSet u.samplers die { u.sampler die with held := 0 } }))

/-- The commands of the I3C target and of a debug module's system bus complete (R339, R611, R614): an address is held for the read that
follows, a register of dies 0 to 5 is written and read, and an access to memory is performed, or fails with sberror 7 while the package
is stopped or in reset. -/
def Obligations.ManagementBuses : Prop :=
  ∀ (s : State),
    (s.power.phase ≠ .off →
      (∀ addr, exec (.i3cAddressWrite addr) s = .next (s.sealed { s with i3c := some (BitVec.toNat addr) })) ∧
      (∀ addr w, i3cOpen (BitVec.toNat addr) = true →
        exec (.i3cRegisterWrite addr w) s = .next (s.sealed (s.regPut .i3c addr.toNat 8 w))) ∧
      (∀ a, s.i3c = some a → i3cOpen a = true →
        exec .i3cPrivateRead s = .next (s.sealed (({ s with i3c := none } : State).regGet .i3c a 8)))) ∧
    (∀ q addr len data, q < 2 → s.mayAccess (.debug q) = true →
      (isRegAddr addr = true → addr % 8 = 0 →
        (data.length = 8 → exec (.systemBusAccess q addr len true data) s =
          .next (s.sealed (s.regPut (.debug q) addr 8 (BitVec.ofNat 64 (leNat data))))) ∧
        exec (.systemBusAccess q addr 8 false data) s = .next (s.sealed (s.regGet (.debug q) addr 8))) ∧
      (isRegAddr addr = false → s.closed = true → ∀ write, exec (.systemBusAccess q addr len write data) s =
        .next (s.sealed (({ s with sberr := mapSet s.sberr q 7 } : State).emit (.refused (.debug q) addr)))) ∧
      (isRegAddr addr = false → s.closed = false →
        (∀ t, data.length = 1 ∨ data.length = 2 ∨ data.length = 4 ∨ data.length = 8 ∨ data.length = 16 →
          addr % data.length = 0 → s.anyWrite (engOf (4 + q)) addr data false = some (true, t) →
          exec (.systemBusAccess q addr len true data) s = .next (s.sealed (t.emit (.done (.debug q) addr)))) ∧
        (∀ d p t, len = 1 ∨ len = 2 ∨ len = 4 ∨ len = 8 ∨ len = 16 → addr % len = 0 → s.anyRead (engOf (4 + q)) addr len = (.got d p, t) →
          exec (.systemBusAccess q addr len false data) s = .next (s.sealed (t.emit (.data (.debug q) addr d p))))))

/-- One step takes the command at the front of the queue and performs it with the rest of the queue. -/
def Obligations.StepRunsTheFrontCommand : Prop :=
  ∀ (c : Instr) (rest : List Instr) (s : State), s.pending = c :: rest → step s = exec c { s with pending := rest }

/-- With no command waiting the package idles: a step changes nothing. This is the model's choice (log entry 1). -/
def Obligations.IdleStep : Prop := ∀ (s : State), s.pending = [] → step s = .next s

/-- What reset leaves, by the spec's reset values: queues empty, the PMU's base interval and seed, the Strandline window ready, no
record in an error log, no tick counted, and every register that gives a reset value reads it. -/
def Obligations.AfterReset : Prop :=
  State.reset.pending = [] ∧ State.reset.hq.journal = [] ∧ State.reset.events = [] ∧ State.reset.fab.reqs = [] ∧
  (∀ die, die < 6 → State.reset.fget die (PMU_SAMPLE.PERIOD.inBlk (pmuBlk die)) = 0x10000 ∧
    State.reset.fget die (PMU_SEED.SEED.inBlk (pmuBlk die)) = 1 ∧ State.reset.errs die = []) ∧
  State.reset.fget 4 STL_CURSOR.READY = 1 ∧ State.reset.fget 4 EVT_TICK.TICK = 0 ∧
  (∀ die blk off d, fusedWord die blk off = none → findReg die die blk off = some d →
    State.reset.rd die blk off = packReset d.fields)

/-- The machine right after reset meets what every step keeps. -/
def Obligations.ResetMeetsInv : Prop :=
  State.reset.Inv ∧ Memory.wf State.reset.stack = true ∧ Memory.wf State.reset.shelf = true ∧ Memory.wf State.reset.slab = true

/-- Every step keeps what holds of every state: THERM_ALERT_N follows its condition, and the waiting commands are well-formed. -/
def Obligations.EveryStepKeepsInv : Prop := ∀ (s t : State), s.Inv → step s = .next t → t.Inv

/-- The queue drains first in, first out, and no command stops the block: after n steps, the first n waiting commands are gone and the
others stand as they were. -/
def Obligations.QueueDrainsInOrder : Prop :=
  ∀ (s : State) (n : Nat), n ≤ s.pending.length → ∃ t, runSteps n s = some t ∧ t.pending = s.pending.drop n

/-- Every command completes from every state and leaves the waiting commands alone, and after it THERM_ALERT_N is low exactly where a
thermal or neighbour ceiling of a die reads below 15, OVER_CAP reads 1 or a thermal trip has stopped the package; it is high after
reset and after every package reset. -/
def Obligations.ThermAlertAfterEveryCommand : Prop :=
  (∀ (i : Instr) (s : State), ∃ t, exec i s = .next t ∧ t.pending = s.pending ∧
    (t.alertN = false ↔
      (∃ d, d < 6 ∧ ((t.dieP d).therm < 15 ∨ (t.dieP d).neigh < 15)) ∨ t.fget shDie PKG_CAPSTAT.OVER_CAP = 1 ∨
      (t.fget t.arb EVT_STATUS.STOPPED = 1 ∧ 4 ≤ t.fget t.arb EVT_STATUS.STOP_SRC))) ∧
  State.reset.alertN = true ∧ (∀ (s : State), (s.sealed s.packageReset).alertN = true)

/-- The field access types of R11, of every field of the register map: what a write of a word leaves in the field, by its type and by who
writes, what a read returns and leaves, and when a write to an LH field is logged. -/
def Obligations.FieldAccessTypes : Prop :=
  ∀ d, d ∈ regTable → ∀ f, f ∈ d.fields →
    (∀ (lighthouse : Bool) (old w : Word) (now : Nat), now = bits (afterWrite d lighthouse old w) f.hi f.lo →
      (f.acc = .lh → lighthouse = true → now = bits w f.hi f.lo) ∧
      (f.acc = .lh → lighthouse = false → now = bits old f.hi f.lo) ∧
      (f.acc = .ro ∨ f.acc = .rc ∨ f.acc = .wo → now = bits old f.hi f.lo) ∧
      (f.acc = .rw → now = bits w f.hi f.lo) ∧
      (f.acc = .w1c → ∀ b, b ≤ f.hi - f.lo → now.testBit b = ((bits old f.hi f.lo).testBit b && !(bits w f.hi f.lo).testBit b)) ∧
      (f.acc = .w1s → ∀ b, b ≤ f.hi - f.lo → now.testBit b = ((bits old f.hi f.lo).testBit b || (bits w f.hi f.lo).testBit b))) ∧
    (∀ w : Word,
      (f.acc = .wo → bits (hideWo d w) f.hi f.lo = 0) ∧ (f.acc ≠ .wo → bits (hideWo d w) f.hi f.lo = bits w f.hi f.lo) ∧
      (f.acc = .rc → bits (afterRead d w) f.hi f.lo = 0) ∧ (f.acc ≠ .rc → bits (afterRead d w) f.hi f.lo = bits w f.hi f.lo)) ∧
    (∀ (s t : State) (agent : Agent) (die blk off : Nat) (old w : Word), old = s.rd (regHolder d die) blk off →
      t = s.wr (regHolder d die) blk off (afterWrite d (decide (agent = .lighthouse)) old w) →
      (agent ≠ .lighthouse → f.acc = .lh → bits old f.hi f.lo ≠ bits w f.hi f.lo →
        s.regGen agent d die blk off w = t.logErr (s.regQ agent (regAddr die blk off)) 2 0x0C 0 0x1 (regAddr die blk off)) ∧
      (agent = .lighthouse ∨ (∀ g, g ∈ d.fields → g.acc = .lh → bits old g.hi g.lo = bits w g.hi g.lo) →
        s.regGen agent d die blk off w = t))

/-- An offset that no register occupies, and the reserved bits of a register (R9): an unoccupied offset reads 0 and a write to it changes
no register; a reserved bit is 0 in the reset word, keeps reading 0 whatever is written, and changes no other bit. -/
def Obligations.UnoccupiedAndReserved : Prop :=
  (∀ (s : State) (agent : Agent) (addr die blk off : Nat) (w : Word), s.regWay agent addr 8 = .reg die blk off →
    findReg s.arb die blk off = none →
    s.regVal die blk off = 0 ∧ s.regGet agent addr 8 = s.emit (.regData agent 0) ∧
    s.regPut agent addr 8 w = s.emit (.done agent addr)) ∧
  (∀ d, d ∈ regTable → ∀ b, b < 64 → (∀ f, f ∈ d.fields → b < f.lo ∨ f.hi < b) →
    BitVec.getLsbD (packReset d.fields) b = false ∧
    (∀ (lighthouse : Bool) (old w : Word), old.getLsbD b = false → (afterWrite d lighthouse old w).getLsbD b = false) ∧
    (∀ (old : Word), old.getLsbD b = false → (afterRead d old).getLsbD b = false ∧ (hideWo d old).getLsbD b = false) ∧
    (∀ (lighthouse : Bool) (old w : Word), afterWrite d lighthouse old (w ||| BitVec.ofNat 64 (2 ^ b)) = afterWrite d lighthouse old w))

/-- The memories keep their canonical form and their other bytes: initialising a vault clears the vault's own bytes and no other (an armed injection alone strikes
one of them), a
block's wires and a line's bytes read back as they were stored, and every byte outside them, and outside the line's check symbols,
stands as it was. -/
def Obligations.MemoryKeepsItsOtherBytes : Prop :=
  (∀ (s t : State) (die v : Nat), (s.vault die v).initing = true → exec (.vaultInitDone die v) s = .next t →
    (Memory.wf s.stack = true → Memory.wf t.stack = true) ∧
    (∀ a, a < rawKey die v 0 0 ∨ rawKey die v 0 0 + 2 ^ 32 ≤ a → memRead t.stack a = memRead s.stack a) ∧
    (s.fbit die (MFS_INJECT.ARM.unit v) = false →
      ∀ a, rawKey die v 0 0 ≤ a → a < rawKey die v 0 0 + 2 ^ 32 → memRead t.stack a = 0) ∧
    t.shelf = s.shelf ∧ t.slab = s.slab) ∧
  (∀ (s : State) (die v block : Nat) (w : List Nat),
    (Memory.wf s.stack = true → Memory.wf (s.setRaw die v block w).stack = true) ∧
    memReadN (s.setRaw die v block w).stack (rawKey die v block 0) w.length = w.map (BitVec.ofNat 8) ∧
    (∀ a, a < rawKey die v block 0 ∨ rawKey die v block 0 + w.length ≤ a →
      memRead (s.setRaw die v block w).stack a = memRead s.stack a)) ∧
  (∀ (s : State) (ch coff : Nat) (dat : List Byte) (poison : Bool), coff + dat.length ≤ 2 ^ 34 →
    (Memory.wf s.shelf = true → Memory.wf (s.shelfStore ch coff dat poison).shelf = true) ∧
    memReadN (s.shelfStore ch coff dat poison).shelf (shelfKey ch coff) dat.length = dat ∧
    (∀ a, a < shelfKey ch coff ∨ shelfKey ch coff + dat.length ≤ a →
      a < shelfKey ch (checkOff coff) ∨ shelfKey ch (checkOff coff) + 32 ≤ a →
      memRead (s.shelfStore ch coff dat poison).shelf a = memRead s.shelf a))

/-- How the arbiter resolves a tick (R509, R512): a stop or a trip stops a running package once, with the tick's fault reports delivered
and its other events counted as discarded; in a stopped package it is only counted; without one, an external reset resets the package
and the later classes are counted; otherwise each class takes effect in its order. -/
def Obligations.EventClasses : Prop :=
  ∀ (s : State) (es stops : List Event), stops = es.filter (fun e => decide (e.cls ≤ 2)) →
    (stops ≠ [] → s.isStopped = false →
      s.resolveEvents es = ((ofClass es 6).foldl (fun t e => t.faultEvent e) (s.fadd s.arb EVT_CNT.DISCARD_CNT
        (es.filter (fun e => decide (3 ≤ e.cls) && decide (e.cls ≠ 6))).length)).stopPackage (stopSrc stops)) ∧
    (s.isStopped = true → (∀ e, e ∈ es → e.cls ≤ 2) →
      s.resolveEvents es = s.fadd s.arb EVT_CNT.DISCARD_CNT es.length ∧
      (s.resolveEvents es).fget s.arb EVT_STATUS.STOP_SRC = s.fget s.arb EVT_STATUS.STOP_SRC ∧
      (s.resolveEvents es).fget s.arb EVT_STATUS.STOP_TICK = s.fget s.arb EVT_STATUS.STOP_TICK) ∧
    (∀ t, stops = [] → (∃ e, e ∈ es ∧ e.cls = 3) → t = (s.fadd s.arb EVT_CNT.DISCARD_CNT 0).packageReset →
      s.resolveEvents es = t.fadd t.arb EVT_CNT.DISCARD_CNT (es.filter (fun e => decide (4 ≤ e.cls))).length) ∧
    (∀ (e : Event) (c : Nat), es = [e] → e.cls = c → c ∈ [5, 6, 7, 8] →
      s.resolveEvents es = if c = 5 then (s.fadd s.arb EVT_CNT.DISCARD_CNT 0).capChange e
        else if c = 6 then (s.fadd s.arb EVT_CNT.DISCARD_CNT 0).faultEvent e
        else if c = 7 then (s.fadd s.arb EVT_CNT.DISCARD_CNT 0).freqChange e.die
        else (s.fadd s.arb EVT_CNT.DISCARD_CNT 0).swEvent e)

end
end

