-- ==== Sys2Proof/Laws/Maps.lean ====
section
/-!
SUPPORT. Sparse maps and byte memories: what a read gives after a write, and that every operation keeps the canonical form.
-/
namespace Sys2Proof

variable {α : Type}

@[simp] theorem mapGet_mapSet_same (d : α) (m : SMap α) (k : Nat) (v : α) : mapGet d (mapSet m k v) k = v := by
  induction m with
  | nil => simp [mapSet, mapGet]
  | cons e m ih =>
    obtain ⟨a, w⟩ := e
    simp only [mapSet]
    split
    · simp [mapGet]
    · split
      · simp [mapGet]
      · rename_i h; simp [mapGet, Ne.symm h, ih]

theorem mapGet_mapSet_ne (d : α) (m : SMap α) (k j : Nat) (v : α) (h : j ≠ k) :
    mapGet d (mapSet m k v) j = mapGet d m j := by
  induction m with
  | nil => simp [mapSet, mapGet, Ne.symm h]
  | cons e m ih =>
    obtain ⟨a, w⟩ := e
    simp only [mapSet]
    split
    · simp [mapGet, Ne.symm h]
    · split
      · rename_i hk; subst hk; simp [mapGet, Ne.symm h]
      · simp [mapGet, ih]

@[simp] theorem mapFind_mapSet_same (m : SMap α) (k : Nat) (v : α) : mapFind (mapSet m k v) k = some v := by
  induction m with
  | nil => simp [mapSet, mapFind]
  | cons e m ih =>
    obtain ⟨a, w⟩ := e
    simp only [mapSet]
    split
    · simp [mapFind]
    · split
      · simp [mapFind]
      · rename_i h; simp [mapFind, Ne.symm h, ih]

theorem mapFind_mapSet_ne (m : SMap α) (k j : Nat) (v : α) (h : j ≠ k) : mapFind (mapSet m k v) j = mapFind m j := by
  induction m with
  | nil => simp [mapSet, mapFind, Ne.symm h]
  | cons e m ih =>
    obtain ⟨a, w⟩ := e
    simp only [mapSet]
    split
    · simp [mapFind, Ne.symm h]
    · split
      · rename_i hk; subst hk; simp [mapFind, Ne.symm h]
      · simp [mapFind, ih]

@[simp] theorem mapFind_mapErase_same (m : SMap α) (k : Nat) : mapFind (mapErase m k) k = none := by
  induction m with
  | nil => rfl
  | cons e m ih =>
    obtain ⟨a, w⟩ := e
    simp only [mapErase, List.filter_cons, bne_iff_ne, ne_eq] at ih ⊢
    by_cases h : a = k
    · simpa [h] using ih
    · simpa [h, mapFind] using ih

theorem mapFind_mapErase_ne (m : SMap α) (k j : Nat) (h : j ≠ k) : mapFind (mapErase m k) j = mapFind m j := by
  induction m with
  | nil => rfl
  | cons e m ih =>
    obtain ⟨a, w⟩ := e
    simp only [mapErase, List.filter_cons, bne_iff_ne, ne_eq] at ih ⊢
    by_cases hk : a = k
    · subst hk; simpa [mapFind, Ne.symm h] using ih
    · simp [hk, mapFind, ih]

theorem mapGet_eq_find (d : α) (m : SMap α) (k : Nat) : mapGet d m k = (mapFind m k).getD d := by
  induction m with
  | nil => rfl
  | cons e m ih =>
    obtain ⟨a, w⟩ := e
    by_cases h : a = k <;> simp_all [mapGet, mapFind]

@[simp] theorem mapGet_mapErase_same (d : α) (m : SMap α) (k : Nat) : mapGet d (mapErase m k) k = d := by
  simp [mapGet_eq_find]

theorem mapGet_mapErase_ne (d : α) (m : SMap α) (k j : Nat) (h : j ≠ k) : mapGet d (mapErase m k) j = mapGet d m j := by
  simp [mapGet_eq_find, mapFind_mapErase_ne m k j h]

/-! ## The canonical form -/

theorem keysFrom_le (m : SMap α) (b c : Nat) (h : c ≤ b) (hm : keysFrom b m = true) : keysFrom c m = true := by
  cases m with
  | nil => rfl
  | cons e m =>
    obtain ⟨a, w⟩ := e
    simp only [keysFrom, Bool.and_eq_true, decide_eq_true_eq] at *
    exact ⟨by omega, hm.2⟩

theorem keysFrom_mapSet (m : SMap α) (b k : Nat) (v : α) (hb : b ≤ k) (hm : keysFrom b m = true) :
    keysFrom b (mapSet m k v) = true := by
  induction m generalizing b with
  | nil => simp [mapSet, keysFrom, hb]
  | cons e m ih =>
    obtain ⟨a, w⟩ := e
    simp only [keysFrom, Bool.and_eq_true, decide_eq_true_eq] at hm
    simp only [mapSet]
    split
    · rename_i h
      simp only [keysFrom, Bool.and_eq_true, decide_eq_true_eq]
      exact ⟨hb, by omega, hm.2⟩
    · split
      · rename_i h; subst h
        simp only [keysFrom, Bool.and_eq_true, decide_eq_true_eq]
        exact ⟨hb, hm.2⟩
      · simp only [keysFrom, Bool.and_eq_true, decide_eq_true_eq]
        exact ⟨hm.1, ih (a + 1) (by omega) hm.2⟩

theorem keysFrom_filter (m : SMap α) (b : Nat) (p : Nat × α → Bool) (hm : keysFrom b m = true) :
    keysFrom b (m.filter p) = true := by
  induction m generalizing b with
  | nil => rfl
  | cons e m ih =>
    obtain ⟨a, w⟩ := e
    simp only [keysFrom, Bool.and_eq_true, decide_eq_true_eq] at hm
    simp only [List.filter]
    split
    · simp only [keysFrom, Bool.and_eq_true, decide_eq_true_eq]
      exact ⟨hm.1, ih (a + 1) hm.2⟩
    · exact keysFrom_le _ (a + 1) b (by omega) (ih (a + 1) hm.2)

theorem mapSet_wf (m : SMap α) (k : Nat) (v : α) (h : mapWf m = true) : mapWf (mapSet m k v) = true :=
  keysFrom_mapSet m 0 k v (Nat.zero_le k) h

theorem mapErase_wf (m : SMap α) (k : Nat) (h : mapWf m = true) : mapWf (mapErase m k) = true :=
  keysFrom_filter m 0 _ h

theorem mapClear_wf (m : SMap α) (lo hi : Nat) (h : mapWf m = true) : mapWf (mapClear m lo hi) = true :=
  keysFrom_filter m 0 _ h

theorem mem_mapSet (m : SMap α) (k : Nat) (v : α) (e : Nat × α) (h : e ∈ mapSet m k v) : e = (k, v) ∨ e ∈ m := by
  induction m with
  | nil => simp_all [mapSet]
  | cons x m ih =>
    obtain ⟨a, w⟩ := x
    simp only [mapSet] at h
    split at h
    · simp_all
    · split at h
      · simp only [List.mem_cons] at h ⊢
        rcases h with h | h
        · exact .inl h
        · exact .inr (.inr h)
      · simp only [List.mem_cons] at h ⊢
        rcases h with h | h
        · exact .inr (.inl h)
        · rcases ih h with h | h
          · exact .inl h
          · exact .inr (.inr h)

theorem memWrite_wf (m : Memory) (a : Nat) (b : Byte) (h : Memory.wf m = true) : Memory.wf (memWrite m a b) = true := by
  simp only [Memory.wf, Bool.and_eq_true, List.all_eq_true] at *
  simp only [memWrite]
  split
  · exact ⟨mapErase_wf m a h.1, fun e he => h.2 e (List.mem_filter.mp he).1⟩
  · rename_i hb
    refine ⟨mapSet_wf m a b h.1, fun e he => ?_⟩
    rcases mem_mapSet m a b e he with rfl | he
    · simp [hb]
    · exact h.2 e he

theorem memWriteN_wf (m : Memory) (a : Nat) (bs : List Byte) (h : Memory.wf m = true) : Memory.wf (memWriteN m a bs) = true := by
  induction bs generalizing m a with
  | nil => exact h
  | cons b bs ih => exact ih _ _ (memWrite_wf m a b h)

theorem memClear_wf (m : Memory) (lo hi : Nat) (h : Memory.wf m = true) : Memory.wf (memClear m lo hi) = true := by
  simp only [Memory.wf, Bool.and_eq_true, List.all_eq_true] at *
  exact ⟨mapClear_wf m lo hi h.1, fun e he => h.2 e (List.mem_filter.mp he).1⟩

theorem keysFrom_shift (m : SMap α) (b lo base : Nat) (p : Nat × α → Bool) (hp : ∀ e, p e = true → lo ≤ e.1)
    (hm : keysFrom b m = true) :
    keysFrom (b - lo + base) ((m.filter p).map (fun c => (c.1 - lo + base, c.2))) = true := by
  induction m generalizing b with
  | nil => rfl
  | cons e m ih =>
    obtain ⟨a, w⟩ := e
    simp only [keysFrom, Bool.and_eq_true, decide_eq_true_eq] at hm
    simp only [List.filter_cons]
    split
    · rename_i h
      have hl := hp _ h
      simp only at hl
      simp only [List.map_cons, keysFrom, Bool.and_eq_true, decide_eq_true_eq]
      refine ⟨by omega, ?_⟩
      have := ih (a + 1) hm.2
      have he : a + 1 - lo + base = a - lo + base + 1 := by omega
      rwa [he] at this
    · exact keysFrom_le _ _ _ (by omega) (ih (a + 1) hm.2)

theorem memSlice_wf (m : Memory) (lo hi base : Nat) (h : Memory.wf m = true) : Memory.wf (memSlice m lo hi base) = true := by
  simp only [Memory.wf, Bool.and_eq_true, List.all_eq_true] at *
  refine ⟨?_, ?_⟩
  · have := keysFrom_shift m 0 lo base (fun c => decide (lo ≤ c.1) && decide (c.1 < hi)) (by simp +contextual) h.1
    exact keysFrom_le _ _ _ (Nat.zero_le _) this
  · intro e he
    simp only [memSlice, List.mem_map, List.mem_filter] at he
    obtain ⟨x, hx, rfl⟩ := he
    exact h.2 x hx.1

/-! ## Reading a byte after a write -/

@[simp] theorem memRead_memWrite_same (m : Memory) (a : Nat) (b : Byte) : memRead (memWrite m a b) a = b := by
  simp only [memRead, memWrite]
  split
  · rename_i h; simp [h]
  · simp

theorem memRead_memWrite_ne (m : Memory) (a j : Nat) (b : Byte) (h : j ≠ a) : memRead (memWrite m a b) j = memRead m j := by
  simp only [memRead, memWrite]
  split
  · exact mapGet_mapErase_ne _ m a j h
  · exact mapGet_mapSet_ne _ m a j b h

theorem memRead_memWriteN_out (m : Memory) (a j : Nat) (bs : List Byte) (h : j < a ∨ a + bs.length ≤ j) :
    memRead (memWriteN m a bs) j = memRead m j := by
  induction bs generalizing m a with
  | nil => rfl
  | cons b bs ih =>
    simp only [List.length_cons] at h
    simp only [memWriteN]
    rw [ih _ _ (by omega), memRead_memWrite_ne _ _ _ _ (by omega)]

@[simp] theorem memReadN_length (m : Memory) (a n : Nat) : (memReadN m a n).length = n := by
  induction n generalizing a with
  | zero => rfl
  | succ n ih => simp [memReadN, ih]

theorem memReadN_memWrite_lt (m : Memory) (a j n : Nat) (b : Byte) (h : j < a) :
    memReadN (memWrite m j b) a n = memReadN m a n := by
  induction n generalizing a with
  | zero => rfl
  | succ n ih => simp only [memReadN]; rw [memRead_memWrite_ne _ _ _ _ (by omega), ih (a + 1) (by omega)]

theorem memReadN_memWriteN_same (m : Memory) (a : Nat) (bs : List Byte) : memReadN (memWriteN m a bs) a bs.length = bs := by
  induction bs generalizing m a with
  | nil => rfl
  | cons b bs ih =>
    simp only [memWriteN, List.length_cons, memReadN]
    rw [ih, memRead_memWriteN_out _ _ _ _ (by omega), memRead_memWrite_same]

end Sys2Proof
end

