-- ==== Sys2Proof/Laws/Regs.lean ====
section
/-!
SUPPORT. Registers and fields: what a read gives after a write.
-/
namespace Sys2Proof

/-- A bit of a field of a number. -/
theorem testBit_bitsN (v hi lo i : Nat) : (bitsN v hi lo).testBit i = (decide (i < hi + 1 - lo) && v.testBit (lo + i)) := by
  simp [bitsN, Nat.testBit_mod_two_pow, Nat.testBit_div_two_pow, Nat.add_comm]

theorem bitsN_lt (v hi lo : Nat) : bitsN v hi lo < 2 ^ (hi + 1 - lo) := Nat.mod_lt _ (Nat.two_pow_pos _)

theorem bits_lt (w : Word) (hi lo : Nat) : bits w hi lo < 2 ^ (hi + 1 - lo) := bitsN_lt _ _ _

theorem testBit_fieldMask (hi lo i : Nat) (hi64 : hi < 64) (hlo : lo ≤ hi) :
    (fieldMask hi lo).getLsbD i = (decide (lo ≤ i) && decide (i ≤ hi)) := by
  simp only [fieldMask, BitVec.getLsbD_ofNat, Nat.testBit_mul_two_pow, Nat.testBit_two_pow_sub_one]
  by_cases h1 : lo ≤ i <;> by_cases h2 : i ≤ hi <;> simp [h1, h2] <;> omega

/-- A bit of a register after a field of it has been replaced. -/
theorem getLsbD_setBits (w : Word) (hi lo v i : Nat) (hi64 : hi < 64) (hlo : lo ≤ hi) :
    (setBits w hi lo v).getLsbD i =
      if lo ≤ i ∧ i ≤ hi then v.testBit (i - lo) else w.getLsbD i := by
  simp only [setBits, BitVec.getLsbD_or, BitVec.getLsbD_and, BitVec.getLsbD_not, testBit_fieldMask hi lo i hi64 hlo,
    BitVec.getLsbD_ofNat, Nat.testBit_mul_two_pow, Nat.testBit_mod_two_pow]
  by_cases h1 : lo ≤ i <;> by_cases h2 : i ≤ hi
  · have h3 : i < 64 := by omega
    have h4 : i - lo < hi + 1 - lo := by omega
    simp [h1, h2, h3, h4]
  · have h4 : ¬ (i - lo < hi + 1 - lo) := by omega
    by_cases h3 : i < 64
    · simp [h1, h2, h3, h4]
    · simp [h1, h2, h3, h4, BitVec.getLsbD_of_ge w i (by omega)]
  · by_cases h5 : i < 64
    · simp [h1, h5]
    · simp [h1, h5, BitVec.getLsbD_of_ge w i (by omega)]
  · omega

theorem testBit_bits (w : Word) (hi lo i : Nat) :
    (bits w hi lo).testBit i = (decide (i < hi + 1 - lo) && w.getLsbD (lo + i)) := by
  simp [bits, testBit_bitsN, BitVec.testBit_toNat]

/-- A field reads as it was written. -/
theorem bits_setBits_same (w : Word) (hi lo v : Nat) (hi64 : hi < 64) (hlo : lo ≤ hi) :
    bits (setBits w hi lo v) hi lo = v % 2 ^ (hi + 1 - lo) := by
  apply Nat.eq_of_testBit_eq
  intro i
  rw [testBit_bits, getLsbD_setBits w hi lo v _ hi64 hlo, Nat.testBit_mod_two_pow]
  by_cases h : i < hi + 1 - lo
  · have h2 : lo ≤ lo + i ∧ lo + i ≤ hi := by omega
    simp [h, h2]
  · simp [h]

/-- A write of one field leaves another field of the register as it is. -/
theorem bits_setBits_other (w : Word) (hi lo v hi' lo' : Nat) (hi64 : hi < 64) (hlo : lo ≤ hi) (h : hi' < lo ∨ hi < lo') :
    bits (setBits w hi lo v) hi' lo' = bits w hi' lo' := by
  apply Nat.eq_of_testBit_eq
  intro i
  rw [testBit_bits, testBit_bits, getLsbD_setBits w hi lo v _ hi64 hlo]
  by_cases hi2 : i < hi' + 1 - lo'
  · have : ¬ (lo ≤ lo' + i ∧ lo' + i ≤ hi) := by omega
    simp [this]
  · simp [hi2]

namespace Machine

variable (s : State)

/-- Registers have one key each. -/
theorem regKey_inj (d b o d' b' o' : Nat) (hb : b < 2 ^ 16) (ho : o < 2 ^ 16) (hb' : b' < 2 ^ 16) (ho' : o' < 2 ^ 16)
    (h : regKey d b o = regKey d' b' o') : d = d' ∧ b = b' ∧ o = o' := by
  simp only [regKey] at h
  omega

@[simp] theorem State.rd_wr_same (die blk off : Nat) (w : Word) : (s.wr die blk off w).rd die blk off = w := by
  simp [State.rd, State.wr]

theorem State.rd_wr_ne (die blk off die' blk' off' : Nat) (w : Word) (h : regKey die' blk' off' ≠ regKey die blk off) :
    (s.wr die blk off w).rd die' blk' off' = s.rd die' blk' off' := by
  simp [State.rd, State.wr, mapGet_mapSet_ne _ _ _ _ _ h]

/-- A register is unchanged by a field written elsewhere. -/
theorem State.rd_fset_ne (die die' blk' off' v : Nat) (f : FieldRef) (h : regKey die' blk' off' ≠ regKey die f.blk f.off) :
    (s.fset die f v).rd die' blk' off' = s.rd die' blk' off' :=
  s.rd_wr_ne die f.blk f.off die' blk' off' _ h

theorem State.fget_fset_same (die v : Nat) (f : FieldRef) (hi : f.hi < 64) (hlo : f.lo ≤ f.hi) :
    (s.fset die f v).fget die f = v % 2 ^ (f.hi + 1 - f.lo) := by
  simp only [State.fget, State.fset, State.rd_wr_same]
  exact bits_setBits_same _ _ _ _ hi hlo

/-- Another field of the same register. -/
theorem State.fget_fset_beside (die v : Nat) (f g : FieldRef) (hi : f.hi < 64) (hlo : f.lo ≤ f.hi) (hb : g.blk = f.blk)
    (ho : g.off = f.off) (h : g.hi < f.lo ∨ f.hi < g.lo) : (s.fset die f v).fget die g = s.fget die g := by
  simp only [State.fget, State.fset, hb, ho, State.rd_wr_same]
  exact bits_setBits_other _ _ _ _ _ _ hi hlo h

/-- A field of another register. -/
theorem State.fget_fset_ne (die die' v : Nat) (f g : FieldRef) (h : regKey die' g.blk g.off ≠ regKey die f.blk f.off) :
    (s.fset die f v).fget die' g = s.fget die' g := by
  simp only [State.fget, s.rd_fset_ne die die' g.blk g.off v f h]

/-- A count goes up by one until its field is full. -/
theorem State.fget_finc (die : Nat) (f : FieldRef) (hi : f.hi < 64) (hlo : f.lo ≤ f.hi) :
    (s.finc die f).fget die f = min (s.fget die f + 1) (2 ^ (f.hi + 1 - f.lo) - 1) := by
  simp only [State.finc, State.fadd, s.fget_fset_same die _ f hi hlo]
  apply Nat.mod_eq_of_lt
  have : 0 < 2 ^ (f.hi + 1 - f.lo) := Nat.two_pow_pos _
  omega

end Machine

end Sys2Proof
end

