-- ==== Sys2Proof/Laws/State.lean ====
section
/-!
SUPPORT. One lemma per field of the state and per update: which field an update leaves as it is.
-/
namespace Sys2Proof.Machine

variable (s : State)

/-! ## `wr` -/

@[simp] theorem State.wr_pending (die blk off : Nat) (w : Word) : (s.wr die blk off w).pending = s.pending := rfl
@[simp] theorem State.wr_now (die blk off : Nat) (w : Word) : (s.wr die blk off w).now = s.now := rfl
@[simp] theorem State.wr_freeCtr (die blk off : Nat) (w : Word) : (s.wr die blk off w).freeCtr = s.freeCtr := rfl
@[simp] theorem State.wr_errLog (die blk off : Nat) (w : Word) : (s.wr die blk off w).errLog = s.errLog := rfl
@[simp] theorem State.wr_events (die blk off : Nat) (w : Word) : (s.wr die blk off w).events = s.events := rfl
@[simp] theorem State.wr_out (die blk off : Nat) (w : Word) : (s.wr die blk off w).out = s.out := rfl
@[simp] theorem State.wr_tmk (die blk off : Nat) (w : Word) : (s.wr die blk off w).tmk = s.tmk := rfl
@[simp] theorem State.wr_tide (die blk off : Nat) (w : Word) : (s.wr die blk off w).tide = s.tide := rfl
@[simp] theorem State.wr_vaults (die blk off : Nat) (w : Word) : (s.wr die blk off w).vaults = s.vaults := rfl
@[simp] theorem State.wr_slab (die blk off : Nat) (w : Word) : (s.wr die blk off w).slab = s.slab := rfl
@[simp] theorem State.wr_slabBad (die blk off : Nat) (w : Word) : (s.wr die blk off w).slabBad = s.slabBad := rfl
@[simp] theorem State.wr_slabWait (die blk off : Nat) (w : Word) : (s.wr die blk off w).slabWait = s.slabWait := rfl
@[simp] theorem State.wr_sbuf (die blk off : Nat) (w : Word) : (s.wr die blk off w).sbuf = s.sbuf := rfl
@[simp] theorem State.wr_stack (die blk off : Nat) (w : Word) : (s.wr die blk off w).stack = s.stack := rfl
@[simp] theorem State.wr_rat (die blk off : Nat) (w : Word) : (s.wr die blk off w).rat = s.rat := rfl
@[simp] theorem State.wr_vwrInv (die blk off : Nat) (w : Word) : (s.wr die blk off w).vwrInv = s.vwrInv := rfl
@[simp] theorem State.wr_strand (die blk off : Nat) (w : Word) : (s.wr die blk off w).strand = s.strand := rfl
@[simp] theorem State.wr_msis (die blk off : Nat) (w : Word) : (s.wr die blk off w).msis = s.msis := rfl
@[simp] theorem State.wr_samplers (die blk off : Nat) (w : Word) : (s.wr die blk off w).samplers = s.samplers := rfl
@[simp] theorem State.wr_signals (die blk off : Nat) (w : Word) : (s.wr die blk off w).signals = s.signals := rfl
@[simp] theorem State.wr_dieMode (die blk off : Nat) (w : Word) : (s.wr die blk off w).dieMode = s.dieMode := rfl
@[simp] theorem State.wr_shelf (die blk off : Nat) (w : Word) : (s.wr die blk off w).shelf = s.shelf := rfl
@[simp] theorem State.wr_shelfHits (die blk off : Nat) (w : Word) : (s.wr die blk off w).shelfHits = s.shelfHits := rfl
@[simp] theorem State.wr_shelfRewrite (die blk off : Nat) (w : Word) : (s.wr die blk off w).shelfRewrite = s.shelfRewrite := rfl
@[simp] theorem State.wr_remap (die blk off : Nat) (w : Word) : (s.wr die blk off w).remap = s.remap := rfl
@[simp] theorem State.wr_spare (die blk off : Nat) (w : Word) : (s.wr die blk off w).spare = s.spare := rfl
@[simp] theorem State.wr_tdl (die blk off : Nat) (w : Word) : (s.wr die blk off w).tdl = s.tdl := rfl
@[simp] theorem State.wr_hostLines (die blk off : Nat) (w : Word) : (s.wr die blk off w).hostLines = s.hostLines := rfl
@[simp] theorem State.wr_dir (die blk off : Nat) (w : Word) : (s.wr die blk off w).dir = s.dir := rfl
@[simp] theorem State.wr_dirSram (die blk off : Nat) (w : Word) : (s.wr die blk off w).dirSram = s.dirSram := rfl
@[simp] theorem State.wr_txns (die blk off : Nat) (w : Word) : (s.wr die blk off w).txns = s.txns := rfl
@[simp] theorem State.wr_waitq (die blk off : Nat) (w : Word) : (s.wr die blk off w).waitq = s.waitq := rfl
@[simp] theorem State.wr_net (die blk off : Nat) (w : Word) : (s.wr die blk off w).net = s.net := rfl
@[simp] theorem State.wr_caches (die blk off : Nat) (w : Word) : (s.wr die blk off w).caches = s.caches := rfl
@[simp] theorem State.wr_l1 (die blk off : Nat) (w : Word) : (s.wr die blk off w).l1 = s.l1 := rfl
@[simp] theorem State.wr_mshrs (die blk off : Nat) (w : Word) : (s.wr die blk off w).mshrs = s.mshrs := rfl
@[simp] theorem State.wr_harts (die blk off : Nat) (w : Word) : (s.wr die blk off w).harts = s.harts := rfl
@[simp] theorem State.wr_imsic (die blk off : Nat) (w : Word) : (s.wr die blk off w).imsic = s.imsic := rfl
@[simp] theorem State.wr_debugOn (die blk off : Nat) (w : Word) : (s.wr die blk off w).debugOn = s.debugOn := rfl
@[simp] theorem State.wr_sweeps (die blk off : Nat) (w : Word) : (s.wr die blk off w).sweeps = s.sweeps := rfl
@[simp] theorem State.wr_fab (die blk off : Nat) (w : Word) : (s.wr die blk off w).fab = s.fab := rfl
@[simp] theorem State.wr_glz (die blk off : Nat) (w : Word) : (s.wr die blk off w).glz = s.glz := rfl
@[simp] theorem State.wr_cmdEnds (die blk off : Nat) (w : Word) : (s.wr die blk off w).cmdEnds = s.cmdEnds := rfl
@[simp] theorem State.wr_dmas (die blk off : Nat) (w : Word) : (s.wr die blk off w).dmas = s.dmas := rfl
@[simp] theorem State.wr_dmaNo (die blk off : Nat) (w : Word) : (s.wr die blk off w).dmaNo = s.dmaNo := rfl
@[simp] theorem State.wr_queueEnds (die blk off : Nat) (w : Word) : (s.wr die blk off w).queueEnds = s.queueEnds := rfl
@[simp] theorem State.wr_links (die blk off : Nat) (w : Word) : (s.wr die blk off w).links = s.links := rfl
@[simp] theorem State.wr_tidemark (die blk off : Nat) (w : Word) : (s.wr die blk off w).tidemark = s.tidemark := rfl
@[simp] theorem State.wr_coll (die blk off : Nat) (w : Word) : (s.wr die blk off w).coll = s.coll := rfl
@[simp] theorem State.wr_iommuGen (die blk off : Nat) (w : Word) : (s.wr die blk off w).iommuGen = s.iommuGen := rfl
@[simp] theorem State.wr_iommus (die blk off : Nat) (w : Word) : (s.wr die blk off w).iommus = s.iommus := rfl
@[simp] theorem State.wr_host (die blk off : Nat) (w : Word) : (s.wr die blk off w).host = s.host := rfl
@[simp] theorem State.wr_ios (die blk off : Nat) (w : Word) : (s.wr die blk off w).ios = s.ios := rfl
@[simp] theorem State.wr_hostWbs (die blk off : Nat) (w : Word) : (s.wr die blk off w).hostWbs = s.hostWbs := rfl
@[simp] theorem State.wr_sites (die blk off : Nat) (w : Word) : (s.wr die blk off w).sites = s.sites := rfl
@[simp] theorem State.wr_hq (die blk off : Nat) (w : Word) : (s.wr die blk off w).hq = s.hq := rfl
@[simp] theorem State.wr_power (die blk off : Nat) (w : Word) : (s.wr die blk off w).power = s.power := rfl
@[simp] theorem State.wr_lht (die blk off : Nat) (w : Word) : (s.wr die blk off w).lht = s.lht := rfl
@[simp] theorem State.wr_i3c (die blk off : Nat) (w : Word) : (s.wr die blk off w).i3c = s.i3c := rfl
@[simp] theorem State.wr_sberr (die blk off : Nat) (w : Word) : (s.wr die blk off w).sberr = s.sberr := rfl
@[simp] theorem State.wr_alertN (die blk off : Nat) (w : Word) : (s.wr die blk off w).alertN = s.alertN := rfl
@[simp] theorem State.wr_wires (die blk off : Nat) (w : Word) : (s.wr die blk off w).wires = s.wires := rfl

/-! ## `fset` -/

@[simp] theorem State.fset_pending (die : Nat) (f : FieldRef) (v : Nat) : (s.fset die f v).pending = s.pending := rfl
@[simp] theorem State.fset_now (die : Nat) (f : FieldRef) (v : Nat) : (s.fset die f v).now = s.now := rfl
@[simp] theorem State.fset_freeCtr (die : Nat) (f : FieldRef) (v : Nat) : (s.fset die f v).freeCtr = s.freeCtr := rfl
@[simp] theorem State.fset_errLog (die : Nat) (f : FieldRef) (v : Nat) : (s.fset die f v).errLog = s.errLog := rfl
@[simp] theorem State.fset_events (die : Nat) (f : FieldRef) (v : Nat) : (s.fset die f v).events = s.events := rfl
@[simp] theorem State.fset_out (die : Nat) (f : FieldRef) (v : Nat) : (s.fset die f v).out = s.out := rfl
@[simp] theorem State.fset_tmk (die : Nat) (f : FieldRef) (v : Nat) : (s.fset die f v).tmk = s.tmk := rfl
@[simp] theorem State.fset_tide (die : Nat) (f : FieldRef) (v : Nat) : (s.fset die f v).tide = s.tide := rfl
@[simp] theorem State.fset_vaults (die : Nat) (f : FieldRef) (v : Nat) : (s.fset die f v).vaults = s.vaults := rfl
@[simp] theorem State.fset_slab (die : Nat) (f : FieldRef) (v : Nat) : (s.fset die f v).slab = s.slab := rfl
@[simp] theorem State.fset_slabBad (die : Nat) (f : FieldRef) (v : Nat) : (s.fset die f v).slabBad = s.slabBad := rfl
@[simp] theorem State.fset_slabWait (die : Nat) (f : FieldRef) (v : Nat) : (s.fset die f v).slabWait = s.slabWait := rfl
@[simp] theorem State.fset_sbuf (die : Nat) (f : FieldRef) (v : Nat) : (s.fset die f v).sbuf = s.sbuf := rfl
@[simp] theorem State.fset_stack (die : Nat) (f : FieldRef) (v : Nat) : (s.fset die f v).stack = s.stack := rfl
@[simp] theorem State.fset_rat (die : Nat) (f : FieldRef) (v : Nat) : (s.fset die f v).rat = s.rat := rfl
@[simp] theorem State.fset_vwrInv (die : Nat) (f : FieldRef) (v : Nat) : (s.fset die f v).vwrInv = s.vwrInv := rfl
@[simp] theorem State.fset_strand (die : Nat) (f : FieldRef) (v : Nat) : (s.fset die f v).strand = s.strand := rfl
@[simp] theorem State.fset_msis (die : Nat) (f : FieldRef) (v : Nat) : (s.fset die f v).msis = s.msis := rfl
@[simp] theorem State.fset_samplers (die : Nat) (f : FieldRef) (v : Nat) : (s.fset die f v).samplers = s.samplers := rfl
@[simp] theorem State.fset_signals (die : Nat) (f : FieldRef) (v : Nat) : (s.fset die f v).signals = s.signals := rfl
@[simp] theorem State.fset_dieMode (die : Nat) (f : FieldRef) (v : Nat) : (s.fset die f v).dieMode = s.dieMode := rfl
@[simp] theorem State.fset_shelf (die : Nat) (f : FieldRef) (v : Nat) : (s.fset die f v).shelf = s.shelf := rfl
@[simp] theorem State.fset_shelfHits (die : Nat) (f : FieldRef) (v : Nat) : (s.fset die f v).shelfHits = s.shelfHits := rfl
@[simp] theorem State.fset_shelfRewrite (die : Nat) (f : FieldRef) (v : Nat) : (s.fset die f v).shelfRewrite = s.shelfRewrite := rfl
@[simp] theorem State.fset_remap (die : Nat) (f : FieldRef) (v : Nat) : (s.fset die f v).remap = s.remap := rfl
@[simp] theorem State.fset_spare (die : Nat) (f : FieldRef) (v : Nat) : (s.fset die f v).spare = s.spare := rfl
@[simp] theorem State.fset_tdl (die : Nat) (f : FieldRef) (v : Nat) : (s.fset die f v).tdl = s.tdl := rfl
@[simp] theorem State.fset_hostLines (die : Nat) (f : FieldRef) (v : Nat) : (s.fset die f v).hostLines = s.hostLines := rfl
@[simp] theorem State.fset_dir (die : Nat) (f : FieldRef) (v : Nat) : (s.fset die f v).dir = s.dir := rfl
@[simp] theorem State.fset_dirSram (die : Nat) (f : FieldRef) (v : Nat) : (s.fset die f v).dirSram = s.dirSram := rfl
@[simp] theorem State.fset_txns (die : Nat) (f : FieldRef) (v : Nat) : (s.fset die f v).txns = s.txns := rfl
@[simp] theorem State.fset_waitq (die : Nat) (f : FieldRef) (v : Nat) : (s.fset die f v).waitq = s.waitq := rfl
@[simp] theorem State.fset_net (die : Nat) (f : FieldRef) (v : Nat) : (s.fset die f v).net = s.net := rfl
@[simp] theorem State.fset_caches (die : Nat) (f : FieldRef) (v : Nat) : (s.fset die f v).caches = s.caches := rfl
@[simp] theorem State.fset_l1 (die : Nat) (f : FieldRef) (v : Nat) : (s.fset die f v).l1 = s.l1 := rfl
@[simp] theorem State.fset_mshrs (die : Nat) (f : FieldRef) (v : Nat) : (s.fset die f v).mshrs = s.mshrs := rfl
@[simp] theorem State.fset_harts (die : Nat) (f : FieldRef) (v : Nat) : (s.fset die f v).harts = s.harts := rfl
@[simp] theorem State.fset_imsic (die : Nat) (f : FieldRef) (v : Nat) : (s.fset die f v).imsic = s.imsic := rfl
@[simp] theorem State.fset_debugOn (die : Nat) (f : FieldRef) (v : Nat) : (s.fset die f v).debugOn = s.debugOn := rfl
@[simp] theorem State.fset_sweeps (die : Nat) (f : FieldRef) (v : Nat) : (s.fset die f v).sweeps = s.sweeps := rfl
@[simp] theorem State.fset_fab (die : Nat) (f : FieldRef) (v : Nat) : (s.fset die f v).fab = s.fab := rfl
@[simp] theorem State.fset_glz (die : Nat) (f : FieldRef) (v : Nat) : (s.fset die f v).glz = s.glz := rfl
@[simp] theorem State.fset_cmdEnds (die : Nat) (f : FieldRef) (v : Nat) : (s.fset die f v).cmdEnds = s.cmdEnds := rfl
@[simp] theorem State.fset_dmas (die : Nat) (f : FieldRef) (v : Nat) : (s.fset die f v).dmas = s.dmas := rfl
@[simp] theorem State.fset_dmaNo (die : Nat) (f : FieldRef) (v : Nat) : (s.fset die f v).dmaNo = s.dmaNo := rfl
@[simp] theorem State.fset_queueEnds (die : Nat) (f : FieldRef) (v : Nat) : (s.fset die f v).queueEnds = s.queueEnds := rfl
@[simp] theorem State.fset_links (die : Nat) (f : FieldRef) (v : Nat) : (s.fset die f v).links = s.links := rfl
@[simp] theorem State.fset_tidemark (die : Nat) (f : FieldRef) (v : Nat) : (s.fset die f v).tidemark = s.tidemark := rfl
@[simp] theorem State.fset_coll (die : Nat) (f : FieldRef) (v : Nat) : (s.fset die f v).coll = s.coll := rfl
@[simp] theorem State.fset_iommuGen (die : Nat) (f : FieldRef) (v : Nat) : (s.fset die f v).iommuGen = s.iommuGen := rfl
@[simp] theorem State.fset_iommus (die : Nat) (f : FieldRef) (v : Nat) : (s.fset die f v).iommus = s.iommus := rfl
@[simp] theorem State.fset_host (die : Nat) (f : FieldRef) (v : Nat) : (s.fset die f v).host = s.host := rfl
@[simp] theorem State.fset_ios (die : Nat) (f : FieldRef) (v : Nat) : (s.fset die f v).ios = s.ios := rfl
@[simp] theorem State.fset_hostWbs (die : Nat) (f : FieldRef) (v : Nat) : (s.fset die f v).hostWbs = s.hostWbs := rfl
@[simp] theorem State.fset_sites (die : Nat) (f : FieldRef) (v : Nat) : (s.fset die f v).sites = s.sites := rfl
@[simp] theorem State.fset_hq (die : Nat) (f : FieldRef) (v : Nat) : (s.fset die f v).hq = s.hq := rfl
@[simp] theorem State.fset_power (die : Nat) (f : FieldRef) (v : Nat) : (s.fset die f v).power = s.power := rfl
@[simp] theorem State.fset_lht (die : Nat) (f : FieldRef) (v : Nat) : (s.fset die f v).lht = s.lht := rfl
@[simp] theorem State.fset_i3c (die : Nat) (f : FieldRef) (v : Nat) : (s.fset die f v).i3c = s.i3c := rfl
@[simp] theorem State.fset_sberr (die : Nat) (f : FieldRef) (v : Nat) : (s.fset die f v).sberr = s.sberr := rfl
@[simp] theorem State.fset_alertN (die : Nat) (f : FieldRef) (v : Nat) : (s.fset die f v).alertN = s.alertN := rfl
@[simp] theorem State.fset_wires (die : Nat) (f : FieldRef) (v : Nat) : (s.fset die f v).wires = s.wires := rfl

/-! ## `fadd` -/

@[simp] theorem State.fadd_pending (die : Nat) (f : FieldRef) (n : Nat) : (s.fadd die f n).pending = s.pending := rfl
@[simp] theorem State.fadd_now (die : Nat) (f : FieldRef) (n : Nat) : (s.fadd die f n).now = s.now := rfl
@[simp] theorem State.fadd_freeCtr (die : Nat) (f : FieldRef) (n : Nat) : (s.fadd die f n).freeCtr = s.freeCtr := rfl
@[simp] theorem State.fadd_errLog (die : Nat) (f : FieldRef) (n : Nat) : (s.fadd die f n).errLog = s.errLog := rfl
@[simp] theorem State.fadd_events (die : Nat) (f : FieldRef) (n : Nat) : (s.fadd die f n).events = s.events := rfl
@[simp] theorem State.fadd_out (die : Nat) (f : FieldRef) (n : Nat) : (s.fadd die f n).out = s.out := rfl
@[simp] theorem State.fadd_tmk (die : Nat) (f : FieldRef) (n : Nat) : (s.fadd die f n).tmk = s.tmk := rfl
@[simp] theorem State.fadd_tide (die : Nat) (f : FieldRef) (n : Nat) : (s.fadd die f n).tide = s.tide := rfl
@[simp] theorem State.fadd_vaults (die : Nat) (f : FieldRef) (n : Nat) : (s.fadd die f n).vaults = s.vaults := rfl
@[simp] theorem State.fadd_slab (die : Nat) (f : FieldRef) (n : Nat) : (s.fadd die f n).slab = s.slab := rfl
@[simp] theorem State.fadd_slabBad (die : Nat) (f : FieldRef) (n : Nat) : (s.fadd die f n).slabBad = s.slabBad := rfl
@[simp] theorem State.fadd_slabWait (die : Nat) (f : FieldRef) (n : Nat) : (s.fadd die f n).slabWait = s.slabWait := rfl
@[simp] theorem State.fadd_sbuf (die : Nat) (f : FieldRef) (n : Nat) : (s.fadd die f n).sbuf = s.sbuf := rfl
@[simp] theorem State.fadd_stack (die : Nat) (f : FieldRef) (n : Nat) : (s.fadd die f n).stack = s.stack := rfl
@[simp] theorem State.fadd_rat (die : Nat) (f : FieldRef) (n : Nat) : (s.fadd die f n).rat = s.rat := rfl
@[simp] theorem State.fadd_vwrInv (die : Nat) (f : FieldRef) (n : Nat) : (s.fadd die f n).vwrInv = s.vwrInv := rfl
@[simp] theorem State.fadd_strand (die : Nat) (f : FieldRef) (n : Nat) : (s.fadd die f n).strand = s.strand := rfl
@[simp] theorem State.fadd_msis (die : Nat) (f : FieldRef) (n : Nat) : (s.fadd die f n).msis = s.msis := rfl
@[simp] theorem State.fadd_samplers (die : Nat) (f : FieldRef) (n : Nat) : (s.fadd die f n).samplers = s.samplers := rfl
@[simp] theorem State.fadd_signals (die : Nat) (f : FieldRef) (n : Nat) : (s.fadd die f n).signals = s.signals := rfl
@[simp] theorem State.fadd_dieMode (die : Nat) (f : FieldRef) (n : Nat) : (s.fadd die f n).dieMode = s.dieMode := rfl
@[simp] theorem State.fadd_shelf (die : Nat) (f : FieldRef) (n : Nat) : (s.fadd die f n).shelf = s.shelf := rfl
@[simp] theorem State.fadd_shelfHits (die : Nat) (f : FieldRef) (n : Nat) : (s.fadd die f n).shelfHits = s.shelfHits := rfl
@[simp] theorem State.fadd_shelfRewrite (die : Nat) (f : FieldRef) (n : Nat) : (s.fadd die f n).shelfRewrite = s.shelfRewrite := rfl
@[simp] theorem State.fadd_remap (die : Nat) (f : FieldRef) (n : Nat) : (s.fadd die f n).remap = s.remap := rfl
@[simp] theorem State.fadd_spare (die : Nat) (f : FieldRef) (n : Nat) : (s.fadd die f n).spare = s.spare := rfl
@[simp] theorem State.fadd_tdl (die : Nat) (f : FieldRef) (n : Nat) : (s.fadd die f n).tdl = s.tdl := rfl
@[simp] theorem State.fadd_hostLines (die : Nat) (f : FieldRef) (n : Nat) : (s.fadd die f n).hostLines = s.hostLines := rfl
@[simp] theorem State.fadd_dir (die : Nat) (f : FieldRef) (n : Nat) : (s.fadd die f n).dir = s.dir := rfl
@[simp] theorem State.fadd_dirSram (die : Nat) (f : FieldRef) (n : Nat) : (s.fadd die f n).dirSram = s.dirSram := rfl
@[simp] theorem State.fadd_txns (die : Nat) (f : FieldRef) (n : Nat) : (s.fadd die f n).txns = s.txns := rfl
@[simp] theorem State.fadd_waitq (die : Nat) (f : FieldRef) (n : Nat) : (s.fadd die f n).waitq = s.waitq := rfl
@[simp] theorem State.fadd_net (die : Nat) (f : FieldRef) (n : Nat) : (s.fadd die f n).net = s.net := rfl
@[simp] theorem State.fadd_caches (die : Nat) (f : FieldRef) (n : Nat) : (s.fadd die f n).caches = s.caches := rfl
@[simp] theorem State.fadd_l1 (die : Nat) (f : FieldRef) (n : Nat) : (s.fadd die f n).l1 = s.l1 := rfl
@[simp] theorem State.fadd_mshrs (die : Nat) (f : FieldRef) (n : Nat) : (s.fadd die f n).mshrs = s.mshrs := rfl
@[simp] theorem State.fadd_harts (die : Nat) (f : FieldRef) (n : Nat) : (s.fadd die f n).harts = s.harts := rfl
@[simp] theorem State.fadd_imsic (die : Nat) (f : FieldRef) (n : Nat) : (s.fadd die f n).imsic = s.imsic := rfl
@[simp] theorem State.fadd_debugOn (die : Nat) (f : FieldRef) (n : Nat) : (s.fadd die f n).debugOn = s.debugOn := rfl
@[simp] theorem State.fadd_sweeps (die : Nat) (f : FieldRef) (n : Nat) : (s.fadd die f n).sweeps = s.sweeps := rfl
@[simp] theorem State.fadd_fab (die : Nat) (f : FieldRef) (n : Nat) : (s.fadd die f n).fab = s.fab := rfl
@[simp] theorem State.fadd_glz (die : Nat) (f : FieldRef) (n : Nat) : (s.fadd die f n).glz = s.glz := rfl
@[simp] theorem State.fadd_cmdEnds (die : Nat) (f : FieldRef) (n : Nat) : (s.fadd die f n).cmdEnds = s.cmdEnds := rfl
@[simp] theorem State.fadd_dmas (die : Nat) (f : FieldRef) (n : Nat) : (s.fadd die f n).dmas = s.dmas := rfl
@[simp] theorem State.fadd_dmaNo (die : Nat) (f : FieldRef) (n : Nat) : (s.fadd die f n).dmaNo = s.dmaNo := rfl
@[simp] theorem State.fadd_queueEnds (die : Nat) (f : FieldRef) (n : Nat) : (s.fadd die f n).queueEnds = s.queueEnds := rfl
@[simp] theorem State.fadd_links (die : Nat) (f : FieldRef) (n : Nat) : (s.fadd die f n).links = s.links := rfl
@[simp] theorem State.fadd_tidemark (die : Nat) (f : FieldRef) (n : Nat) : (s.fadd die f n).tidemark = s.tidemark := rfl
@[simp] theorem State.fadd_coll (die : Nat) (f : FieldRef) (n : Nat) : (s.fadd die f n).coll = s.coll := rfl
@[simp] theorem State.fadd_iommuGen (die : Nat) (f : FieldRef) (n : Nat) : (s.fadd die f n).iommuGen = s.iommuGen := rfl
@[simp] theorem State.fadd_iommus (die : Nat) (f : FieldRef) (n : Nat) : (s.fadd die f n).iommus = s.iommus := rfl
@[simp] theorem State.fadd_host (die : Nat) (f : FieldRef) (n : Nat) : (s.fadd die f n).host = s.host := rfl
@[simp] theorem State.fadd_ios (die : Nat) (f : FieldRef) (n : Nat) : (s.fadd die f n).ios = s.ios := rfl
@[simp] theorem State.fadd_hostWbs (die : Nat) (f : FieldRef) (n : Nat) : (s.fadd die f n).hostWbs = s.hostWbs := rfl
@[simp] theorem State.fadd_sites (die : Nat) (f : FieldRef) (n : Nat) : (s.fadd die f n).sites = s.sites := rfl
@[simp] theorem State.fadd_hq (die : Nat) (f : FieldRef) (n : Nat) : (s.fadd die f n).hq = s.hq := rfl
@[simp] theorem State.fadd_power (die : Nat) (f : FieldRef) (n : Nat) : (s.fadd die f n).power = s.power := rfl
@[simp] theorem State.fadd_lht (die : Nat) (f : FieldRef) (n : Nat) : (s.fadd die f n).lht = s.lht := rfl
@[simp] theorem State.fadd_i3c (die : Nat) (f : FieldRef) (n : Nat) : (s.fadd die f n).i3c = s.i3c := rfl
@[simp] theorem State.fadd_sberr (die : Nat) (f : FieldRef) (n : Nat) : (s.fadd die f n).sberr = s.sberr := rfl
@[simp] theorem State.fadd_alertN (die : Nat) (f : FieldRef) (n : Nat) : (s.fadd die f n).alertN = s.alertN := rfl
@[simp] theorem State.fadd_wires (die : Nat) (f : FieldRef) (n : Nat) : (s.fadd die f n).wires = s.wires := rfl

/-! ## `finc` -/

@[simp] theorem State.finc_pending (die : Nat) (f : FieldRef) : (s.finc die f).pending = s.pending := rfl
@[simp] theorem State.finc_now (die : Nat) (f : FieldRef) : (s.finc die f).now = s.now := rfl
@[simp] theorem State.finc_freeCtr (die : Nat) (f : FieldRef) : (s.finc die f).freeCtr = s.freeCtr := rfl
@[simp] theorem State.finc_errLog (die : Nat) (f : FieldRef) : (s.finc die f).errLog = s.errLog := rfl
@[simp] theorem State.finc_events (die : Nat) (f : FieldRef) : (s.finc die f).events = s.events := rfl
@[simp] theorem State.finc_out (die : Nat) (f : FieldRef) : (s.finc die f).out = s.out := rfl
@[simp] theorem State.finc_tmk (die : Nat) (f : FieldRef) : (s.finc die f).tmk = s.tmk := rfl
@[simp] theorem State.finc_tide (die : Nat) (f : FieldRef) : (s.finc die f).tide = s.tide := rfl
@[simp] theorem State.finc_vaults (die : Nat) (f : FieldRef) : (s.finc die f).vaults = s.vaults := rfl
@[simp] theorem State.finc_slab (die : Nat) (f : FieldRef) : (s.finc die f).slab = s.slab := rfl
@[simp] theorem State.finc_slabBad (die : Nat) (f : FieldRef) : (s.finc die f).slabBad = s.slabBad := rfl
@[simp] theorem State.finc_slabWait (die : Nat) (f : FieldRef) : (s.finc die f).slabWait = s.slabWait := rfl
@[simp] theorem State.finc_sbuf (die : Nat) (f : FieldRef) : (s.finc die f).sbuf = s.sbuf := rfl
@[simp] theorem State.finc_stack (die : Nat) (f : FieldRef) : (s.finc die f).stack = s.stack := rfl
@[simp] theorem State.finc_rat (die : Nat) (f : FieldRef) : (s.finc die f).rat = s.rat := rfl
@[simp] theorem State.finc_vwrInv (die : Nat) (f : FieldRef) : (s.finc die f).vwrInv = s.vwrInv := rfl
@[simp] theorem State.finc_strand (die : Nat) (f : FieldRef) : (s.finc die f).strand = s.strand := rfl
@[simp] theorem State.finc_msis (die : Nat) (f : FieldRef) : (s.finc die f).msis = s.msis := rfl
@[simp] theorem State.finc_samplers (die : Nat) (f : FieldRef) : (s.finc die f).samplers = s.samplers := rfl
@[simp] theorem State.finc_signals (die : Nat) (f : FieldRef) : (s.finc die f).signals = s.signals := rfl
@[simp] theorem State.finc_dieMode (die : Nat) (f : FieldRef) : (s.finc die f).dieMode = s.dieMode := rfl
@[simp] theorem State.finc_shelf (die : Nat) (f : FieldRef) : (s.finc die f).shelf = s.shelf := rfl
@[simp] theorem State.finc_shelfHits (die : Nat) (f : FieldRef) : (s.finc die f).shelfHits = s.shelfHits := rfl
@[simp] theorem State.finc_shelfRewrite (die : Nat) (f : FieldRef) : (s.finc die f).shelfRewrite = s.shelfRewrite := rfl
@[simp] theorem State.finc_remap (die : Nat) (f : FieldRef) : (s.finc die f).remap = s.remap := rfl
@[simp] theorem State.finc_spare (die : Nat) (f : FieldRef) : (s.finc die f).spare = s.spare := rfl
@[simp] theorem State.finc_tdl (die : Nat) (f : FieldRef) : (s.finc die f).tdl = s.tdl := rfl
@[simp] theorem State.finc_hostLines (die : Nat) (f : FieldRef) : (s.finc die f).hostLines = s.hostLines := rfl
@[simp] theorem State.finc_dir (die : Nat) (f : FieldRef) : (s.finc die f).dir = s.dir := rfl
@[simp] theorem State.finc_dirSram (die : Nat) (f : FieldRef) : (s.finc die f).dirSram = s.dirSram := rfl
@[simp] theorem State.finc_txns (die : Nat) (f : FieldRef) : (s.finc die f).txns = s.txns := rfl
@[simp] theorem State.finc_waitq (die : Nat) (f : FieldRef) : (s.finc die f).waitq = s.waitq := rfl
@[simp] theorem State.finc_net (die : Nat) (f : FieldRef) : (s.finc die f).net = s.net := rfl
@[simp] theorem State.finc_caches (die : Nat) (f : FieldRef) : (s.finc die f).caches = s.caches := rfl
@[simp] theorem State.finc_l1 (die : Nat) (f : FieldRef) : (s.finc die f).l1 = s.l1 := rfl
@[simp] theorem State.finc_mshrs (die : Nat) (f : FieldRef) : (s.finc die f).mshrs = s.mshrs := rfl
@[simp] theorem State.finc_harts (die : Nat) (f : FieldRef) : (s.finc die f).harts = s.harts := rfl
@[simp] theorem State.finc_imsic (die : Nat) (f : FieldRef) : (s.finc die f).imsic = s.imsic := rfl
@[simp] theorem State.finc_debugOn (die : Nat) (f : FieldRef) : (s.finc die f).debugOn = s.debugOn := rfl
@[simp] theorem State.finc_sweeps (die : Nat) (f : FieldRef) : (s.finc die f).sweeps = s.sweeps := rfl
@[simp] theorem State.finc_fab (die : Nat) (f : FieldRef) : (s.finc die f).fab = s.fab := rfl
@[simp] theorem State.finc_glz (die : Nat) (f : FieldRef) : (s.finc die f).glz = s.glz := rfl
@[simp] theorem State.finc_cmdEnds (die : Nat) (f : FieldRef) : (s.finc die f).cmdEnds = s.cmdEnds := rfl
@[simp] theorem State.finc_dmas (die : Nat) (f : FieldRef) : (s.finc die f).dmas = s.dmas := rfl
@[simp] theorem State.finc_dmaNo (die : Nat) (f : FieldRef) : (s.finc die f).dmaNo = s.dmaNo := rfl
@[simp] theorem State.finc_queueEnds (die : Nat) (f : FieldRef) : (s.finc die f).queueEnds = s.queueEnds := rfl
@[simp] theorem State.finc_links (die : Nat) (f : FieldRef) : (s.finc die f).links = s.links := rfl
@[simp] theorem State.finc_tidemark (die : Nat) (f : FieldRef) : (s.finc die f).tidemark = s.tidemark := rfl
@[simp] theorem State.finc_coll (die : Nat) (f : FieldRef) : (s.finc die f).coll = s.coll := rfl
@[simp] theorem State.finc_iommuGen (die : Nat) (f : FieldRef) : (s.finc die f).iommuGen = s.iommuGen := rfl
@[simp] theorem State.finc_iommus (die : Nat) (f : FieldRef) : (s.finc die f).iommus = s.iommus := rfl
@[simp] theorem State.finc_host (die : Nat) (f : FieldRef) : (s.finc die f).host = s.host := rfl
@[simp] theorem State.finc_ios (die : Nat) (f : FieldRef) : (s.finc die f).ios = s.ios := rfl
@[simp] theorem State.finc_hostWbs (die : Nat) (f : FieldRef) : (s.finc die f).hostWbs = s.hostWbs := rfl
@[simp] theorem State.finc_sites (die : Nat) (f : FieldRef) : (s.finc die f).sites = s.sites := rfl
@[simp] theorem State.finc_hq (die : Nat) (f : FieldRef) : (s.finc die f).hq = s.hq := rfl
@[simp] theorem State.finc_power (die : Nat) (f : FieldRef) : (s.finc die f).power = s.power := rfl
@[simp] theorem State.finc_lht (die : Nat) (f : FieldRef) : (s.finc die f).lht = s.lht := rfl
@[simp] theorem State.finc_i3c (die : Nat) (f : FieldRef) : (s.finc die f).i3c = s.i3c := rfl
@[simp] theorem State.finc_sberr (die : Nat) (f : FieldRef) : (s.finc die f).sberr = s.sberr := rfl
@[simp] theorem State.finc_alertN (die : Nat) (f : FieldRef) : (s.finc die f).alertN = s.alertN := rfl
@[simp] theorem State.finc_wires (die : Nat) (f : FieldRef) : (s.finc die f).wires = s.wires := rfl

/-! ## `emit` -/

@[simp] theorem State.emit_pending (o : Out) : (s.emit o).pending = s.pending := rfl
@[simp] theorem State.emit_regs (o : Out) : (s.emit o).regs = s.regs := rfl
@[simp] theorem State.emit_now (o : Out) : (s.emit o).now = s.now := rfl
@[simp] theorem State.emit_freeCtr (o : Out) : (s.emit o).freeCtr = s.freeCtr := rfl
@[simp] theorem State.emit_errLog (o : Out) : (s.emit o).errLog = s.errLog := rfl
@[simp] theorem State.emit_events (o : Out) : (s.emit o).events = s.events := rfl
@[simp] theorem State.emit_tmk (o : Out) : (s.emit o).tmk = s.tmk := rfl
@[simp] theorem State.emit_tide (o : Out) : (s.emit o).tide = s.tide := rfl
@[simp] theorem State.emit_vaults (o : Out) : (s.emit o).vaults = s.vaults := rfl
@[simp] theorem State.emit_slab (o : Out) : (s.emit o).slab = s.slab := rfl
@[simp] theorem State.emit_slabBad (o : Out) : (s.emit o).slabBad = s.slabBad := rfl
@[simp] theorem State.emit_slabWait (o : Out) : (s.emit o).slabWait = s.slabWait := rfl
@[simp] theorem State.emit_sbuf (o : Out) : (s.emit o).sbuf = s.sbuf := rfl
@[simp] theorem State.emit_stack (o : Out) : (s.emit o).stack = s.stack := rfl
@[simp] theorem State.emit_rat (o : Out) : (s.emit o).rat = s.rat := rfl
@[simp] theorem State.emit_vwrInv (o : Out) : (s.emit o).vwrInv = s.vwrInv := rfl
@[simp] theorem State.emit_strand (o : Out) : (s.emit o).strand = s.strand := rfl
@[simp] theorem State.emit_msis (o : Out) : (s.emit o).msis = s.msis := rfl
@[simp] theorem State.emit_samplers (o : Out) : (s.emit o).samplers = s.samplers := rfl
@[simp] theorem State.emit_signals (o : Out) : (s.emit o).signals = s.signals := rfl
@[simp] theorem State.emit_dieMode (o : Out) : (s.emit o).dieMode = s.dieMode := rfl
@[simp] theorem State.emit_shelf (o : Out) : (s.emit o).shelf = s.shelf := rfl
@[simp] theorem State.emit_shelfHits (o : Out) : (s.emit o).shelfHits = s.shelfHits := rfl
@[simp] theorem State.emit_shelfRewrite (o : Out) : (s.emit o).shelfRewrite = s.shelfRewrite := rfl
@[simp] theorem State.emit_remap (o : Out) : (s.emit o).remap = s.remap := rfl
@[simp] theorem State.emit_spare (o : Out) : (s.emit o).spare = s.spare := rfl
@[simp] theorem State.emit_tdl (o : Out) : (s.emit o).tdl = s.tdl := rfl
@[simp] theorem State.emit_hostLines (o : Out) : (s.emit o).hostLines = s.hostLines := rfl
@[simp] theorem State.emit_dir (o : Out) : (s.emit o).dir = s.dir := rfl
@[simp] theorem State.emit_dirSram (o : Out) : (s.emit o).dirSram = s.dirSram := rfl
@[simp] theorem State.emit_txns (o : Out) : (s.emit o).txns = s.txns := rfl
@[simp] theorem State.emit_waitq (o : Out) : (s.emit o).waitq = s.waitq := rfl
@[simp] theorem State.emit_net (o : Out) : (s.emit o).net = s.net := rfl
@[simp] theorem State.emit_caches (o : Out) : (s.emit o).caches = s.caches := rfl
@[simp] theorem State.emit_l1 (o : Out) : (s.emit o).l1 = s.l1 := rfl
@[simp] theorem State.emit_mshrs (o : Out) : (s.emit o).mshrs = s.mshrs := rfl
@[simp] theorem State.emit_harts (o : Out) : (s.emit o).harts = s.harts := rfl
@[simp] theorem State.emit_imsic (o : Out) : (s.emit o).imsic = s.imsic := rfl
@[simp] theorem State.emit_debugOn (o : Out) : (s.emit o).debugOn = s.debugOn := rfl
@[simp] theorem State.emit_sweeps (o : Out) : (s.emit o).sweeps = s.sweeps := rfl
@[simp] theorem State.emit_fab (o : Out) : (s.emit o).fab = s.fab := rfl
@[simp] theorem State.emit_glz (o : Out) : (s.emit o).glz = s.glz := rfl
@[simp] theorem State.emit_cmdEnds (o : Out) : (s.emit o).cmdEnds = s.cmdEnds := rfl
@[simp] theorem State.emit_dmas (o : Out) : (s.emit o).dmas = s.dmas := rfl
@[simp] theorem State.emit_dmaNo (o : Out) : (s.emit o).dmaNo = s.dmaNo := rfl
@[simp] theorem State.emit_queueEnds (o : Out) : (s.emit o).queueEnds = s.queueEnds := rfl
@[simp] theorem State.emit_links (o : Out) : (s.emit o).links = s.links := rfl
@[simp] theorem State.emit_tidemark (o : Out) : (s.emit o).tidemark = s.tidemark := rfl
@[simp] theorem State.emit_coll (o : Out) : (s.emit o).coll = s.coll := rfl
@[simp] theorem State.emit_iommuGen (o : Out) : (s.emit o).iommuGen = s.iommuGen := rfl
@[simp] theorem State.emit_iommus (o : Out) : (s.emit o).iommus = s.iommus := rfl
@[simp] theorem State.emit_host (o : Out) : (s.emit o).host = s.host := rfl
@[simp] theorem State.emit_ios (o : Out) : (s.emit o).ios = s.ios := rfl
@[simp] theorem State.emit_hostWbs (o : Out) : (s.emit o).hostWbs = s.hostWbs := rfl
@[simp] theorem State.emit_sites (o : Out) : (s.emit o).sites = s.sites := rfl
@[simp] theorem State.emit_hq (o : Out) : (s.emit o).hq = s.hq := rfl
@[simp] theorem State.emit_power (o : Out) : (s.emit o).power = s.power := rfl
@[simp] theorem State.emit_lht (o : Out) : (s.emit o).lht = s.lht := rfl
@[simp] theorem State.emit_i3c (o : Out) : (s.emit o).i3c = s.i3c := rfl
@[simp] theorem State.emit_sberr (o : Out) : (s.emit o).sberr = s.sberr := rfl
@[simp] theorem State.emit_alertN (o : Out) : (s.emit o).alertN = s.alertN := rfl
@[simp] theorem State.emit_wires (o : Out) : (s.emit o).wires = s.wires := rfl

/-! ## `raise` -/

@[simp] theorem State.raise_pending (e : Event) : (s.raise e).pending = s.pending := rfl
@[simp] theorem State.raise_regs (e : Event) : (s.raise e).regs = s.regs := rfl
@[simp] theorem State.raise_now (e : Event) : (s.raise e).now = s.now := rfl
@[simp] theorem State.raise_freeCtr (e : Event) : (s.raise e).freeCtr = s.freeCtr := rfl
@[simp] theorem State.raise_errLog (e : Event) : (s.raise e).errLog = s.errLog := rfl
@[simp] theorem State.raise_out (e : Event) : (s.raise e).out = s.out := rfl
@[simp] theorem State.raise_tmk (e : Event) : (s.raise e).tmk = s.tmk := rfl
@[simp] theorem State.raise_tide (e : Event) : (s.raise e).tide = s.tide := rfl
@[simp] theorem State.raise_vaults (e : Event) : (s.raise e).vaults = s.vaults := rfl
@[simp] theorem State.raise_slab (e : Event) : (s.raise e).slab = s.slab := rfl
@[simp] theorem State.raise_slabBad (e : Event) : (s.raise e).slabBad = s.slabBad := rfl
@[simp] theorem State.raise_slabWait (e : Event) : (s.raise e).slabWait = s.slabWait := rfl
@[simp] theorem State.raise_sbuf (e : Event) : (s.raise e).sbuf = s.sbuf := rfl
@[simp] theorem State.raise_stack (e : Event) : (s.raise e).stack = s.stack := rfl
@[simp] theorem State.raise_rat (e : Event) : (s.raise e).rat = s.rat := rfl
@[simp] theorem State.raise_vwrInv (e : Event) : (s.raise e).vwrInv = s.vwrInv := rfl
@[simp] theorem State.raise_strand (e : Event) : (s.raise e).strand = s.strand := rfl
@[simp] theorem State.raise_msis (e : Event) : (s.raise e).msis = s.msis := rfl
@[simp] theorem State.raise_samplers (e : Event) : (s.raise e).samplers = s.samplers := rfl
@[simp] theorem State.raise_signals (e : Event) : (s.raise e).signals = s.signals := rfl
@[simp] theorem State.raise_dieMode (e : Event) : (s.raise e).dieMode = s.dieMode := rfl
@[simp] theorem State.raise_shelf (e : Event) : (s.raise e).shelf = s.shelf := rfl
@[simp] theorem State.raise_shelfHits (e : Event) : (s.raise e).shelfHits = s.shelfHits := rfl
@[simp] theorem State.raise_shelfRewrite (e : Event) : (s.raise e).shelfRewrite = s.shelfRewrite := rfl
@[simp] theorem State.raise_remap (e : Event) : (s.raise e).remap = s.remap := rfl
@[simp] theorem State.raise_spare (e : Event) : (s.raise e).spare = s.spare := rfl
@[simp] theorem State.raise_tdl (e : Event) : (s.raise e).tdl = s.tdl := rfl
@[simp] theorem State.raise_hostLines (e : Event) : (s.raise e).hostLines = s.hostLines := rfl
@[simp] theorem State.raise_dir (e : Event) : (s.raise e).dir = s.dir := rfl
@[simp] theorem State.raise_dirSram (e : Event) : (s.raise e).dirSram = s.dirSram := rfl
@[simp] theorem State.raise_txns (e : Event) : (s.raise e).txns = s.txns := rfl
@[simp] theorem State.raise_waitq (e : Event) : (s.raise e).waitq = s.waitq := rfl
@[simp] theorem State.raise_net (e : Event) : (s.raise e).net = s.net := rfl
@[simp] theorem State.raise_caches (e : Event) : (s.raise e).caches = s.caches := rfl
@[simp] theorem State.raise_l1 (e : Event) : (s.raise e).l1 = s.l1 := rfl
@[simp] theorem State.raise_mshrs (e : Event) : (s.raise e).mshrs = s.mshrs := rfl
@[simp] theorem State.raise_harts (e : Event) : (s.raise e).harts = s.harts := rfl
@[simp] theorem State.raise_imsic (e : Event) : (s.raise e).imsic = s.imsic := rfl
@[simp] theorem State.raise_debugOn (e : Event) : (s.raise e).debugOn = s.debugOn := rfl
@[simp] theorem State.raise_sweeps (e : Event) : (s.raise e).sweeps = s.sweeps := rfl
@[simp] theorem State.raise_fab (e : Event) : (s.raise e).fab = s.fab := rfl
@[simp] theorem State.raise_glz (e : Event) : (s.raise e).glz = s.glz := rfl
@[simp] theorem State.raise_cmdEnds (e : Event) : (s.raise e).cmdEnds = s.cmdEnds := rfl
@[simp] theorem State.raise_dmas (e : Event) : (s.raise e).dmas = s.dmas := rfl
@[simp] theorem State.raise_dmaNo (e : Event) : (s.raise e).dmaNo = s.dmaNo := rfl
@[simp] theorem State.raise_queueEnds (e : Event) : (s.raise e).queueEnds = s.queueEnds := rfl
@[simp] theorem State.raise_links (e : Event) : (s.raise e).links = s.links := rfl
@[simp] theorem State.raise_tidemark (e : Event) : (s.raise e).tidemark = s.tidemark := rfl
@[simp] theorem State.raise_coll (e : Event) : (s.raise e).coll = s.coll := rfl
@[simp] theorem State.raise_iommuGen (e : Event) : (s.raise e).iommuGen = s.iommuGen := rfl
@[simp] theorem State.raise_iommus (e : Event) : (s.raise e).iommus = s.iommus := rfl
@[simp] theorem State.raise_host (e : Event) : (s.raise e).host = s.host := rfl
@[simp] theorem State.raise_ios (e : Event) : (s.raise e).ios = s.ios := rfl
@[simp] theorem State.raise_hostWbs (e : Event) : (s.raise e).hostWbs = s.hostWbs := rfl
@[simp] theorem State.raise_sites (e : Event) : (s.raise e).sites = s.sites := rfl
@[simp] theorem State.raise_hq (e : Event) : (s.raise e).hq = s.hq := rfl
@[simp] theorem State.raise_power (e : Event) : (s.raise e).power = s.power := rfl
@[simp] theorem State.raise_lht (e : Event) : (s.raise e).lht = s.lht := rfl
@[simp] theorem State.raise_i3c (e : Event) : (s.raise e).i3c = s.i3c := rfl
@[simp] theorem State.raise_sberr (e : Event) : (s.raise e).sberr = s.sberr := rfl
@[simp] theorem State.raise_alertN (e : Event) : (s.raise e).alertN = s.alertN := rfl
@[simp] theorem State.raise_wires (e : Event) : (s.raise e).wires = s.wires := rfl

/-! ## `setErrs` -/

@[simp] theorem State.setErrs_pending (die : Nat) (l : List ErrRec) : (s.setErrs die l).pending = s.pending := rfl
@[simp] theorem State.setErrs_regs (die : Nat) (l : List ErrRec) : (s.setErrs die l).regs = s.regs := rfl
@[simp] theorem State.setErrs_now (die : Nat) (l : List ErrRec) : (s.setErrs die l).now = s.now := rfl
@[simp] theorem State.setErrs_freeCtr (die : Nat) (l : List ErrRec) : (s.setErrs die l).freeCtr = s.freeCtr := rfl
@[simp] theorem State.setErrs_events (die : Nat) (l : List ErrRec) : (s.setErrs die l).events = s.events := rfl
@[simp] theorem State.setErrs_out (die : Nat) (l : List ErrRec) : (s.setErrs die l).out = s.out := rfl
@[simp] theorem State.setErrs_tmk (die : Nat) (l : List ErrRec) : (s.setErrs die l).tmk = s.tmk := rfl
@[simp] theorem State.setErrs_tide (die : Nat) (l : List ErrRec) : (s.setErrs die l).tide = s.tide := rfl
@[simp] theorem State.setErrs_vaults (die : Nat) (l : List ErrRec) : (s.setErrs die l).vaults = s.vaults := rfl
@[simp] theorem State.setErrs_slab (die : Nat) (l : List ErrRec) : (s.setErrs die l).slab = s.slab := rfl
@[simp] theorem State.setErrs_slabBad (die : Nat) (l : List ErrRec) : (s.setErrs die l).slabBad = s.slabBad := rfl
@[simp] theorem State.setErrs_slabWait (die : Nat) (l : List ErrRec) : (s.setErrs die l).slabWait = s.slabWait := rfl
@[simp] theorem State.setErrs_sbuf (die : Nat) (l : List ErrRec) : (s.setErrs die l).sbuf = s.sbuf := rfl
@[simp] theorem State.setErrs_stack (die : Nat) (l : List ErrRec) : (s.setErrs die l).stack = s.stack := rfl
@[simp] theorem State.setErrs_rat (die : Nat) (l : List ErrRec) : (s.setErrs die l).rat = s.rat := rfl
@[simp] theorem State.setErrs_vwrInv (die : Nat) (l : List ErrRec) : (s.setErrs die l).vwrInv = s.vwrInv := rfl
@[simp] theorem State.setErrs_strand (die : Nat) (l : List ErrRec) : (s.setErrs die l).strand = s.strand := rfl
@[simp] theorem State.setErrs_msis (die : Nat) (l : List ErrRec) : (s.setErrs die l).msis = s.msis := rfl
@[simp] theorem State.setErrs_samplers (die : Nat) (l : List ErrRec) : (s.setErrs die l).samplers = s.samplers := rfl
@[simp] theorem State.setErrs_signals (die : Nat) (l : List ErrRec) : (s.setErrs die l).signals = s.signals := rfl
@[simp] theorem State.setErrs_dieMode (die : Nat) (l : List ErrRec) : (s.setErrs die l).dieMode = s.dieMode := rfl
@[simp] theorem State.setErrs_shelf (die : Nat) (l : List ErrRec) : (s.setErrs die l).shelf = s.shelf := rfl
@[simp] theorem State.setErrs_shelfHits (die : Nat) (l : List ErrRec) : (s.setErrs die l).shelfHits = s.shelfHits := rfl
@[simp] theorem State.setErrs_shelfRewrite (die : Nat) (l : List ErrRec) : (s.setErrs die l).shelfRewrite = s.shelfRewrite := rfl
@[simp] theorem State.setErrs_remap (die : Nat) (l : List ErrRec) : (s.setErrs die l).remap = s.remap := rfl
@[simp] theorem State.setErrs_spare (die : Nat) (l : List ErrRec) : (s.setErrs die l).spare = s.spare := rfl
@[simp] theorem State.setErrs_tdl (die : Nat) (l : List ErrRec) : (s.setErrs die l).tdl = s.tdl := rfl
@[simp] theorem State.setErrs_hostLines (die : Nat) (l : List ErrRec) : (s.setErrs die l).hostLines = s.hostLines := rfl
@[simp] theorem State.setErrs_dir (die : Nat) (l : List ErrRec) : (s.setErrs die l).dir = s.dir := rfl
@[simp] theorem State.setErrs_dirSram (die : Nat) (l : List ErrRec) : (s.setErrs die l).dirSram = s.dirSram := rfl
@[simp] theorem State.setErrs_txns (die : Nat) (l : List ErrRec) : (s.setErrs die l).txns = s.txns := rfl
@[simp] theorem State.setErrs_waitq (die : Nat) (l : List ErrRec) : (s.setErrs die l).waitq = s.waitq := rfl
@[simp] theorem State.setErrs_net (die : Nat) (l : List ErrRec) : (s.setErrs die l).net = s.net := rfl
@[simp] theorem State.setErrs_caches (die : Nat) (l : List ErrRec) : (s.setErrs die l).caches = s.caches := rfl
@[simp] theorem State.setErrs_l1 (die : Nat) (l : List ErrRec) : (s.setErrs die l).l1 = s.l1 := rfl
@[simp] theorem State.setErrs_mshrs (die : Nat) (l : List ErrRec) : (s.setErrs die l).mshrs = s.mshrs := rfl
@[simp] theorem State.setErrs_harts (die : Nat) (l : List ErrRec) : (s.setErrs die l).harts = s.harts := rfl
@[simp] theorem State.setErrs_imsic (die : Nat) (l : List ErrRec) : (s.setErrs die l).imsic = s.imsic := rfl
@[simp] theorem State.setErrs_debugOn (die : Nat) (l : List ErrRec) : (s.setErrs die l).debugOn = s.debugOn := rfl
@[simp] theorem State.setErrs_sweeps (die : Nat) (l : List ErrRec) : (s.setErrs die l).sweeps = s.sweeps := rfl
@[simp] theorem State.setErrs_fab (die : Nat) (l : List ErrRec) : (s.setErrs die l).fab = s.fab := rfl
@[simp] theorem State.setErrs_glz (die : Nat) (l : List ErrRec) : (s.setErrs die l).glz = s.glz := rfl
@[simp] theorem State.setErrs_cmdEnds (die : Nat) (l : List ErrRec) : (s.setErrs die l).cmdEnds = s.cmdEnds := rfl
@[simp] theorem State.setErrs_dmas (die : Nat) (l : List ErrRec) : (s.setErrs die l).dmas = s.dmas := rfl
@[simp] theorem State.setErrs_dmaNo (die : Nat) (l : List ErrRec) : (s.setErrs die l).dmaNo = s.dmaNo := rfl
@[simp] theorem State.setErrs_queueEnds (die : Nat) (l : List ErrRec) : (s.setErrs die l).queueEnds = s.queueEnds := rfl
@[simp] theorem State.setErrs_links (die : Nat) (l : List ErrRec) : (s.setErrs die l).links = s.links := rfl
@[simp] theorem State.setErrs_tidemark (die : Nat) (l : List ErrRec) : (s.setErrs die l).tidemark = s.tidemark := rfl
@[simp] theorem State.setErrs_coll (die : Nat) (l : List ErrRec) : (s.setErrs die l).coll = s.coll := rfl
@[simp] theorem State.setErrs_iommuGen (die : Nat) (l : List ErrRec) : (s.setErrs die l).iommuGen = s.iommuGen := rfl
@[simp] theorem State.setErrs_iommus (die : Nat) (l : List ErrRec) : (s.setErrs die l).iommus = s.iommus := rfl
@[simp] theorem State.setErrs_host (die : Nat) (l : List ErrRec) : (s.setErrs die l).host = s.host := rfl
@[simp] theorem State.setErrs_ios (die : Nat) (l : List ErrRec) : (s.setErrs die l).ios = s.ios := rfl
@[simp] theorem State.setErrs_hostWbs (die : Nat) (l : List ErrRec) : (s.setErrs die l).hostWbs = s.hostWbs := rfl
@[simp] theorem State.setErrs_sites (die : Nat) (l : List ErrRec) : (s.setErrs die l).sites = s.sites := rfl
@[simp] theorem State.setErrs_hq (die : Nat) (l : List ErrRec) : (s.setErrs die l).hq = s.hq := rfl
@[simp] theorem State.setErrs_power (die : Nat) (l : List ErrRec) : (s.setErrs die l).power = s.power := rfl
@[simp] theorem State.setErrs_lht (die : Nat) (l : List ErrRec) : (s.setErrs die l).lht = s.lht := rfl
@[simp] theorem State.setErrs_i3c (die : Nat) (l : List ErrRec) : (s.setErrs die l).i3c = s.i3c := rfl
@[simp] theorem State.setErrs_sberr (die : Nat) (l : List ErrRec) : (s.setErrs die l).sberr = s.sberr := rfl
@[simp] theorem State.setErrs_alertN (die : Nat) (l : List ErrRec) : (s.setErrs die l).alertN = s.alertN := rfl
@[simp] theorem State.setErrs_wires (die : Nat) (l : List ErrRec) : (s.setErrs die l).wires = s.wires := rfl

/-! ## `setMode` -/

@[simp] theorem State.setMode_pending (die m : Nat) : (s.setMode die m).pending = s.pending := rfl
@[simp] theorem State.setMode_regs (die m : Nat) : (s.setMode die m).regs = s.regs := rfl
@[simp] theorem State.setMode_now (die m : Nat) : (s.setMode die m).now = s.now := rfl
@[simp] theorem State.setMode_freeCtr (die m : Nat) : (s.setMode die m).freeCtr = s.freeCtr := rfl
@[simp] theorem State.setMode_errLog (die m : Nat) : (s.setMode die m).errLog = s.errLog := rfl
@[simp] theorem State.setMode_events (die m : Nat) : (s.setMode die m).events = s.events := rfl
@[simp] theorem State.setMode_out (die m : Nat) : (s.setMode die m).out = s.out := rfl
@[simp] theorem State.setMode_tmk (die m : Nat) : (s.setMode die m).tmk = s.tmk := rfl
@[simp] theorem State.setMode_tide (die m : Nat) : (s.setMode die m).tide = s.tide := rfl
@[simp] theorem State.setMode_vaults (die m : Nat) : (s.setMode die m).vaults = s.vaults := rfl
@[simp] theorem State.setMode_slab (die m : Nat) : (s.setMode die m).slab = s.slab := rfl
@[simp] theorem State.setMode_slabBad (die m : Nat) : (s.setMode die m).slabBad = s.slabBad := rfl
@[simp] theorem State.setMode_slabWait (die m : Nat) : (s.setMode die m).slabWait = s.slabWait := rfl
@[simp] theorem State.setMode_sbuf (die m : Nat) : (s.setMode die m).sbuf = s.sbuf := rfl
@[simp] theorem State.setMode_stack (die m : Nat) : (s.setMode die m).stack = s.stack := rfl
@[simp] theorem State.setMode_rat (die m : Nat) : (s.setMode die m).rat = s.rat := rfl
@[simp] theorem State.setMode_vwrInv (die m : Nat) : (s.setMode die m).vwrInv = s.vwrInv := rfl
@[simp] theorem State.setMode_strand (die m : Nat) : (s.setMode die m).strand = s.strand := rfl
@[simp] theorem State.setMode_msis (die m : Nat) : (s.setMode die m).msis = s.msis := rfl
@[simp] theorem State.setMode_samplers (die m : Nat) : (s.setMode die m).samplers = s.samplers := rfl
@[simp] theorem State.setMode_signals (die m : Nat) : (s.setMode die m).signals = s.signals := rfl
@[simp] theorem State.setMode_shelf (die m : Nat) : (s.setMode die m).shelf = s.shelf := rfl
@[simp] theorem State.setMode_shelfHits (die m : Nat) : (s.setMode die m).shelfHits = s.shelfHits := rfl
@[simp] theorem State.setMode_shelfRewrite (die m : Nat) : (s.setMode die m).shelfRewrite = s.shelfRewrite := rfl
@[simp] theorem State.setMode_remap (die m : Nat) : (s.setMode die m).remap = s.remap := rfl
@[simp] theorem State.setMode_spare (die m : Nat) : (s.setMode die m).spare = s.spare := rfl
@[simp] theorem State.setMode_tdl (die m : Nat) : (s.setMode die m).tdl = s.tdl := rfl
@[simp] theorem State.setMode_hostLines (die m : Nat) : (s.setMode die m).hostLines = s.hostLines := rfl
@[simp] theorem State.setMode_dir (die m : Nat) : (s.setMode die m).dir = s.dir := rfl
@[simp] theorem State.setMode_dirSram (die m : Nat) : (s.setMode die m).dirSram = s.dirSram := rfl
@[simp] theorem State.setMode_txns (die m : Nat) : (s.setMode die m).txns = s.txns := rfl
@[simp] theorem State.setMode_waitq (die m : Nat) : (s.setMode die m).waitq = s.waitq := rfl
@[simp] theorem State.setMode_net (die m : Nat) : (s.setMode die m).net = s.net := rfl
@[simp] theorem State.setMode_caches (die m : Nat) : (s.setMode die m).caches = s.caches := rfl
@[simp] theorem State.setMode_l1 (die m : Nat) : (s.setMode die m).l1 = s.l1 := rfl
@[simp] theorem State.setMode_mshrs (die m : Nat) : (s.setMode die m).mshrs = s.mshrs := rfl
@[simp] theorem State.setMode_harts (die m : Nat) : (s.setMode die m).harts = s.harts := rfl
@[simp] theorem State.setMode_imsic (die m : Nat) : (s.setMode die m).imsic = s.imsic := rfl
@[simp] theorem State.setMode_debugOn (die m : Nat) : (s.setMode die m).debugOn = s.debugOn := rfl
@[simp] theorem State.setMode_sweeps (die m : Nat) : (s.setMode die m).sweeps = s.sweeps := rfl
@[simp] theorem State.setMode_fab (die m : Nat) : (s.setMode die m).fab = s.fab := rfl
@[simp] theorem State.setMode_glz (die m : Nat) : (s.setMode die m).glz = s.glz := rfl
@[simp] theorem State.setMode_cmdEnds (die m : Nat) : (s.setMode die m).cmdEnds = s.cmdEnds := rfl
@[simp] theorem State.setMode_dmas (die m : Nat) : (s.setMode die m).dmas = s.dmas := rfl
@[simp] theorem State.setMode_dmaNo (die m : Nat) : (s.setMode die m).dmaNo = s.dmaNo := rfl
@[simp] theorem State.setMode_queueEnds (die m : Nat) : (s.setMode die m).queueEnds = s.queueEnds := rfl
@[simp] theorem State.setMode_links (die m : Nat) : (s.setMode die m).links = s.links := rfl
@[simp] theorem State.setMode_tidemark (die m : Nat) : (s.setMode die m).tidemark = s.tidemark := rfl
@[simp] theorem State.setMode_coll (die m : Nat) : (s.setMode die m).coll = s.coll := rfl
@[simp] theorem State.setMode_iommuGen (die m : Nat) : (s.setMode die m).iommuGen = s.iommuGen := rfl
@[simp] theorem State.setMode_iommus (die m : Nat) : (s.setMode die m).iommus = s.iommus := rfl
@[simp] theorem State.setMode_host (die m : Nat) : (s.setMode die m).host = s.host := rfl
@[simp] theorem State.setMode_ios (die m : Nat) : (s.setMode die m).ios = s.ios := rfl
@[simp] theorem State.setMode_hostWbs (die m : Nat) : (s.setMode die m).hostWbs = s.hostWbs := rfl
@[simp] theorem State.setMode_sites (die m : Nat) : (s.setMode die m).sites = s.sites := rfl
@[simp] theorem State.setMode_hq (die m : Nat) : (s.setMode die m).hq = s.hq := rfl
@[simp] theorem State.setMode_power (die m : Nat) : (s.setMode die m).power = s.power := rfl
@[simp] theorem State.setMode_lht (die m : Nat) : (s.setMode die m).lht = s.lht := rfl
@[simp] theorem State.setMode_i3c (die m : Nat) : (s.setMode die m).i3c = s.i3c := rfl
@[simp] theorem State.setMode_sberr (die m : Nat) : (s.setMode die m).sberr = s.sberr := rfl
@[simp] theorem State.setMode_alertN (die m : Nat) : (s.setMode die m).alertN = s.alertN := rfl
@[simp] theorem State.setMode_wires (die m : Nat) : (s.setMode die m).wires = s.wires := rfl

/-! ## `setTd` -/

@[simp] theorem State.setTd_pending (die : Nat) (t : TideDie) : (s.setTd die t).pending = s.pending := rfl
@[simp] theorem State.setTd_regs (die : Nat) (t : TideDie) : (s.setTd die t).regs = s.regs := rfl
@[simp] theorem State.setTd_now (die : Nat) (t : TideDie) : (s.setTd die t).now = s.now := rfl
@[simp] theorem State.setTd_freeCtr (die : Nat) (t : TideDie) : (s.setTd die t).freeCtr = s.freeCtr := rfl
@[simp] theorem State.setTd_errLog (die : Nat) (t : TideDie) : (s.setTd die t).errLog = s.errLog := rfl
@[simp] theorem State.setTd_events (die : Nat) (t : TideDie) : (s.setTd die t).events = s.events := rfl
@[simp] theorem State.setTd_out (die : Nat) (t : TideDie) : (s.setTd die t).out = s.out := rfl
@[simp] theorem State.setTd_tmk (die : Nat) (t : TideDie) : (s.setTd die t).tmk = s.tmk := rfl
@[simp] theorem State.setTd_vaults (die : Nat) (t : TideDie) : (s.setTd die t).vaults = s.vaults := rfl
@[simp] theorem State.setTd_slab (die : Nat) (t : TideDie) : (s.setTd die t).slab = s.slab := rfl
@[simp] theorem State.setTd_slabBad (die : Nat) (t : TideDie) : (s.setTd die t).slabBad = s.slabBad := rfl
@[simp] theorem State.setTd_slabWait (die : Nat) (t : TideDie) : (s.setTd die t).slabWait = s.slabWait := rfl
@[simp] theorem State.setTd_sbuf (die : Nat) (t : TideDie) : (s.setTd die t).sbuf = s.sbuf := rfl
@[simp] theorem State.setTd_stack (die : Nat) (t : TideDie) : (s.setTd die t).stack = s.stack := rfl
@[simp] theorem State.setTd_rat (die : Nat) (t : TideDie) : (s.setTd die t).rat = s.rat := rfl
@[simp] theorem State.setTd_vwrInv (die : Nat) (t : TideDie) : (s.setTd die t).vwrInv = s.vwrInv := rfl
@[simp] theorem State.setTd_strand (die : Nat) (t : TideDie) : (s.setTd die t).strand = s.strand := rfl
@[simp] theorem State.setTd_msis (die : Nat) (t : TideDie) : (s.setTd die t).msis = s.msis := rfl
@[simp] theorem State.setTd_samplers (die : Nat) (t : TideDie) : (s.setTd die t).samplers = s.samplers := rfl
@[simp] theorem State.setTd_signals (die : Nat) (t : TideDie) : (s.setTd die t).signals = s.signals := rfl
@[simp] theorem State.setTd_dieMode (die : Nat) (t : TideDie) : (s.setTd die t).dieMode = s.dieMode := rfl
@[simp] theorem State.setTd_shelf (die : Nat) (t : TideDie) : (s.setTd die t).shelf = s.shelf := rfl
@[simp] theorem State.setTd_shelfHits (die : Nat) (t : TideDie) : (s.setTd die t).shelfHits = s.shelfHits := rfl
@[simp] theorem State.setTd_shelfRewrite (die : Nat) (t : TideDie) : (s.setTd die t).shelfRewrite = s.shelfRewrite := rfl
@[simp] theorem State.setTd_remap (die : Nat) (t : TideDie) : (s.setTd die t).remap = s.remap := rfl
@[simp] theorem State.setTd_spare (die : Nat) (t : TideDie) : (s.setTd die t).spare = s.spare := rfl
@[simp] theorem State.setTd_tdl (die : Nat) (t : TideDie) : (s.setTd die t).tdl = s.tdl := rfl
@[simp] theorem State.setTd_hostLines (die : Nat) (t : TideDie) : (s.setTd die t).hostLines = s.hostLines := rfl
@[simp] theorem State.setTd_dir (die : Nat) (t : TideDie) : (s.setTd die t).dir = s.dir := rfl
@[simp] theorem State.setTd_dirSram (die : Nat) (t : TideDie) : (s.setTd die t).dirSram = s.dirSram := rfl
@[simp] theorem State.setTd_txns (die : Nat) (t : TideDie) : (s.setTd die t).txns = s.txns := rfl
@[simp] theorem State.setTd_waitq (die : Nat) (t : TideDie) : (s.setTd die t).waitq = s.waitq := rfl
@[simp] theorem State.setTd_net (die : Nat) (t : TideDie) : (s.setTd die t).net = s.net := rfl
@[simp] theorem State.setTd_caches (die : Nat) (t : TideDie) : (s.setTd die t).caches = s.caches := rfl
@[simp] theorem State.setTd_l1 (die : Nat) (t : TideDie) : (s.setTd die t).l1 = s.l1 := rfl
@[simp] theorem State.setTd_mshrs (die : Nat) (t : TideDie) : (s.setTd die t).mshrs = s.mshrs := rfl
@[simp] theorem State.setTd_harts (die : Nat) (t : TideDie) : (s.setTd die t).harts = s.harts := rfl
@[simp] theorem State.setTd_imsic (die : Nat) (t : TideDie) : (s.setTd die t).imsic = s.imsic := rfl
@[simp] theorem State.setTd_debugOn (die : Nat) (t : TideDie) : (s.setTd die t).debugOn = s.debugOn := rfl
@[simp] theorem State.setTd_sweeps (die : Nat) (t : TideDie) : (s.setTd die t).sweeps = s.sweeps := rfl
@[simp] theorem State.setTd_fab (die : Nat) (t : TideDie) : (s.setTd die t).fab = s.fab := rfl
@[simp] theorem State.setTd_glz (die : Nat) (t : TideDie) : (s.setTd die t).glz = s.glz := rfl
@[simp] theorem State.setTd_cmdEnds (die : Nat) (t : TideDie) : (s.setTd die t).cmdEnds = s.cmdEnds := rfl
@[simp] theorem State.setTd_dmas (die : Nat) (t : TideDie) : (s.setTd die t).dmas = s.dmas := rfl
@[simp] theorem State.setTd_dmaNo (die : Nat) (t : TideDie) : (s.setTd die t).dmaNo = s.dmaNo := rfl
@[simp] theorem State.setTd_queueEnds (die : Nat) (t : TideDie) : (s.setTd die t).queueEnds = s.queueEnds := rfl
@[simp] theorem State.setTd_links (die : Nat) (t : TideDie) : (s.setTd die t).links = s.links := rfl
@[simp] theorem State.setTd_tidemark (die : Nat) (t : TideDie) : (s.setTd die t).tidemark = s.tidemark := rfl
@[simp] theorem State.setTd_coll (die : Nat) (t : TideDie) : (s.setTd die t).coll = s.coll := rfl
@[simp] theorem State.setTd_iommuGen (die : Nat) (t : TideDie) : (s.setTd die t).iommuGen = s.iommuGen := rfl
@[simp] theorem State.setTd_iommus (die : Nat) (t : TideDie) : (s.setTd die t).iommus = s.iommus := rfl
@[simp] theorem State.setTd_host (die : Nat) (t : TideDie) : (s.setTd die t).host = s.host := rfl
@[simp] theorem State.setTd_ios (die : Nat) (t : TideDie) : (s.setTd die t).ios = s.ios := rfl
@[simp] theorem State.setTd_hostWbs (die : Nat) (t : TideDie) : (s.setTd die t).hostWbs = s.hostWbs := rfl
@[simp] theorem State.setTd_sites (die : Nat) (t : TideDie) : (s.setTd die t).sites = s.sites := rfl
@[simp] theorem State.setTd_hq (die : Nat) (t : TideDie) : (s.setTd die t).hq = s.hq := rfl
@[simp] theorem State.setTd_power (die : Nat) (t : TideDie) : (s.setTd die t).power = s.power := rfl
@[simp] theorem State.setTd_lht (die : Nat) (t : TideDie) : (s.setTd die t).lht = s.lht := rfl
@[simp] theorem State.setTd_i3c (die : Nat) (t : TideDie) : (s.setTd die t).i3c = s.i3c := rfl
@[simp] theorem State.setTd_sberr (die : Nat) (t : TideDie) : (s.setTd die t).sberr = s.sberr := rfl
@[simp] theorem State.setTd_alertN (die : Nat) (t : TideDie) : (s.setTd die t).alertN = s.alertN := rfl
@[simp] theorem State.setTd_wires (die : Nat) (t : TideDie) : (s.setTd die t).wires = s.wires := rfl

/-! ## `updTd` -/

@[simp] theorem State.updTd_pending (die : Nat) (f : TideDie → TideDie) : (s.updTd die f).pending = s.pending := rfl
@[simp] theorem State.updTd_regs (die : Nat) (f : TideDie → TideDie) : (s.updTd die f).regs = s.regs := rfl
@[simp] theorem State.updTd_now (die : Nat) (f : TideDie → TideDie) : (s.updTd die f).now = s.now := rfl
@[simp] theorem State.updTd_freeCtr (die : Nat) (f : TideDie → TideDie) : (s.updTd die f).freeCtr = s.freeCtr := rfl
@[simp] theorem State.updTd_errLog (die : Nat) (f : TideDie → TideDie) : (s.updTd die f).errLog = s.errLog := rfl
@[simp] theorem State.updTd_events (die : Nat) (f : TideDie → TideDie) : (s.updTd die f).events = s.events := rfl
@[simp] theorem State.updTd_out (die : Nat) (f : TideDie → TideDie) : (s.updTd die f).out = s.out := rfl
@[simp] theorem State.updTd_tmk (die : Nat) (f : TideDie → TideDie) : (s.updTd die f).tmk = s.tmk := rfl
@[simp] theorem State.updTd_vaults (die : Nat) (f : TideDie → TideDie) : (s.updTd die f).vaults = s.vaults := rfl
@[simp] theorem State.updTd_slab (die : Nat) (f : TideDie → TideDie) : (s.updTd die f).slab = s.slab := rfl
@[simp] theorem State.updTd_slabBad (die : Nat) (f : TideDie → TideDie) : (s.updTd die f).slabBad = s.slabBad := rfl
@[simp] theorem State.updTd_slabWait (die : Nat) (f : TideDie → TideDie) : (s.updTd die f).slabWait = s.slabWait := rfl
@[simp] theorem State.updTd_sbuf (die : Nat) (f : TideDie → TideDie) : (s.updTd die f).sbuf = s.sbuf := rfl
@[simp] theorem State.updTd_stack (die : Nat) (f : TideDie → TideDie) : (s.updTd die f).stack = s.stack := rfl
@[simp] theorem State.updTd_rat (die : Nat) (f : TideDie → TideDie) : (s.updTd die f).rat = s.rat := rfl
@[simp] theorem State.updTd_vwrInv (die : Nat) (f : TideDie → TideDie) : (s.updTd die f).vwrInv = s.vwrInv := rfl
@[simp] theorem State.updTd_strand (die : Nat) (f : TideDie → TideDie) : (s.updTd die f).strand = s.strand := rfl
@[simp] theorem State.updTd_msis (die : Nat) (f : TideDie → TideDie) : (s.updTd die f).msis = s.msis := rfl
@[simp] theorem State.updTd_samplers (die : Nat) (f : TideDie → TideDie) : (s.updTd die f).samplers = s.samplers := rfl
@[simp] theorem State.updTd_signals (die : Nat) (f : TideDie → TideDie) : (s.updTd die f).signals = s.signals := rfl
@[simp] theorem State.updTd_dieMode (die : Nat) (f : TideDie → TideDie) : (s.updTd die f).dieMode = s.dieMode := rfl
@[simp] theorem State.updTd_shelf (die : Nat) (f : TideDie → TideDie) : (s.updTd die f).shelf = s.shelf := rfl
@[simp] theorem State.updTd_shelfHits (die : Nat) (f : TideDie → TideDie) : (s.updTd die f).shelfHits = s.shelfHits := rfl
@[simp] theorem State.updTd_shelfRewrite (die : Nat) (f : TideDie → TideDie) : (s.updTd die f).shelfRewrite = s.shelfRewrite := rfl
@[simp] theorem State.updTd_remap (die : Nat) (f : TideDie → TideDie) : (s.updTd die f).remap = s.remap := rfl
@[simp] theorem State.updTd_spare (die : Nat) (f : TideDie → TideDie) : (s.updTd die f).spare = s.spare := rfl
@[simp] theorem State.updTd_tdl (die : Nat) (f : TideDie → TideDie) : (s.updTd die f).tdl = s.tdl := rfl
@[simp] theorem State.updTd_hostLines (die : Nat) (f : TideDie → TideDie) : (s.updTd die f).hostLines = s.hostLines := rfl
@[simp] theorem State.updTd_dir (die : Nat) (f : TideDie → TideDie) : (s.updTd die f).dir = s.dir := rfl
@[simp] theorem State.updTd_dirSram (die : Nat) (f : TideDie → TideDie) : (s.updTd die f).dirSram = s.dirSram := rfl
@[simp] theorem State.updTd_txns (die : Nat) (f : TideDie → TideDie) : (s.updTd die f).txns = s.txns := rfl
@[simp] theorem State.updTd_waitq (die : Nat) (f : TideDie → TideDie) : (s.updTd die f).waitq = s.waitq := rfl
@[simp] theorem State.updTd_net (die : Nat) (f : TideDie → TideDie) : (s.updTd die f).net = s.net := rfl
@[simp] theorem State.updTd_caches (die : Nat) (f : TideDie → TideDie) : (s.updTd die f).caches = s.caches := rfl
@[simp] theorem State.updTd_l1 (die : Nat) (f : TideDie → TideDie) : (s.updTd die f).l1 = s.l1 := rfl
@[simp] theorem State.updTd_mshrs (die : Nat) (f : TideDie → TideDie) : (s.updTd die f).mshrs = s.mshrs := rfl
@[simp] theorem State.updTd_harts (die : Nat) (f : TideDie → TideDie) : (s.updTd die f).harts = s.harts := rfl
@[simp] theorem State.updTd_imsic (die : Nat) (f : TideDie → TideDie) : (s.updTd die f).imsic = s.imsic := rfl
@[simp] theorem State.updTd_debugOn (die : Nat) (f : TideDie → TideDie) : (s.updTd die f).debugOn = s.debugOn := rfl
@[simp] theorem State.updTd_sweeps (die : Nat) (f : TideDie → TideDie) : (s.updTd die f).sweeps = s.sweeps := rfl
@[simp] theorem State.updTd_fab (die : Nat) (f : TideDie → TideDie) : (s.updTd die f).fab = s.fab := rfl
@[simp] theorem State.updTd_glz (die : Nat) (f : TideDie → TideDie) : (s.updTd die f).glz = s.glz := rfl
@[simp] theorem State.updTd_cmdEnds (die : Nat) (f : TideDie → TideDie) : (s.updTd die f).cmdEnds = s.cmdEnds := rfl
@[simp] theorem State.updTd_dmas (die : Nat) (f : TideDie → TideDie) : (s.updTd die f).dmas = s.dmas := rfl
@[simp] theorem State.updTd_dmaNo (die : Nat) (f : TideDie → TideDie) : (s.updTd die f).dmaNo = s.dmaNo := rfl
@[simp] theorem State.updTd_queueEnds (die : Nat) (f : TideDie → TideDie) : (s.updTd die f).queueEnds = s.queueEnds := rfl
@[simp] theorem State.updTd_links (die : Nat) (f : TideDie → TideDie) : (s.updTd die f).links = s.links := rfl
@[simp] theorem State.updTd_tidemark (die : Nat) (f : TideDie → TideDie) : (s.updTd die f).tidemark = s.tidemark := rfl
@[simp] theorem State.updTd_coll (die : Nat) (f : TideDie → TideDie) : (s.updTd die f).coll = s.coll := rfl
@[simp] theorem State.updTd_iommuGen (die : Nat) (f : TideDie → TideDie) : (s.updTd die f).iommuGen = s.iommuGen := rfl
@[simp] theorem State.updTd_iommus (die : Nat) (f : TideDie → TideDie) : (s.updTd die f).iommus = s.iommus := rfl
@[simp] theorem State.updTd_host (die : Nat) (f : TideDie → TideDie) : (s.updTd die f).host = s.host := rfl
@[simp] theorem State.updTd_ios (die : Nat) (f : TideDie → TideDie) : (s.updTd die f).ios = s.ios := rfl
@[simp] theorem State.updTd_hostWbs (die : Nat) (f : TideDie → TideDie) : (s.updTd die f).hostWbs = s.hostWbs := rfl
@[simp] theorem State.updTd_sites (die : Nat) (f : TideDie → TideDie) : (s.updTd die f).sites = s.sites := rfl
@[simp] theorem State.updTd_hq (die : Nat) (f : TideDie → TideDie) : (s.updTd die f).hq = s.hq := rfl
@[simp] theorem State.updTd_power (die : Nat) (f : TideDie → TideDie) : (s.updTd die f).power = s.power := rfl
@[simp] theorem State.updTd_lht (die : Nat) (f : TideDie → TideDie) : (s.updTd die f).lht = s.lht := rfl
@[simp] theorem State.updTd_i3c (die : Nat) (f : TideDie → TideDie) : (s.updTd die f).i3c = s.i3c := rfl
@[simp] theorem State.updTd_sberr (die : Nat) (f : TideDie → TideDie) : (s.updTd die f).sberr = s.sberr := rfl
@[simp] theorem State.updTd_alertN (die : Nat) (f : TideDie → TideDie) : (s.updTd die f).alertN = s.alertN := rfl
@[simp] theorem State.updTd_wires (die : Nat) (f : TideDie → TideDie) : (s.updTd die f).wires = s.wires := rfl

/-! ## `updVault` -/

@[simp] theorem State.updVault_pending (die v : Nat) (f : Vault → Vault) : (s.updVault die v f).pending = s.pending := rfl
@[simp] theorem State.updVault_regs (die v : Nat) (f : Vault → Vault) : (s.updVault die v f).regs = s.regs := rfl
@[simp] theorem State.updVault_now (die v : Nat) (f : Vault → Vault) : (s.updVault die v f).now = s.now := rfl
@[simp] theorem State.updVault_freeCtr (die v : Nat) (f : Vault → Vault) : (s.updVault die v f).freeCtr = s.freeCtr := rfl
@[simp] theorem State.updVault_errLog (die v : Nat) (f : Vault → Vault) : (s.updVault die v f).errLog = s.errLog := rfl
@[simp] theorem State.updVault_events (die v : Nat) (f : Vault → Vault) : (s.updVault die v f).events = s.events := rfl
@[simp] theorem State.updVault_out (die v : Nat) (f : Vault → Vault) : (s.updVault die v f).out = s.out := rfl
@[simp] theorem State.updVault_tmk (die v : Nat) (f : Vault → Vault) : (s.updVault die v f).tmk = s.tmk := rfl
@[simp] theorem State.updVault_tide (die v : Nat) (f : Vault → Vault) : (s.updVault die v f).tide = s.tide := rfl
@[simp] theorem State.updVault_slab (die v : Nat) (f : Vault → Vault) : (s.updVault die v f).slab = s.slab := rfl
@[simp] theorem State.updVault_slabBad (die v : Nat) (f : Vault → Vault) : (s.updVault die v f).slabBad = s.slabBad := rfl
@[simp] theorem State.updVault_slabWait (die v : Nat) (f : Vault → Vault) : (s.updVault die v f).slabWait = s.slabWait := rfl
@[simp] theorem State.updVault_sbuf (die v : Nat) (f : Vault → Vault) : (s.updVault die v f).sbuf = s.sbuf := rfl
@[simp] theorem State.updVault_stack (die v : Nat) (f : Vault → Vault) : (s.updVault die v f).stack = s.stack := rfl
@[simp] theorem State.updVault_rat (die v : Nat) (f : Vault → Vault) : (s.updVault die v f).rat = s.rat := rfl
@[simp] theorem State.updVault_vwrInv (die v : Nat) (f : Vault → Vault) : (s.updVault die v f).vwrInv = s.vwrInv := rfl
@[simp] theorem State.updVault_strand (die v : Nat) (f : Vault → Vault) : (s.updVault die v f).strand = s.strand := rfl
@[simp] theorem State.updVault_msis (die v : Nat) (f : Vault → Vault) : (s.updVault die v f).msis = s.msis := rfl
@[simp] theorem State.updVault_samplers (die v : Nat) (f : Vault → Vault) : (s.updVault die v f).samplers = s.samplers := rfl
@[simp] theorem State.updVault_signals (die v : Nat) (f : Vault → Vault) : (s.updVault die v f).signals = s.signals := rfl
@[simp] theorem State.updVault_dieMode (die v : Nat) (f : Vault → Vault) : (s.updVault die v f).dieMode = s.dieMode := rfl
@[simp] theorem State.updVault_shelf (die v : Nat) (f : Vault → Vault) : (s.updVault die v f).shelf = s.shelf := rfl
@[simp] theorem State.updVault_shelfHits (die v : Nat) (f : Vault → Vault) : (s.updVault die v f).shelfHits = s.shelfHits := rfl
@[simp] theorem State.updVault_shelfRewrite (die v : Nat) (f : Vault → Vault) : (s.updVault die v f).shelfRewrite = s.shelfRewrite := rfl
@[simp] theorem State.updVault_remap (die v : Nat) (f : Vault → Vault) : (s.updVault die v f).remap = s.remap := rfl
@[simp] theorem State.updVault_spare (die v : Nat) (f : Vault → Vault) : (s.updVault die v f).spare = s.spare := rfl
@[simp] theorem State.updVault_tdl (die v : Nat) (f : Vault → Vault) : (s.updVault die v f).tdl = s.tdl := rfl
@[simp] theorem State.updVault_hostLines (die v : Nat) (f : Vault → Vault) : (s.updVault die v f).hostLines = s.hostLines := rfl
@[simp] theorem State.updVault_dir (die v : Nat) (f : Vault → Vault) : (s.updVault die v f).dir = s.dir := rfl
@[simp] theorem State.updVault_dirSram (die v : Nat) (f : Vault → Vault) : (s.updVault die v f).dirSram = s.dirSram := rfl
@[simp] theorem State.updVault_txns (die v : Nat) (f : Vault → Vault) : (s.updVault die v f).txns = s.txns := rfl
@[simp] theorem State.updVault_waitq (die v : Nat) (f : Vault → Vault) : (s.updVault die v f).waitq = s.waitq := rfl
@[simp] theorem State.updVault_net (die v : Nat) (f : Vault → Vault) : (s.updVault die v f).net = s.net := rfl
@[simp] theorem State.updVault_caches (die v : Nat) (f : Vault → Vault) : (s.updVault die v f).caches = s.caches := rfl
@[simp] theorem State.updVault_l1 (die v : Nat) (f : Vault → Vault) : (s.updVault die v f).l1 = s.l1 := rfl
@[simp] theorem State.updVault_mshrs (die v : Nat) (f : Vault → Vault) : (s.updVault die v f).mshrs = s.mshrs := rfl
@[simp] theorem State.updVault_harts (die v : Nat) (f : Vault → Vault) : (s.updVault die v f).harts = s.harts := rfl
@[simp] theorem State.updVault_imsic (die v : Nat) (f : Vault → Vault) : (s.updVault die v f).imsic = s.imsic := rfl
@[simp] theorem State.updVault_debugOn (die v : Nat) (f : Vault → Vault) : (s.updVault die v f).debugOn = s.debugOn := rfl
@[simp] theorem State.updVault_sweeps (die v : Nat) (f : Vault → Vault) : (s.updVault die v f).sweeps = s.sweeps := rfl
@[simp] theorem State.updVault_fab (die v : Nat) (f : Vault → Vault) : (s.updVault die v f).fab = s.fab := rfl
@[simp] theorem State.updVault_glz (die v : Nat) (f : Vault → Vault) : (s.updVault die v f).glz = s.glz := rfl
@[simp] theorem State.updVault_cmdEnds (die v : Nat) (f : Vault → Vault) : (s.updVault die v f).cmdEnds = s.cmdEnds := rfl
@[simp] theorem State.updVault_dmas (die v : Nat) (f : Vault → Vault) : (s.updVault die v f).dmas = s.dmas := rfl
@[simp] theorem State.updVault_dmaNo (die v : Nat) (f : Vault → Vault) : (s.updVault die v f).dmaNo = s.dmaNo := rfl
@[simp] theorem State.updVault_queueEnds (die v : Nat) (f : Vault → Vault) : (s.updVault die v f).queueEnds = s.queueEnds := rfl
@[simp] theorem State.updVault_links (die v : Nat) (f : Vault → Vault) : (s.updVault die v f).links = s.links := rfl
@[simp] theorem State.updVault_tidemark (die v : Nat) (f : Vault → Vault) : (s.updVault die v f).tidemark = s.tidemark := rfl
@[simp] theorem State.updVault_coll (die v : Nat) (f : Vault → Vault) : (s.updVault die v f).coll = s.coll := rfl
@[simp] theorem State.updVault_iommuGen (die v : Nat) (f : Vault → Vault) : (s.updVault die v f).iommuGen = s.iommuGen := rfl
@[simp] theorem State.updVault_iommus (die v : Nat) (f : Vault → Vault) : (s.updVault die v f).iommus = s.iommus := rfl
@[simp] theorem State.updVault_host (die v : Nat) (f : Vault → Vault) : (s.updVault die v f).host = s.host := rfl
@[simp] theorem State.updVault_ios (die v : Nat) (f : Vault → Vault) : (s.updVault die v f).ios = s.ios := rfl
@[simp] theorem State.updVault_hostWbs (die v : Nat) (f : Vault → Vault) : (s.updVault die v f).hostWbs = s.hostWbs := rfl
@[simp] theorem State.updVault_sites (die v : Nat) (f : Vault → Vault) : (s.updVault die v f).sites = s.sites := rfl
@[simp] theorem State.updVault_hq (die v : Nat) (f : Vault → Vault) : (s.updVault die v f).hq = s.hq := rfl
@[simp] theorem State.updVault_power (die v : Nat) (f : Vault → Vault) : (s.updVault die v f).power = s.power := rfl
@[simp] theorem State.updVault_lht (die v : Nat) (f : Vault → Vault) : (s.updVault die v f).lht = s.lht := rfl
@[simp] theorem State.updVault_i3c (die v : Nat) (f : Vault → Vault) : (s.updVault die v f).i3c = s.i3c := rfl
@[simp] theorem State.updVault_sberr (die v : Nat) (f : Vault → Vault) : (s.updVault die v f).sberr = s.sberr := rfl
@[simp] theorem State.updVault_alertN (die v : Nat) (f : Vault → Vault) : (s.updVault die v f).alertN = s.alertN := rfl
@[simp] theorem State.updVault_wires (die v : Nat) (f : Vault → Vault) : (s.updVault die v f).wires = s.wires := rfl

/-! ## `updHart` -/

@[simp] theorem State.updHart_pending (h : Nat) (f : Hart → Hart) : (s.updHart h f).pending = s.pending := rfl
@[simp] theorem State.updHart_regs (h : Nat) (f : Hart → Hart) : (s.updHart h f).regs = s.regs := rfl
@[simp] theorem State.updHart_now (h : Nat) (f : Hart → Hart) : (s.updHart h f).now = s.now := rfl
@[simp] theorem State.updHart_freeCtr (h : Nat) (f : Hart → Hart) : (s.updHart h f).freeCtr = s.freeCtr := rfl
@[simp] theorem State.updHart_errLog (h : Nat) (f : Hart → Hart) : (s.updHart h f).errLog = s.errLog := rfl
@[simp] theorem State.updHart_events (h : Nat) (f : Hart → Hart) : (s.updHart h f).events = s.events := rfl
@[simp] theorem State.updHart_out (h : Nat) (f : Hart → Hart) : (s.updHart h f).out = s.out := rfl
@[simp] theorem State.updHart_tmk (h : Nat) (f : Hart → Hart) : (s.updHart h f).tmk = s.tmk := rfl
@[simp] theorem State.updHart_tide (h : Nat) (f : Hart → Hart) : (s.updHart h f).tide = s.tide := rfl
@[simp] theorem State.updHart_vaults (h : Nat) (f : Hart → Hart) : (s.updHart h f).vaults = s.vaults := rfl
@[simp] theorem State.updHart_slab (h : Nat) (f : Hart → Hart) : (s.updHart h f).slab = s.slab := rfl
@[simp] theorem State.updHart_slabBad (h : Nat) (f : Hart → Hart) : (s.updHart h f).slabBad = s.slabBad := rfl
@[simp] theorem State.updHart_slabWait (h : Nat) (f : Hart → Hart) : (s.updHart h f).slabWait = s.slabWait := rfl
@[simp] theorem State.updHart_sbuf (h : Nat) (f : Hart → Hart) : (s.updHart h f).sbuf = s.sbuf := rfl
@[simp] theorem State.updHart_stack (h : Nat) (f : Hart → Hart) : (s.updHart h f).stack = s.stack := rfl
@[simp] theorem State.updHart_rat (h : Nat) (f : Hart → Hart) : (s.updHart h f).rat = s.rat := rfl
@[simp] theorem State.updHart_vwrInv (h : Nat) (f : Hart → Hart) : (s.updHart h f).vwrInv = s.vwrInv := rfl
@[simp] theorem State.updHart_strand (h : Nat) (f : Hart → Hart) : (s.updHart h f).strand = s.strand := rfl
@[simp] theorem State.updHart_msis (h : Nat) (f : Hart → Hart) : (s.updHart h f).msis = s.msis := rfl
@[simp] theorem State.updHart_samplers (h : Nat) (f : Hart → Hart) : (s.updHart h f).samplers = s.samplers := rfl
@[simp] theorem State.updHart_signals (h : Nat) (f : Hart → Hart) : (s.updHart h f).signals = s.signals := rfl
@[simp] theorem State.updHart_dieMode (h : Nat) (f : Hart → Hart) : (s.updHart h f).dieMode = s.dieMode := rfl
@[simp] theorem State.updHart_shelf (h : Nat) (f : Hart → Hart) : (s.updHart h f).shelf = s.shelf := rfl
@[simp] theorem State.updHart_shelfHits (h : Nat) (f : Hart → Hart) : (s.updHart h f).shelfHits = s.shelfHits := rfl
@[simp] theorem State.updHart_shelfRewrite (h : Nat) (f : Hart → Hart) : (s.updHart h f).shelfRewrite = s.shelfRewrite := rfl
@[simp] theorem State.updHart_remap (h : Nat) (f : Hart → Hart) : (s.updHart h f).remap = s.remap := rfl
@[simp] theorem State.updHart_spare (h : Nat) (f : Hart → Hart) : (s.updHart h f).spare = s.spare := rfl
@[simp] theorem State.updHart_tdl (h : Nat) (f : Hart → Hart) : (s.updHart h f).tdl = s.tdl := rfl
@[simp] theorem State.updHart_hostLines (h : Nat) (f : Hart → Hart) : (s.updHart h f).hostLines = s.hostLines := rfl
@[simp] theorem State.updHart_dir (h : Nat) (f : Hart → Hart) : (s.updHart h f).dir = s.dir := rfl
@[simp] theorem State.updHart_dirSram (h : Nat) (f : Hart → Hart) : (s.updHart h f).dirSram = s.dirSram := rfl
@[simp] theorem State.updHart_txns (h : Nat) (f : Hart → Hart) : (s.updHart h f).txns = s.txns := rfl
@[simp] theorem State.updHart_waitq (h : Nat) (f : Hart → Hart) : (s.updHart h f).waitq = s.waitq := rfl
@[simp] theorem State.updHart_net (h : Nat) (f : Hart → Hart) : (s.updHart h f).net = s.net := rfl
@[simp] theorem State.updHart_caches (h : Nat) (f : Hart → Hart) : (s.updHart h f).caches = s.caches := rfl
@[simp] theorem State.updHart_l1 (h : Nat) (f : Hart → Hart) : (s.updHart h f).l1 = s.l1 := rfl
@[simp] theorem State.updHart_mshrs (h : Nat) (f : Hart → Hart) : (s.updHart h f).mshrs = s.mshrs := rfl
@[simp] theorem State.updHart_imsic (h : Nat) (f : Hart → Hart) : (s.updHart h f).imsic = s.imsic := rfl
@[simp] theorem State.updHart_debugOn (h : Nat) (f : Hart → Hart) : (s.updHart h f).debugOn = s.debugOn := rfl
@[simp] theorem State.updHart_sweeps (h : Nat) (f : Hart → Hart) : (s.updHart h f).sweeps = s.sweeps := rfl
@[simp] theorem State.updHart_fab (h : Nat) (f : Hart → Hart) : (s.updHart h f).fab = s.fab := rfl
@[simp] theorem State.updHart_glz (h : Nat) (f : Hart → Hart) : (s.updHart h f).glz = s.glz := rfl
@[simp] theorem State.updHart_cmdEnds (h : Nat) (f : Hart → Hart) : (s.updHart h f).cmdEnds = s.cmdEnds := rfl
@[simp] theorem State.updHart_dmas (h : Nat) (f : Hart → Hart) : (s.updHart h f).dmas = s.dmas := rfl
@[simp] theorem State.updHart_dmaNo (h : Nat) (f : Hart → Hart) : (s.updHart h f).dmaNo = s.dmaNo := rfl
@[simp] theorem State.updHart_queueEnds (h : Nat) (f : Hart → Hart) : (s.updHart h f).queueEnds = s.queueEnds := rfl
@[simp] theorem State.updHart_links (h : Nat) (f : Hart → Hart) : (s.updHart h f).links = s.links := rfl
@[simp] theorem State.updHart_tidemark (h : Nat) (f : Hart → Hart) : (s.updHart h f).tidemark = s.tidemark := rfl
@[simp] theorem State.updHart_coll (h : Nat) (f : Hart → Hart) : (s.updHart h f).coll = s.coll := rfl
@[simp] theorem State.updHart_iommuGen (h : Nat) (f : Hart → Hart) : (s.updHart h f).iommuGen = s.iommuGen := rfl
@[simp] theorem State.updHart_iommus (h : Nat) (f : Hart → Hart) : (s.updHart h f).iommus = s.iommus := rfl
@[simp] theorem State.updHart_host (h : Nat) (f : Hart → Hart) : (s.updHart h f).host = s.host := rfl
@[simp] theorem State.updHart_ios (h : Nat) (f : Hart → Hart) : (s.updHart h f).ios = s.ios := rfl
@[simp] theorem State.updHart_hostWbs (h : Nat) (f : Hart → Hart) : (s.updHart h f).hostWbs = s.hostWbs := rfl
@[simp] theorem State.updHart_sites (h : Nat) (f : Hart → Hart) : (s.updHart h f).sites = s.sites := rfl
@[simp] theorem State.updHart_hq (h : Nat) (f : Hart → Hart) : (s.updHart h f).hq = s.hq := rfl
@[simp] theorem State.updHart_power (h : Nat) (f : Hart → Hart) : (s.updHart h f).power = s.power := rfl
@[simp] theorem State.updHart_lht (h : Nat) (f : Hart → Hart) : (s.updHart h f).lht = s.lht := rfl
@[simp] theorem State.updHart_i3c (h : Nat) (f : Hart → Hart) : (s.updHart h f).i3c = s.i3c := rfl
@[simp] theorem State.updHart_sberr (h : Nat) (f : Hart → Hart) : (s.updHart h f).sberr = s.sberr := rfl
@[simp] theorem State.updHart_alertN (h : Nat) (f : Hart → Hart) : (s.updHart h f).alertN = s.alertN := rfl
@[simp] theorem State.updHart_wires (h : Nat) (f : Hart → Hart) : (s.updHart h f).wires = s.wires := rfl

/-! ## `send` -/

@[simp] theorem State.send_pending (m : Msg) : (s.send m).pending = s.pending := rfl
@[simp] theorem State.send_regs (m : Msg) :
    (s.send m).regs = (s.countWay (s.lineWay m.agent m.line m.kind.toAgent)).regs := rfl
@[simp] theorem State.send_now (m : Msg) : (s.send m).now = s.now := rfl
@[simp] theorem State.send_freeCtr (m : Msg) : (s.send m).freeCtr = s.freeCtr := rfl
@[simp] theorem State.send_errLog (m : Msg) : (s.send m).errLog = s.errLog := rfl
@[simp] theorem State.send_events (m : Msg) : (s.send m).events = s.events := rfl
@[simp] theorem State.send_out (m : Msg) : (s.send m).out = s.out := rfl
@[simp] theorem State.send_tmk (m : Msg) : (s.send m).tmk = s.tmk := rfl
@[simp] theorem State.send_tide (m : Msg) : (s.send m).tide = s.tide := rfl
@[simp] theorem State.send_vaults (m : Msg) : (s.send m).vaults = s.vaults := rfl
@[simp] theorem State.send_slab (m : Msg) : (s.send m).slab = s.slab := rfl
@[simp] theorem State.send_slabBad (m : Msg) : (s.send m).slabBad = s.slabBad := rfl
@[simp] theorem State.send_slabWait (m : Msg) : (s.send m).slabWait = s.slabWait := rfl
@[simp] theorem State.send_sbuf (m : Msg) : (s.send m).sbuf = s.sbuf := rfl
@[simp] theorem State.send_stack (m : Msg) : (s.send m).stack = s.stack := rfl
@[simp] theorem State.send_rat (m : Msg) : (s.send m).rat = s.rat := rfl
@[simp] theorem State.send_vwrInv (m : Msg) : (s.send m).vwrInv = s.vwrInv := rfl
@[simp] theorem State.send_strand (m : Msg) : (s.send m).strand = s.strand := rfl
@[simp] theorem State.send_msis (m : Msg) : (s.send m).msis = s.msis := rfl
@[simp] theorem State.send_samplers (m : Msg) : (s.send m).samplers = s.samplers := rfl
@[simp] theorem State.send_signals (m : Msg) : (s.send m).signals = s.signals := rfl
@[simp] theorem State.send_dieMode (m : Msg) : (s.send m).dieMode = s.dieMode := rfl
@[simp] theorem State.send_shelf (m : Msg) : (s.send m).shelf = s.shelf := rfl
@[simp] theorem State.send_shelfHits (m : Msg) : (s.send m).shelfHits = s.shelfHits := rfl
@[simp] theorem State.send_shelfRewrite (m : Msg) : (s.send m).shelfRewrite = s.shelfRewrite := rfl
@[simp] theorem State.send_remap (m : Msg) : (s.send m).remap = s.remap := rfl
@[simp] theorem State.send_spare (m : Msg) : (s.send m).spare = s.spare := rfl
@[simp] theorem State.send_tdl (m : Msg) : (s.send m).tdl = s.tdl := rfl
@[simp] theorem State.send_hostLines (m : Msg) : (s.send m).hostLines = s.hostLines := rfl
@[simp] theorem State.send_dir (m : Msg) : (s.send m).dir = s.dir := rfl
@[simp] theorem State.send_dirSram (m : Msg) : (s.send m).dirSram = s.dirSram := rfl
@[simp] theorem State.send_txns (m : Msg) : (s.send m).txns = s.txns := rfl
@[simp] theorem State.send_waitq (m : Msg) : (s.send m).waitq = s.waitq := rfl
@[simp] theorem State.send_caches (m : Msg) : (s.send m).caches = s.caches := rfl
@[simp] theorem State.send_l1 (m : Msg) : (s.send m).l1 = s.l1 := rfl
@[simp] theorem State.send_mshrs (m : Msg) : (s.send m).mshrs = s.mshrs := rfl
@[simp] theorem State.send_harts (m : Msg) : (s.send m).harts = s.harts := rfl
@[simp] theorem State.send_imsic (m : Msg) : (s.send m).imsic = s.imsic := rfl
@[simp] theorem State.send_debugOn (m : Msg) : (s.send m).debugOn = s.debugOn := rfl
@[simp] theorem State.send_sweeps (m : Msg) : (s.send m).sweeps = s.sweeps := rfl
@[simp] theorem State.send_fab (m : Msg) : (s.send m).fab = s.fab := rfl
@[simp] theorem State.send_glz (m : Msg) : (s.send m).glz = s.glz := rfl
@[simp] theorem State.send_cmdEnds (m : Msg) : (s.send m).cmdEnds = s.cmdEnds := rfl
@[simp] theorem State.send_dmas (m : Msg) : (s.send m).dmas = s.dmas := rfl
@[simp] theorem State.send_dmaNo (m : Msg) : (s.send m).dmaNo = s.dmaNo := rfl
@[simp] theorem State.send_queueEnds (m : Msg) : (s.send m).queueEnds = s.queueEnds := rfl
@[simp] theorem State.send_links (m : Msg) : (s.send m).links = s.links := rfl
@[simp] theorem State.send_tidemark (m : Msg) : (s.send m).tidemark = s.tidemark := rfl
@[simp] theorem State.send_coll (m : Msg) : (s.send m).coll = s.coll := rfl
@[simp] theorem State.send_iommuGen (m : Msg) : (s.send m).iommuGen = s.iommuGen := rfl
@[simp] theorem State.send_iommus (m : Msg) : (s.send m).iommus = s.iommus := rfl
@[simp] theorem State.send_host (m : Msg) : (s.send m).host = s.host := rfl
@[simp] theorem State.send_ios (m : Msg) : (s.send m).ios = s.ios := rfl
@[simp] theorem State.send_hostWbs (m : Msg) : (s.send m).hostWbs = s.hostWbs := rfl
@[simp] theorem State.send_sites (m : Msg) : (s.send m).sites = s.sites := rfl
@[simp] theorem State.send_hq (m : Msg) : (s.send m).hq = s.hq := rfl
@[simp] theorem State.send_power (m : Msg) : (s.send m).power = s.power := rfl
@[simp] theorem State.send_lht (m : Msg) : (s.send m).lht = s.lht := rfl
@[simp] theorem State.send_i3c (m : Msg) : (s.send m).i3c = s.i3c := rfl
@[simp] theorem State.send_sberr (m : Msg) : (s.send m).sberr = s.sberr := rfl
@[simp] theorem State.send_alertN (m : Msg) : (s.send m).alertN = s.alertN := rfl
@[simp] theorem State.send_wires (m : Msg) : (s.send m).wires = s.wires := rfl

/-! ## `updCache` -/

@[simp] theorem State.updCache_pending (a : Nat) (f : Cache → Cache) : (s.updCache a f).pending = s.pending := rfl
@[simp] theorem State.updCache_regs (a : Nat) (f : Cache → Cache) : (s.updCache a f).regs = s.regs := rfl
@[simp] theorem State.updCache_now (a : Nat) (f : Cache → Cache) : (s.updCache a f).now = s.now := rfl
@[simp] theorem State.updCache_freeCtr (a : Nat) (f : Cache → Cache) : (s.updCache a f).freeCtr = s.freeCtr := rfl
@[simp] theorem State.updCache_errLog (a : Nat) (f : Cache → Cache) : (s.updCache a f).errLog = s.errLog := rfl
@[simp] theorem State.updCache_events (a : Nat) (f : Cache → Cache) : (s.updCache a f).events = s.events := rfl
@[simp] theorem State.updCache_out (a : Nat) (f : Cache → Cache) : (s.updCache a f).out = s.out := rfl
@[simp] theorem State.updCache_tmk (a : Nat) (f : Cache → Cache) : (s.updCache a f).tmk = s.tmk := rfl
@[simp] theorem State.updCache_tide (a : Nat) (f : Cache → Cache) : (s.updCache a f).tide = s.tide := rfl
@[simp] theorem State.updCache_vaults (a : Nat) (f : Cache → Cache) : (s.updCache a f).vaults = s.vaults := rfl
@[simp] theorem State.updCache_slab (a : Nat) (f : Cache → Cache) : (s.updCache a f).slab = s.slab := rfl
@[simp] theorem State.updCache_slabBad (a : Nat) (f : Cache → Cache) : (s.updCache a f).slabBad = s.slabBad := rfl
@[simp] theorem State.updCache_slabWait (a : Nat) (f : Cache → Cache) : (s.updCache a f).slabWait = s.slabWait := rfl
@[simp] theorem State.updCache_sbuf (a : Nat) (f : Cache → Cache) : (s.updCache a f).sbuf = s.sbuf := rfl
@[simp] theorem State.updCache_stack (a : Nat) (f : Cache → Cache) : (s.updCache a f).stack = s.stack := rfl
@[simp] theorem State.updCache_rat (a : Nat) (f : Cache → Cache) : (s.updCache a f).rat = s.rat := rfl
@[simp] theorem State.updCache_vwrInv (a : Nat) (f : Cache → Cache) : (s.updCache a f).vwrInv = s.vwrInv := rfl
@[simp] theorem State.updCache_strand (a : Nat) (f : Cache → Cache) : (s.updCache a f).strand = s.strand := rfl
@[simp] theorem State.updCache_msis (a : Nat) (f : Cache → Cache) : (s.updCache a f).msis = s.msis := rfl
@[simp] theorem State.updCache_samplers (a : Nat) (f : Cache → Cache) : (s.updCache a f).samplers = s.samplers := rfl
@[simp] theorem State.updCache_signals (a : Nat) (f : Cache → Cache) : (s.updCache a f).signals = s.signals := rfl
@[simp] theorem State.updCache_dieMode (a : Nat) (f : Cache → Cache) : (s.updCache a f).dieMode = s.dieMode := rfl
@[simp] theorem State.updCache_shelf (a : Nat) (f : Cache → Cache) : (s.updCache a f).shelf = s.shelf := rfl
@[simp] theorem State.updCache_shelfHits (a : Nat) (f : Cache → Cache) : (s.updCache a f).shelfHits = s.shelfHits := rfl
@[simp] theorem State.updCache_shelfRewrite (a : Nat) (f : Cache → Cache) : (s.updCache a f).shelfRewrite = s.shelfRewrite := rfl
@[simp] theorem State.updCache_remap (a : Nat) (f : Cache → Cache) : (s.updCache a f).remap = s.remap := rfl
@[simp] theorem State.updCache_spare (a : Nat) (f : Cache → Cache) : (s.updCache a f).spare = s.spare := rfl
@[simp] theorem State.updCache_tdl (a : Nat) (f : Cache → Cache) : (s.updCache a f).tdl = s.tdl := rfl
@[simp] theorem State.updCache_hostLines (a : Nat) (f : Cache → Cache) : (s.updCache a f).hostLines = s.hostLines := rfl
@[simp] theorem State.updCache_dir (a : Nat) (f : Cache → Cache) : (s.updCache a f).dir = s.dir := rfl
@[simp] theorem State.updCache_dirSram (a : Nat) (f : Cache → Cache) : (s.updCache a f).dirSram = s.dirSram := rfl
@[simp] theorem State.updCache_txns (a : Nat) (f : Cache → Cache) : (s.updCache a f).txns = s.txns := rfl
@[simp] theorem State.updCache_waitq (a : Nat) (f : Cache → Cache) : (s.updCache a f).waitq = s.waitq := rfl
@[simp] theorem State.updCache_net (a : Nat) (f : Cache → Cache) : (s.updCache a f).net = s.net := rfl
@[simp] theorem State.updCache_l1 (a : Nat) (f : Cache → Cache) : (s.updCache a f).l1 = s.l1 := rfl
@[simp] theorem State.updCache_mshrs (a : Nat) (f : Cache → Cache) : (s.updCache a f).mshrs = s.mshrs := rfl
@[simp] theorem State.updCache_harts (a : Nat) (f : Cache → Cache) : (s.updCache a f).harts = s.harts := rfl
@[simp] theorem State.updCache_imsic (a : Nat) (f : Cache → Cache) : (s.updCache a f).imsic = s.imsic := rfl
@[simp] theorem State.updCache_debugOn (a : Nat) (f : Cache → Cache) : (s.updCache a f).debugOn = s.debugOn := rfl
@[simp] theorem State.updCache_sweeps (a : Nat) (f : Cache → Cache) : (s.updCache a f).sweeps = s.sweeps := rfl
@[simp] theorem State.updCache_fab (a : Nat) (f : Cache → Cache) : (s.updCache a f).fab = s.fab := rfl
@[simp] theorem State.updCache_glz (a : Nat) (f : Cache → Cache) : (s.updCache a f).glz = s.glz := rfl
@[simp] theorem State.updCache_cmdEnds (a : Nat) (f : Cache → Cache) : (s.updCache a f).cmdEnds = s.cmdEnds := rfl
@[simp] theorem State.updCache_dmas (a : Nat) (f : Cache → Cache) : (s.updCache a f).dmas = s.dmas := rfl
@[simp] theorem State.updCache_dmaNo (a : Nat) (f : Cache → Cache) : (s.updCache a f).dmaNo = s.dmaNo := rfl
@[simp] theorem State.updCache_queueEnds (a : Nat) (f : Cache → Cache) : (s.updCache a f).queueEnds = s.queueEnds := rfl
@[simp] theorem State.updCache_links (a : Nat) (f : Cache → Cache) : (s.updCache a f).links = s.links := rfl
@[simp] theorem State.updCache_tidemark (a : Nat) (f : Cache → Cache) : (s.updCache a f).tidemark = s.tidemark := rfl
@[simp] theorem State.updCache_coll (a : Nat) (f : Cache → Cache) : (s.updCache a f).coll = s.coll := rfl
@[simp] theorem State.updCache_iommuGen (a : Nat) (f : Cache → Cache) : (s.updCache a f).iommuGen = s.iommuGen := rfl
@[simp] theorem State.updCache_iommus (a : Nat) (f : Cache → Cache) : (s.updCache a f).iommus = s.iommus := rfl
@[simp] theorem State.updCache_host (a : Nat) (f : Cache → Cache) : (s.updCache a f).host = s.host := rfl
@[simp] theorem State.updCache_ios (a : Nat) (f : Cache → Cache) : (s.updCache a f).ios = s.ios := rfl
@[simp] theorem State.updCache_hostWbs (a : Nat) (f : Cache → Cache) : (s.updCache a f).hostWbs = s.hostWbs := rfl
@[simp] theorem State.updCache_sites (a : Nat) (f : Cache → Cache) : (s.updCache a f).sites = s.sites := rfl
@[simp] theorem State.updCache_hq (a : Nat) (f : Cache → Cache) : (s.updCache a f).hq = s.hq := rfl
@[simp] theorem State.updCache_power (a : Nat) (f : Cache → Cache) : (s.updCache a f).power = s.power := rfl
@[simp] theorem State.updCache_lht (a : Nat) (f : Cache → Cache) : (s.updCache a f).lht = s.lht := rfl
@[simp] theorem State.updCache_i3c (a : Nat) (f : Cache → Cache) : (s.updCache a f).i3c = s.i3c := rfl
@[simp] theorem State.updCache_sberr (a : Nat) (f : Cache → Cache) : (s.updCache a f).sberr = s.sberr := rfl
@[simp] theorem State.updCache_alertN (a : Nat) (f : Cache → Cache) : (s.updCache a f).alertN = s.alertN := rfl
@[simp] theorem State.updCache_wires (a : Nat) (f : Cache → Cache) : (s.updCache a f).wires = s.wires := rfl

/-! ## `updFab` -/

@[simp] theorem State.updFab_pending (f : Fabric → Fabric) : (s.updFab f).pending = s.pending := rfl
@[simp] theorem State.updFab_regs (f : Fabric → Fabric) : (s.updFab f).regs = s.regs := rfl
@[simp] theorem State.updFab_now (f : Fabric → Fabric) : (s.updFab f).now = s.now := rfl
@[simp] theorem State.updFab_freeCtr (f : Fabric → Fabric) : (s.updFab f).freeCtr = s.freeCtr := rfl
@[simp] theorem State.updFab_errLog (f : Fabric → Fabric) : (s.updFab f).errLog = s.errLog := rfl
@[simp] theorem State.updFab_events (f : Fabric → Fabric) : (s.updFab f).events = s.events := rfl
@[simp] theorem State.updFab_out (f : Fabric → Fabric) : (s.updFab f).out = s.out := rfl
@[simp] theorem State.updFab_tmk (f : Fabric → Fabric) : (s.updFab f).tmk = s.tmk := rfl
@[simp] theorem State.updFab_tide (f : Fabric → Fabric) : (s.updFab f).tide = s.tide := rfl
@[simp] theorem State.updFab_vaults (f : Fabric → Fabric) : (s.updFab f).vaults = s.vaults := rfl
@[simp] theorem State.updFab_slab (f : Fabric → Fabric) : (s.updFab f).slab = s.slab := rfl
@[simp] theorem State.updFab_slabBad (f : Fabric → Fabric) : (s.updFab f).slabBad = s.slabBad := rfl
@[simp] theorem State.updFab_slabWait (f : Fabric → Fabric) : (s.updFab f).slabWait = s.slabWait := rfl
@[simp] theorem State.updFab_sbuf (f : Fabric → Fabric) : (s.updFab f).sbuf = s.sbuf := rfl
@[simp] theorem State.updFab_stack (f : Fabric → Fabric) : (s.updFab f).stack = s.stack := rfl
@[simp] theorem State.updFab_rat (f : Fabric → Fabric) : (s.updFab f).rat = s.rat := rfl
@[simp] theorem State.updFab_vwrInv (f : Fabric → Fabric) : (s.updFab f).vwrInv = s.vwrInv := rfl
@[simp] theorem State.updFab_strand (f : Fabric → Fabric) : (s.updFab f).strand = s.strand := rfl
@[simp] theorem State.updFab_msis (f : Fabric → Fabric) : (s.updFab f).msis = s.msis := rfl
@[simp] theorem State.updFab_samplers (f : Fabric → Fabric) : (s.updFab f).samplers = s.samplers := rfl
@[simp] theorem State.updFab_signals (f : Fabric → Fabric) : (s.updFab f).signals = s.signals := rfl
@[simp] theorem State.updFab_dieMode (f : Fabric → Fabric) : (s.updFab f).dieMode = s.dieMode := rfl
@[simp] theorem State.updFab_shelf (f : Fabric → Fabric) : (s.updFab f).shelf = s.shelf := rfl
@[simp] theorem State.updFab_shelfHits (f : Fabric → Fabric) : (s.updFab f).shelfHits = s.shelfHits := rfl
@[simp] theorem State.updFab_shelfRewrite (f : Fabric → Fabric) : (s.updFab f).shelfRewrite = s.shelfRewrite := rfl
@[simp] theorem State.updFab_remap (f : Fabric → Fabric) : (s.updFab f).remap = s.remap := rfl
@[simp] theorem State.updFab_spare (f : Fabric → Fabric) : (s.updFab f).spare = s.spare := rfl
@[simp] theorem State.updFab_tdl (f : Fabric → Fabric) : (s.updFab f).tdl = s.tdl := rfl
@[simp] theorem State.updFab_hostLines (f : Fabric → Fabric) : (s.updFab f).hostLines = s.hostLines := rfl
@[simp] theorem State.updFab_dir (f : Fabric → Fabric) : (s.updFab f).dir = s.dir := rfl
@[simp] theorem State.updFab_dirSram (f : Fabric → Fabric) : (s.updFab f).dirSram = s.dirSram := rfl
@[simp] theorem State.updFab_txns (f : Fabric → Fabric) : (s.updFab f).txns = s.txns := rfl
@[simp] theorem State.updFab_waitq (f : Fabric → Fabric) : (s.updFab f).waitq = s.waitq := rfl
@[simp] theorem State.updFab_net (f : Fabric → Fabric) : (s.updFab f).net = s.net := rfl
@[simp] theorem State.updFab_caches (f : Fabric → Fabric) : (s.updFab f).caches = s.caches := rfl
@[simp] theorem State.updFab_l1 (f : Fabric → Fabric) : (s.updFab f).l1 = s.l1 := rfl
@[simp] theorem State.updFab_mshrs (f : Fabric → Fabric) : (s.updFab f).mshrs = s.mshrs := rfl
@[simp] theorem State.updFab_harts (f : Fabric → Fabric) : (s.updFab f).harts = s.harts := rfl
@[simp] theorem State.updFab_imsic (f : Fabric → Fabric) : (s.updFab f).imsic = s.imsic := rfl
@[simp] theorem State.updFab_debugOn (f : Fabric → Fabric) : (s.updFab f).debugOn = s.debugOn := rfl
@[simp] theorem State.updFab_sweeps (f : Fabric → Fabric) : (s.updFab f).sweeps = s.sweeps := rfl
@[simp] theorem State.updFab_glz (f : Fabric → Fabric) : (s.updFab f).glz = s.glz := rfl
@[simp] theorem State.updFab_cmdEnds (f : Fabric → Fabric) : (s.updFab f).cmdEnds = s.cmdEnds := rfl
@[simp] theorem State.updFab_dmas (f : Fabric → Fabric) : (s.updFab f).dmas = s.dmas := rfl
@[simp] theorem State.updFab_dmaNo (f : Fabric → Fabric) : (s.updFab f).dmaNo = s.dmaNo := rfl
@[simp] theorem State.updFab_queueEnds (f : Fabric → Fabric) : (s.updFab f).queueEnds = s.queueEnds := rfl
@[simp] theorem State.updFab_links (f : Fabric → Fabric) : (s.updFab f).links = s.links := rfl
@[simp] theorem State.updFab_tidemark (f : Fabric → Fabric) : (s.updFab f).tidemark = s.tidemark := rfl
@[simp] theorem State.updFab_coll (f : Fabric → Fabric) : (s.updFab f).coll = s.coll := rfl
@[simp] theorem State.updFab_iommuGen (f : Fabric → Fabric) : (s.updFab f).iommuGen = s.iommuGen := rfl
@[simp] theorem State.updFab_iommus (f : Fabric → Fabric) : (s.updFab f).iommus = s.iommus := rfl
@[simp] theorem State.updFab_host (f : Fabric → Fabric) : (s.updFab f).host = s.host := rfl
@[simp] theorem State.updFab_ios (f : Fabric → Fabric) : (s.updFab f).ios = s.ios := rfl
@[simp] theorem State.updFab_hostWbs (f : Fabric → Fabric) : (s.updFab f).hostWbs = s.hostWbs := rfl
@[simp] theorem State.updFab_sites (f : Fabric → Fabric) : (s.updFab f).sites = s.sites := rfl
@[simp] theorem State.updFab_hq (f : Fabric → Fabric) : (s.updFab f).hq = s.hq := rfl
@[simp] theorem State.updFab_power (f : Fabric → Fabric) : (s.updFab f).power = s.power := rfl
@[simp] theorem State.updFab_lht (f : Fabric → Fabric) : (s.updFab f).lht = s.lht := rfl
@[simp] theorem State.updFab_i3c (f : Fabric → Fabric) : (s.updFab f).i3c = s.i3c := rfl
@[simp] theorem State.updFab_sberr (f : Fabric → Fabric) : (s.updFab f).sberr = s.sberr := rfl
@[simp] theorem State.updFab_alertN (f : Fabric → Fabric) : (s.updFab f).alertN = s.alertN := rfl
@[simp] theorem State.updFab_wires (f : Fabric → Fabric) : (s.updFab f).wires = s.wires := rfl

/-! ## `updPower` -/

@[simp] theorem State.updPower_pending (f : Power → Power) : (s.updPower f).pending = s.pending := rfl
@[simp] theorem State.updPower_regs (f : Power → Power) : (s.updPower f).regs = s.regs := rfl
@[simp] theorem State.updPower_now (f : Power → Power) : (s.updPower f).now = s.now := rfl
@[simp] theorem State.updPower_freeCtr (f : Power → Power) : (s.updPower f).freeCtr = s.freeCtr := rfl
@[simp] theorem State.updPower_errLog (f : Power → Power) : (s.updPower f).errLog = s.errLog := rfl
@[simp] theorem State.updPower_events (f : Power → Power) : (s.updPower f).events = s.events := rfl
@[simp] theorem State.updPower_out (f : Power → Power) : (s.updPower f).out = s.out := rfl
@[simp] theorem State.updPower_tmk (f : Power → Power) : (s.updPower f).tmk = s.tmk := rfl
@[simp] theorem State.updPower_tide (f : Power → Power) : (s.updPower f).tide = s.tide := rfl
@[simp] theorem State.updPower_vaults (f : Power → Power) : (s.updPower f).vaults = s.vaults := rfl
@[simp] theorem State.updPower_slab (f : Power → Power) : (s.updPower f).slab = s.slab := rfl
@[simp] theorem State.updPower_slabBad (f : Power → Power) : (s.updPower f).slabBad = s.slabBad := rfl
@[simp] theorem State.updPower_slabWait (f : Power → Power) : (s.updPower f).slabWait = s.slabWait := rfl
@[simp] theorem State.updPower_sbuf (f : Power → Power) : (s.updPower f).sbuf = s.sbuf := rfl
@[simp] theorem State.updPower_stack (f : Power → Power) : (s.updPower f).stack = s.stack := rfl
@[simp] theorem State.updPower_rat (f : Power → Power) : (s.updPower f).rat = s.rat := rfl
@[simp] theorem State.updPower_vwrInv (f : Power → Power) : (s.updPower f).vwrInv = s.vwrInv := rfl
@[simp] theorem State.updPower_strand (f : Power → Power) : (s.updPower f).strand = s.strand := rfl
@[simp] theorem State.updPower_msis (f : Power → Power) : (s.updPower f).msis = s.msis := rfl
@[simp] theorem State.updPower_samplers (f : Power → Power) : (s.updPower f).samplers = s.samplers := rfl
@[simp] theorem State.updPower_signals (f : Power → Power) : (s.updPower f).signals = s.signals := rfl
@[simp] theorem State.updPower_dieMode (f : Power → Power) : (s.updPower f).dieMode = s.dieMode := rfl
@[simp] theorem State.updPower_shelf (f : Power → Power) : (s.updPower f).shelf = s.shelf := rfl
@[simp] theorem State.updPower_shelfHits (f : Power → Power) : (s.updPower f).shelfHits = s.shelfHits := rfl
@[simp] theorem State.updPower_shelfRewrite (f : Power → Power) : (s.updPower f).shelfRewrite = s.shelfRewrite := rfl
@[simp] theorem State.updPower_remap (f : Power → Power) : (s.updPower f).remap = s.remap := rfl
@[simp] theorem State.updPower_spare (f : Power → Power) : (s.updPower f).spare = s.spare := rfl
@[simp] theorem State.updPower_tdl (f : Power → Power) : (s.updPower f).tdl = s.tdl := rfl
@[simp] theorem State.updPower_hostLines (f : Power → Power) : (s.updPower f).hostLines = s.hostLines := rfl
@[simp] theorem State.updPower_dir (f : Power → Power) : (s.updPower f).dir = s.dir := rfl
@[simp] theorem State.updPower_dirSram (f : Power → Power) : (s.updPower f).dirSram = s.dirSram := rfl
@[simp] theorem State.updPower_txns (f : Power → Power) : (s.updPower f).txns = s.txns := rfl
@[simp] theorem State.updPower_waitq (f : Power → Power) : (s.updPower f).waitq = s.waitq := rfl
@[simp] theorem State.updPower_net (f : Power → Power) : (s.updPower f).net = s.net := rfl
@[simp] theorem State.updPower_caches (f : Power → Power) : (s.updPower f).caches = s.caches := rfl
@[simp] theorem State.updPower_l1 (f : Power → Power) : (s.updPower f).l1 = s.l1 := rfl
@[simp] theorem State.updPower_mshrs (f : Power → Power) : (s.updPower f).mshrs = s.mshrs := rfl
@[simp] theorem State.updPower_harts (f : Power → Power) : (s.updPower f).harts = s.harts := rfl
@[simp] theorem State.updPower_imsic (f : Power → Power) : (s.updPower f).imsic = s.imsic := rfl
@[simp] theorem State.updPower_debugOn (f : Power → Power) : (s.updPower f).debugOn = s.debugOn := rfl
@[simp] theorem State.updPower_sweeps (f : Power → Power) : (s.updPower f).sweeps = s.sweeps := rfl
@[simp] theorem State.updPower_fab (f : Power → Power) : (s.updPower f).fab = s.fab := rfl
@[simp] theorem State.updPower_glz (f : Power → Power) : (s.updPower f).glz = s.glz := rfl
@[simp] theorem State.updPower_cmdEnds (f : Power → Power) : (s.updPower f).cmdEnds = s.cmdEnds := rfl
@[simp] theorem State.updPower_dmas (f : Power → Power) : (s.updPower f).dmas = s.dmas := rfl
@[simp] theorem State.updPower_dmaNo (f : Power → Power) : (s.updPower f).dmaNo = s.dmaNo := rfl
@[simp] theorem State.updPower_queueEnds (f : Power → Power) : (s.updPower f).queueEnds = s.queueEnds := rfl
@[simp] theorem State.updPower_links (f : Power → Power) : (s.updPower f).links = s.links := rfl
@[simp] theorem State.updPower_tidemark (f : Power → Power) : (s.updPower f).tidemark = s.tidemark := rfl
@[simp] theorem State.updPower_coll (f : Power → Power) : (s.updPower f).coll = s.coll := rfl
@[simp] theorem State.updPower_iommuGen (f : Power → Power) : (s.updPower f).iommuGen = s.iommuGen := rfl
@[simp] theorem State.updPower_iommus (f : Power → Power) : (s.updPower f).iommus = s.iommus := rfl
@[simp] theorem State.updPower_host (f : Power → Power) : (s.updPower f).host = s.host := rfl
@[simp] theorem State.updPower_ios (f : Power → Power) : (s.updPower f).ios = s.ios := rfl
@[simp] theorem State.updPower_hostWbs (f : Power → Power) : (s.updPower f).hostWbs = s.hostWbs := rfl
@[simp] theorem State.updPower_sites (f : Power → Power) : (s.updPower f).sites = s.sites := rfl
@[simp] theorem State.updPower_hq (f : Power → Power) : (s.updPower f).hq = s.hq := rfl
@[simp] theorem State.updPower_lht (f : Power → Power) : (s.updPower f).lht = s.lht := rfl
@[simp] theorem State.updPower_i3c (f : Power → Power) : (s.updPower f).i3c = s.i3c := rfl
@[simp] theorem State.updPower_sberr (f : Power → Power) : (s.updPower f).sberr = s.sberr := rfl
@[simp] theorem State.updPower_alertN (f : Power → Power) : (s.updPower f).alertN = s.alertN := rfl
@[simp] theorem State.updPower_wires (f : Power → Power) : (s.updPower f).wires = s.wires := rfl

/-! ## `updHost` -/

@[simp] theorem State.updHost_pending (q : Nat) (f : HostPort → HostPort) : (s.updHost q f).pending = s.pending := rfl
@[simp] theorem State.updHost_regs (q : Nat) (f : HostPort → HostPort) : (s.updHost q f).regs = s.regs := rfl
@[simp] theorem State.updHost_now (q : Nat) (f : HostPort → HostPort) : (s.updHost q f).now = s.now := rfl
@[simp] theorem State.updHost_freeCtr (q : Nat) (f : HostPort → HostPort) : (s.updHost q f).freeCtr = s.freeCtr := rfl
@[simp] theorem State.updHost_errLog (q : Nat) (f : HostPort → HostPort) : (s.updHost q f).errLog = s.errLog := rfl
@[simp] theorem State.updHost_events (q : Nat) (f : HostPort → HostPort) : (s.updHost q f).events = s.events := rfl
@[simp] theorem State.updHost_out (q : Nat) (f : HostPort → HostPort) : (s.updHost q f).out = s.out := rfl
@[simp] theorem State.updHost_tmk (q : Nat) (f : HostPort → HostPort) : (s.updHost q f).tmk = s.tmk := rfl
@[simp] theorem State.updHost_tide (q : Nat) (f : HostPort → HostPort) : (s.updHost q f).tide = s.tide := rfl
@[simp] theorem State.updHost_vaults (q : Nat) (f : HostPort → HostPort) : (s.updHost q f).vaults = s.vaults := rfl
@[simp] theorem State.updHost_slab (q : Nat) (f : HostPort → HostPort) : (s.updHost q f).slab = s.slab := rfl
@[simp] theorem State.updHost_slabBad (q : Nat) (f : HostPort → HostPort) : (s.updHost q f).slabBad = s.slabBad := rfl
@[simp] theorem State.updHost_slabWait (q : Nat) (f : HostPort → HostPort) : (s.updHost q f).slabWait = s.slabWait := rfl
@[simp] theorem State.updHost_sbuf (q : Nat) (f : HostPort → HostPort) : (s.updHost q f).sbuf = s.sbuf := rfl
@[simp] theorem State.updHost_stack (q : Nat) (f : HostPort → HostPort) : (s.updHost q f).stack = s.stack := rfl
@[simp] theorem State.updHost_rat (q : Nat) (f : HostPort → HostPort) : (s.updHost q f).rat = s.rat := rfl
@[simp] theorem State.updHost_vwrInv (q : Nat) (f : HostPort → HostPort) : (s.updHost q f).vwrInv = s.vwrInv := rfl
@[simp] theorem State.updHost_strand (q : Nat) (f : HostPort → HostPort) : (s.updHost q f).strand = s.strand := rfl
@[simp] theorem State.updHost_msis (q : Nat) (f : HostPort → HostPort) : (s.updHost q f).msis = s.msis := rfl
@[simp] theorem State.updHost_samplers (q : Nat) (f : HostPort → HostPort) : (s.updHost q f).samplers = s.samplers := rfl
@[simp] theorem State.updHost_signals (q : Nat) (f : HostPort → HostPort) : (s.updHost q f).signals = s.signals := rfl
@[simp] theorem State.updHost_dieMode (q : Nat) (f : HostPort → HostPort) : (s.updHost q f).dieMode = s.dieMode := rfl
@[simp] theorem State.updHost_shelf (q : Nat) (f : HostPort → HostPort) : (s.updHost q f).shelf = s.shelf := rfl
@[simp] theorem State.updHost_shelfHits (q : Nat) (f : HostPort → HostPort) : (s.updHost q f).shelfHits = s.shelfHits := rfl
@[simp] theorem State.updHost_shelfRewrite (q : Nat) (f : HostPort → HostPort) : (s.updHost q f).shelfRewrite = s.shelfRewrite := rfl
@[simp] theorem State.updHost_remap (q : Nat) (f : HostPort → HostPort) : (s.updHost q f).remap = s.remap := rfl
@[simp] theorem State.updHost_spare (q : Nat) (f : HostPort → HostPort) : (s.updHost q f).spare = s.spare := rfl
@[simp] theorem State.updHost_tdl (q : Nat) (f : HostPort → HostPort) : (s.updHost q f).tdl = s.tdl := rfl
@[simp] theorem State.updHost_hostLines (q : Nat) (f : HostPort → HostPort) : (s.updHost q f).hostLines = s.hostLines := rfl
@[simp] theorem State.updHost_dir (q : Nat) (f : HostPort → HostPort) : (s.updHost q f).dir = s.dir := rfl
@[simp] theorem State.updHost_dirSram (q : Nat) (f : HostPort → HostPort) : (s.updHost q f).dirSram = s.dirSram := rfl
@[simp] theorem State.updHost_txns (q : Nat) (f : HostPort → HostPort) : (s.updHost q f).txns = s.txns := rfl
@[simp] theorem State.updHost_waitq (q : Nat) (f : HostPort → HostPort) : (s.updHost q f).waitq = s.waitq := rfl
@[simp] theorem State.updHost_net (q : Nat) (f : HostPort → HostPort) : (s.updHost q f).net = s.net := rfl
@[simp] theorem State.updHost_caches (q : Nat) (f : HostPort → HostPort) : (s.updHost q f).caches = s.caches := rfl
@[simp] theorem State.updHost_l1 (q : Nat) (f : HostPort → HostPort) : (s.updHost q f).l1 = s.l1 := rfl
@[simp] theorem State.updHost_mshrs (q : Nat) (f : HostPort → HostPort) : (s.updHost q f).mshrs = s.mshrs := rfl
@[simp] theorem State.updHost_harts (q : Nat) (f : HostPort → HostPort) : (s.updHost q f).harts = s.harts := rfl
@[simp] theorem State.updHost_imsic (q : Nat) (f : HostPort → HostPort) : (s.updHost q f).imsic = s.imsic := rfl
@[simp] theorem State.updHost_debugOn (q : Nat) (f : HostPort → HostPort) : (s.updHost q f).debugOn = s.debugOn := rfl
@[simp] theorem State.updHost_sweeps (q : Nat) (f : HostPort → HostPort) : (s.updHost q f).sweeps = s.sweeps := rfl
@[simp] theorem State.updHost_fab (q : Nat) (f : HostPort → HostPort) : (s.updHost q f).fab = s.fab := rfl
@[simp] theorem State.updHost_glz (q : Nat) (f : HostPort → HostPort) : (s.updHost q f).glz = s.glz := rfl
@[simp] theorem State.updHost_cmdEnds (q : Nat) (f : HostPort → HostPort) : (s.updHost q f).cmdEnds = s.cmdEnds := rfl
@[simp] theorem State.updHost_dmas (q : Nat) (f : HostPort → HostPort) : (s.updHost q f).dmas = s.dmas := rfl
@[simp] theorem State.updHost_dmaNo (q : Nat) (f : HostPort → HostPort) : (s.updHost q f).dmaNo = s.dmaNo := rfl
@[simp] theorem State.updHost_queueEnds (q : Nat) (f : HostPort → HostPort) : (s.updHost q f).queueEnds = s.queueEnds := rfl
@[simp] theorem State.updHost_links (q : Nat) (f : HostPort → HostPort) : (s.updHost q f).links = s.links := rfl
@[simp] theorem State.updHost_tidemark (q : Nat) (f : HostPort → HostPort) : (s.updHost q f).tidemark = s.tidemark := rfl
@[simp] theorem State.updHost_coll (q : Nat) (f : HostPort → HostPort) : (s.updHost q f).coll = s.coll := rfl
@[simp] theorem State.updHost_iommuGen (q : Nat) (f : HostPort → HostPort) : (s.updHost q f).iommuGen = s.iommuGen := rfl
@[simp] theorem State.updHost_iommus (q : Nat) (f : HostPort → HostPort) : (s.updHost q f).iommus = s.iommus := rfl
@[simp] theorem State.updHost_ios (q : Nat) (f : HostPort → HostPort) : (s.updHost q f).ios = s.ios := rfl
@[simp] theorem State.updHost_hostWbs (q : Nat) (f : HostPort → HostPort) : (s.updHost q f).hostWbs = s.hostWbs := rfl
@[simp] theorem State.updHost_sites (q : Nat) (f : HostPort → HostPort) : (s.updHost q f).sites = s.sites := rfl
@[simp] theorem State.updHost_hq (q : Nat) (f : HostPort → HostPort) : (s.updHost q f).hq = s.hq := rfl
@[simp] theorem State.updHost_power (q : Nat) (f : HostPort → HostPort) : (s.updHost q f).power = s.power := rfl
@[simp] theorem State.updHost_lht (q : Nat) (f : HostPort → HostPort) : (s.updHost q f).lht = s.lht := rfl
@[simp] theorem State.updHost_i3c (q : Nat) (f : HostPort → HostPort) : (s.updHost q f).i3c = s.i3c := rfl
@[simp] theorem State.updHost_sberr (q : Nat) (f : HostPort → HostPort) : (s.updHost q f).sberr = s.sberr := rfl
@[simp] theorem State.updHost_alertN (q : Nat) (f : HostPort → HostPort) : (s.updHost q f).alertN = s.alertN := rfl
@[simp] theorem State.updHost_wires (q : Nat) (f : HostPort → HostPort) : (s.updHost q f).wires = s.wires := rfl

/-! ## `updColl` -/

@[simp] theorem State.updColl_pending (f : Coll → Coll) : (s.updColl f).pending = s.pending := rfl
@[simp] theorem State.updColl_regs (f : Coll → Coll) : (s.updColl f).regs = s.regs := rfl
@[simp] theorem State.updColl_now (f : Coll → Coll) : (s.updColl f).now = s.now := rfl
@[simp] theorem State.updColl_freeCtr (f : Coll → Coll) : (s.updColl f).freeCtr = s.freeCtr := rfl
@[simp] theorem State.updColl_errLog (f : Coll → Coll) : (s.updColl f).errLog = s.errLog := rfl
@[simp] theorem State.updColl_events (f : Coll → Coll) : (s.updColl f).events = s.events := rfl
@[simp] theorem State.updColl_out (f : Coll → Coll) : (s.updColl f).out = s.out := rfl
@[simp] theorem State.updColl_tmk (f : Coll → Coll) : (s.updColl f).tmk = s.tmk := rfl
@[simp] theorem State.updColl_tide (f : Coll → Coll) : (s.updColl f).tide = s.tide := rfl
@[simp] theorem State.updColl_vaults (f : Coll → Coll) : (s.updColl f).vaults = s.vaults := rfl
@[simp] theorem State.updColl_slab (f : Coll → Coll) : (s.updColl f).slab = s.slab := rfl
@[simp] theorem State.updColl_slabBad (f : Coll → Coll) : (s.updColl f).slabBad = s.slabBad := rfl
@[simp] theorem State.updColl_slabWait (f : Coll → Coll) : (s.updColl f).slabWait = s.slabWait := rfl
@[simp] theorem State.updColl_sbuf (f : Coll → Coll) : (s.updColl f).sbuf = s.sbuf := rfl
@[simp] theorem State.updColl_stack (f : Coll → Coll) : (s.updColl f).stack = s.stack := rfl
@[simp] theorem State.updColl_rat (f : Coll → Coll) : (s.updColl f).rat = s.rat := rfl
@[simp] theorem State.updColl_vwrInv (f : Coll → Coll) : (s.updColl f).vwrInv = s.vwrInv := rfl
@[simp] theorem State.updColl_strand (f : Coll → Coll) : (s.updColl f).strand = s.strand := rfl
@[simp] theorem State.updColl_msis (f : Coll → Coll) : (s.updColl f).msis = s.msis := rfl
@[simp] theorem State.updColl_samplers (f : Coll → Coll) : (s.updColl f).samplers = s.samplers := rfl
@[simp] theorem State.updColl_signals (f : Coll → Coll) : (s.updColl f).signals = s.signals := rfl
@[simp] theorem State.updColl_dieMode (f : Coll → Coll) : (s.updColl f).dieMode = s.dieMode := rfl
@[simp] theorem State.updColl_shelf (f : Coll → Coll) : (s.updColl f).shelf = s.shelf := rfl
@[simp] theorem State.updColl_shelfHits (f : Coll → Coll) : (s.updColl f).shelfHits = s.shelfHits := rfl
@[simp] theorem State.updColl_shelfRewrite (f : Coll → Coll) : (s.updColl f).shelfRewrite = s.shelfRewrite := rfl
@[simp] theorem State.updColl_remap (f : Coll → Coll) : (s.updColl f).remap = s.remap := rfl
@[simp] theorem State.updColl_spare (f : Coll → Coll) : (s.updColl f).spare = s.spare := rfl
@[simp] theorem State.updColl_tdl (f : Coll → Coll) : (s.updColl f).tdl = s.tdl := rfl
@[simp] theorem State.updColl_hostLines (f : Coll → Coll) : (s.updColl f).hostLines = s.hostLines := rfl
@[simp] theorem State.updColl_dir (f : Coll → Coll) : (s.updColl f).dir = s.dir := rfl
@[simp] theorem State.updColl_dirSram (f : Coll → Coll) : (s.updColl f).dirSram = s.dirSram := rfl
@[simp] theorem State.updColl_txns (f : Coll → Coll) : (s.updColl f).txns = s.txns := rfl
@[simp] theorem State.updColl_waitq (f : Coll → Coll) : (s.updColl f).waitq = s.waitq := rfl
@[simp] theorem State.updColl_net (f : Coll → Coll) : (s.updColl f).net = s.net := rfl
@[simp] theorem State.updColl_caches (f : Coll → Coll) : (s.updColl f).caches = s.caches := rfl
@[simp] theorem State.updColl_l1 (f : Coll → Coll) : (s.updColl f).l1 = s.l1 := rfl
@[simp] theorem State.updColl_mshrs (f : Coll → Coll) : (s.updColl f).mshrs = s.mshrs := rfl
@[simp] theorem State.updColl_harts (f : Coll → Coll) : (s.updColl f).harts = s.harts := rfl
@[simp] theorem State.updColl_imsic (f : Coll → Coll) : (s.updColl f).imsic = s.imsic := rfl
@[simp] theorem State.updColl_debugOn (f : Coll → Coll) : (s.updColl f).debugOn = s.debugOn := rfl
@[simp] theorem State.updColl_sweeps (f : Coll → Coll) : (s.updColl f).sweeps = s.sweeps := rfl
@[simp] theorem State.updColl_fab (f : Coll → Coll) : (s.updColl f).fab = s.fab := rfl
@[simp] theorem State.updColl_glz (f : Coll → Coll) : (s.updColl f).glz = s.glz := rfl
@[simp] theorem State.updColl_cmdEnds (f : Coll → Coll) : (s.updColl f).cmdEnds = s.cmdEnds := rfl
@[simp] theorem State.updColl_dmas (f : Coll → Coll) : (s.updColl f).dmas = s.dmas := rfl
@[simp] theorem State.updColl_dmaNo (f : Coll → Coll) : (s.updColl f).dmaNo = s.dmaNo := rfl
@[simp] theorem State.updColl_queueEnds (f : Coll → Coll) : (s.updColl f).queueEnds = s.queueEnds := rfl
@[simp] theorem State.updColl_links (f : Coll → Coll) : (s.updColl f).links = s.links := rfl
@[simp] theorem State.updColl_tidemark (f : Coll → Coll) : (s.updColl f).tidemark = s.tidemark := rfl
@[simp] theorem State.updColl_iommuGen (f : Coll → Coll) : (s.updColl f).iommuGen = s.iommuGen := rfl
@[simp] theorem State.updColl_iommus (f : Coll → Coll) : (s.updColl f).iommus = s.iommus := rfl
@[simp] theorem State.updColl_host (f : Coll → Coll) : (s.updColl f).host = s.host := rfl
@[simp] theorem State.updColl_ios (f : Coll → Coll) : (s.updColl f).ios = s.ios := rfl
@[simp] theorem State.updColl_hostWbs (f : Coll → Coll) : (s.updColl f).hostWbs = s.hostWbs := rfl
@[simp] theorem State.updColl_sites (f : Coll → Coll) : (s.updColl f).sites = s.sites := rfl
@[simp] theorem State.updColl_hq (f : Coll → Coll) : (s.updColl f).hq = s.hq := rfl
@[simp] theorem State.updColl_power (f : Coll → Coll) : (s.updColl f).power = s.power := rfl
@[simp] theorem State.updColl_lht (f : Coll → Coll) : (s.updColl f).lht = s.lht := rfl
@[simp] theorem State.updColl_i3c (f : Coll → Coll) : (s.updColl f).i3c = s.i3c := rfl
@[simp] theorem State.updColl_sberr (f : Coll → Coll) : (s.updColl f).sberr = s.sberr := rfl
@[simp] theorem State.updColl_alertN (f : Coll → Coll) : (s.updColl f).alertN = s.alertN := rfl
@[simp] theorem State.updColl_wires (f : Coll → Coll) : (s.updColl f).wires = s.wires := rfl

/-! ## `fsets` -/

@[simp] theorem State.fsets_pending (die : Nat) (fs : List (FieldRef × Nat)) : (s.fsets die fs).pending = s.pending := by
  induction fs generalizing s with
  | nil => rfl
  | cons x fs ih => exact ih (s.fset die x.1 x.2)
@[simp] theorem State.fsets_now (die : Nat) (fs : List (FieldRef × Nat)) : (s.fsets die fs).now = s.now := by
  induction fs generalizing s with
  | nil => rfl
  | cons x fs ih => exact ih (s.fset die x.1 x.2)
@[simp] theorem State.fsets_freeCtr (die : Nat) (fs : List (FieldRef × Nat)) : (s.fsets die fs).freeCtr = s.freeCtr := by
  induction fs generalizing s with
  | nil => rfl
  | cons x fs ih => exact ih (s.fset die x.1 x.2)
@[simp] theorem State.fsets_errLog (die : Nat) (fs : List (FieldRef × Nat)) : (s.fsets die fs).errLog = s.errLog := by
  induction fs generalizing s with
  | nil => rfl
  | cons x fs ih => exact ih (s.fset die x.1 x.2)
@[simp] theorem State.fsets_events (die : Nat) (fs : List (FieldRef × Nat)) : (s.fsets die fs).events = s.events := by
  induction fs generalizing s with
  | nil => rfl
  | cons x fs ih => exact ih (s.fset die x.1 x.2)
@[simp] theorem State.fsets_out (die : Nat) (fs : List (FieldRef × Nat)) : (s.fsets die fs).out = s.out := by
  induction fs generalizing s with
  | nil => rfl
  | cons x fs ih => exact ih (s.fset die x.1 x.2)
@[simp] theorem State.fsets_tmk (die : Nat) (fs : List (FieldRef × Nat)) : (s.fsets die fs).tmk = s.tmk := by
  induction fs generalizing s with
  | nil => rfl
  | cons x fs ih => exact ih (s.fset die x.1 x.2)
@[simp] theorem State.fsets_tide (die : Nat) (fs : List (FieldRef × Nat)) : (s.fsets die fs).tide = s.tide := by
  induction fs generalizing s with
  | nil => rfl
  | cons x fs ih => exact ih (s.fset die x.1 x.2)
@[simp] theorem State.fsets_vaults (die : Nat) (fs : List (FieldRef × Nat)) : (s.fsets die fs).vaults = s.vaults := by
  induction fs generalizing s with
  | nil => rfl
  | cons x fs ih => exact ih (s.fset die x.1 x.2)
@[simp] theorem State.fsets_slab (die : Nat) (fs : List (FieldRef × Nat)) : (s.fsets die fs).slab = s.slab := by
  induction fs generalizing s with
  | nil => rfl
  | cons x fs ih => exact ih (s.fset die x.1 x.2)
@[simp] theorem State.fsets_slabBad (die : Nat) (fs : List (FieldRef × Nat)) : (s.fsets die fs).slabBad = s.slabBad := by
  induction fs generalizing s with
  | nil => rfl
  | cons x fs ih => exact ih (s.fset die x.1 x.2)
@[simp] theorem State.fsets_slabWait (die : Nat) (fs : List (FieldRef × Nat)) : (s.fsets die fs).slabWait = s.slabWait := by
  induction fs generalizing s with
  | nil => rfl
  | cons x fs ih => exact ih (s.fset die x.1 x.2)
@[simp] theorem State.fsets_sbuf (die : Nat) (fs : List (FieldRef × Nat)) : (s.fsets die fs).sbuf = s.sbuf := by
  induction fs generalizing s with
  | nil => rfl
  | cons x fs ih => exact ih (s.fset die x.1 x.2)
@[simp] theorem State.fsets_stack (die : Nat) (fs : List (FieldRef × Nat)) : (s.fsets die fs).stack = s.stack := by
  induction fs generalizing s with
  | nil => rfl
  | cons x fs ih => exact ih (s.fset die x.1 x.2)
@[simp] theorem State.fsets_rat (die : Nat) (fs : List (FieldRef × Nat)) : (s.fsets die fs).rat = s.rat := by
  induction fs generalizing s with
  | nil => rfl
  | cons x fs ih => exact ih (s.fset die x.1 x.2)
@[simp] theorem State.fsets_vwrInv (die : Nat) (fs : List (FieldRef × Nat)) : (s.fsets die fs).vwrInv = s.vwrInv := by
  induction fs generalizing s with
  | nil => rfl
  | cons x fs ih => exact ih (s.fset die x.1 x.2)
@[simp] theorem State.fsets_strand (die : Nat) (fs : List (FieldRef × Nat)) : (s.fsets die fs).strand = s.strand := by
  induction fs generalizing s with
  | nil => rfl
  | cons x fs ih => exact ih (s.fset die x.1 x.2)
@[simp] theorem State.fsets_msis (die : Nat) (fs : List (FieldRef × Nat)) : (s.fsets die fs).msis = s.msis := by
  induction fs generalizing s with
  | nil => rfl
  | cons x fs ih => exact ih (s.fset die x.1 x.2)
@[simp] theorem State.fsets_samplers (die : Nat) (fs : List (FieldRef × Nat)) : (s.fsets die fs).samplers = s.samplers := by
  induction fs generalizing s with
  | nil => rfl
  | cons x fs ih => exact ih (s.fset die x.1 x.2)
@[simp] theorem State.fsets_signals (die : Nat) (fs : List (FieldRef × Nat)) : (s.fsets die fs).signals = s.signals := by
  induction fs generalizing s with
  | nil => rfl
  | cons x fs ih => exact ih (s.fset die x.1 x.2)
@[simp] theorem State.fsets_dieMode (die : Nat) (fs : List (FieldRef × Nat)) : (s.fsets die fs).dieMode = s.dieMode := by
  induction fs generalizing s with
  | nil => rfl
  | cons x fs ih => exact ih (s.fset die x.1 x.2)
@[simp] theorem State.fsets_shelf (die : Nat) (fs : List (FieldRef × Nat)) : (s.fsets die fs).shelf = s.shelf := by
  induction fs generalizing s with
  | nil => rfl
  | cons x fs ih => exact ih (s.fset die x.1 x.2)
@[simp] theorem State.fsets_shelfHits (die : Nat) (fs : List (FieldRef × Nat)) : (s.fsets die fs).shelfHits = s.shelfHits := by
  induction fs generalizing s with
  | nil => rfl
  | cons x fs ih => exact ih (s.fset die x.1 x.2)
@[simp] theorem State.fsets_shelfRewrite (die : Nat) (fs : List (FieldRef × Nat)) : (s.fsets die fs).shelfRewrite = s.shelfRewrite := by
  induction fs generalizing s with
  | nil => rfl
  | cons x fs ih => exact ih (s.fset die x.1 x.2)
@[simp] theorem State.fsets_remap (die : Nat) (fs : List (FieldRef × Nat)) : (s.fsets die fs).remap = s.remap := by
  induction fs generalizing s with
  | nil => rfl
  | cons x fs ih => exact ih (s.fset die x.1 x.2)
@[simp] theorem State.fsets_spare (die : Nat) (fs : List (FieldRef × Nat)) : (s.fsets die fs).spare = s.spare := by
  induction fs generalizing s with
  | nil => rfl
  | cons x fs ih => exact ih (s.fset die x.1 x.2)
@[simp] theorem State.fsets_tdl (die : Nat) (fs : List (FieldRef × Nat)) : (s.fsets die fs).tdl = s.tdl := by
  induction fs generalizing s with
  | nil => rfl
  | cons x fs ih => exact ih (s.fset die x.1 x.2)
@[simp] theorem State.fsets_hostLines (die : Nat) (fs : List (FieldRef × Nat)) : (s.fsets die fs).hostLines = s.hostLines := by
  induction fs generalizing s with
  | nil => rfl
  | cons x fs ih => exact ih (s.fset die x.1 x.2)
@[simp] theorem State.fsets_dir (die : Nat) (fs : List (FieldRef × Nat)) : (s.fsets die fs).dir = s.dir := by
  induction fs generalizing s with
  | nil => rfl
  | cons x fs ih => exact ih (s.fset die x.1 x.2)
@[simp] theorem State.fsets_dirSram (die : Nat) (fs : List (FieldRef × Nat)) : (s.fsets die fs).dirSram = s.dirSram := by
  induction fs generalizing s with
  | nil => rfl
  | cons x fs ih => exact ih (s.fset die x.1 x.2)
@[simp] theorem State.fsets_txns (die : Nat) (fs : List (FieldRef × Nat)) : (s.fsets die fs).txns = s.txns := by
  induction fs generalizing s with
  | nil => rfl
  | cons x fs ih => exact ih (s.fset die x.1 x.2)
@[simp] theorem State.fsets_waitq (die : Nat) (fs : List (FieldRef × Nat)) : (s.fsets die fs).waitq = s.waitq := by
  induction fs generalizing s with
  | nil => rfl
  | cons x fs ih => exact ih (s.fset die x.1 x.2)
@[simp] theorem State.fsets_net (die : Nat) (fs : List (FieldRef × Nat)) : (s.fsets die fs).net = s.net := by
  induction fs generalizing s with
  | nil => rfl
  | cons x fs ih => exact ih (s.fset die x.1 x.2)
@[simp] theorem State.fsets_caches (die : Nat) (fs : List (FieldRef × Nat)) : (s.fsets die fs).caches = s.caches := by
  induction fs generalizing s with
  | nil => rfl
  | cons x fs ih => exact ih (s.fset die x.1 x.2)
@[simp] theorem State.fsets_l1 (die : Nat) (fs : List (FieldRef × Nat)) : (s.fsets die fs).l1 = s.l1 := by
  induction fs generalizing s with
  | nil => rfl
  | cons x fs ih => exact ih (s.fset die x.1 x.2)
@[simp] theorem State.fsets_mshrs (die : Nat) (fs : List (FieldRef × Nat)) : (s.fsets die fs).mshrs = s.mshrs := by
  induction fs generalizing s with
  | nil => rfl
  | cons x fs ih => exact ih (s.fset die x.1 x.2)
@[simp] theorem State.fsets_harts (die : Nat) (fs : List (FieldRef × Nat)) : (s.fsets die fs).harts = s.harts := by
  induction fs generalizing s with
  | nil => rfl
  | cons x fs ih => exact ih (s.fset die x.1 x.2)
@[simp] theorem State.fsets_imsic (die : Nat) (fs : List (FieldRef × Nat)) : (s.fsets die fs).imsic = s.imsic := by
  induction fs generalizing s with
  | nil => rfl
  | cons x fs ih => exact ih (s.fset die x.1 x.2)
@[simp] theorem State.fsets_debugOn (die : Nat) (fs : List (FieldRef × Nat)) : (s.fsets die fs).debugOn = s.debugOn := by
  induction fs generalizing s with
  | nil => rfl
  | cons x fs ih => exact ih (s.fset die x.1 x.2)
@[simp] theorem State.fsets_sweeps (die : Nat) (fs : List (FieldRef × Nat)) : (s.fsets die fs).sweeps = s.sweeps := by
  induction fs generalizing s with
  | nil => rfl
  | cons x fs ih => exact ih (s.fset die x.1 x.2)
@[simp] theorem State.fsets_fab (die : Nat) (fs : List (FieldRef × Nat)) : (s.fsets die fs).fab = s.fab := by
  induction fs generalizing s with
  | nil => rfl
  | cons x fs ih => exact ih (s.fset die x.1 x.2)
@[simp] theorem State.fsets_glz (die : Nat) (fs : List (FieldRef × Nat)) : (s.fsets die fs).glz = s.glz := by
  induction fs generalizing s with
  | nil => rfl
  | cons x fs ih => exact ih (s.fset die x.1 x.2)
@[simp] theorem State.fsets_cmdEnds (die : Nat) (fs : List (FieldRef × Nat)) : (s.fsets die fs).cmdEnds = s.cmdEnds := by
  induction fs generalizing s with
  | nil => rfl
  | cons x fs ih => exact ih (s.fset die x.1 x.2)
@[simp] theorem State.fsets_dmas (die : Nat) (fs : List (FieldRef × Nat)) : (s.fsets die fs).dmas = s.dmas := by
  induction fs generalizing s with
  | nil => rfl
  | cons x fs ih => exact ih (s.fset die x.1 x.2)
@[simp] theorem State.fsets_dmaNo (die : Nat) (fs : List (FieldRef × Nat)) : (s.fsets die fs).dmaNo = s.dmaNo := by
  induction fs generalizing s with
  | nil => rfl
  | cons x fs ih => exact ih (s.fset die x.1 x.2)
@[simp] theorem State.fsets_queueEnds (die : Nat) (fs : List (FieldRef × Nat)) : (s.fsets die fs).queueEnds = s.queueEnds := by
  induction fs generalizing s with
  | nil => rfl
  | cons x fs ih => exact ih (s.fset die x.1 x.2)
@[simp] theorem State.fsets_links (die : Nat) (fs : List (FieldRef × Nat)) : (s.fsets die fs).links = s.links := by
  induction fs generalizing s with
  | nil => rfl
  | cons x fs ih => exact ih (s.fset die x.1 x.2)
@[simp] theorem State.fsets_tidemark (die : Nat) (fs : List (FieldRef × Nat)) : (s.fsets die fs).tidemark = s.tidemark := by
  induction fs generalizing s with
  | nil => rfl
  | cons x fs ih => exact ih (s.fset die x.1 x.2)
@[simp] theorem State.fsets_coll (die : Nat) (fs : List (FieldRef × Nat)) : (s.fsets die fs).coll = s.coll := by
  induction fs generalizing s with
  | nil => rfl
  | cons x fs ih => exact ih (s.fset die x.1 x.2)
@[simp] theorem State.fsets_iommuGen (die : Nat) (fs : List (FieldRef × Nat)) : (s.fsets die fs).iommuGen = s.iommuGen := by
  induction fs generalizing s with
  | nil => rfl
  | cons x fs ih => exact ih (s.fset die x.1 x.2)
@[simp] theorem State.fsets_iommus (die : Nat) (fs : List (FieldRef × Nat)) : (s.fsets die fs).iommus = s.iommus := by
  induction fs generalizing s with
  | nil => rfl
  | cons x fs ih => exact ih (s.fset die x.1 x.2)
@[simp] theorem State.fsets_host (die : Nat) (fs : List (FieldRef × Nat)) : (s.fsets die fs).host = s.host := by
  induction fs generalizing s with
  | nil => rfl
  | cons x fs ih => exact ih (s.fset die x.1 x.2)
@[simp] theorem State.fsets_ios (die : Nat) (fs : List (FieldRef × Nat)) : (s.fsets die fs).ios = s.ios := by
  induction fs generalizing s with
  | nil => rfl
  | cons x fs ih => exact ih (s.fset die x.1 x.2)
@[simp] theorem State.fsets_hostWbs (die : Nat) (fs : List (FieldRef × Nat)) : (s.fsets die fs).hostWbs = s.hostWbs := by
  induction fs generalizing s with
  | nil => rfl
  | cons x fs ih => exact ih (s.fset die x.1 x.2)
@[simp] theorem State.fsets_sites (die : Nat) (fs : List (FieldRef × Nat)) : (s.fsets die fs).sites = s.sites := by
  induction fs generalizing s with
  | nil => rfl
  | cons x fs ih => exact ih (s.fset die x.1 x.2)
@[simp] theorem State.fsets_hq (die : Nat) (fs : List (FieldRef × Nat)) : (s.fsets die fs).hq = s.hq := by
  induction fs generalizing s with
  | nil => rfl
  | cons x fs ih => exact ih (s.fset die x.1 x.2)
@[simp] theorem State.fsets_power (die : Nat) (fs : List (FieldRef × Nat)) : (s.fsets die fs).power = s.power := by
  induction fs generalizing s with
  | nil => rfl
  | cons x fs ih => exact ih (s.fset die x.1 x.2)
@[simp] theorem State.fsets_lht (die : Nat) (fs : List (FieldRef × Nat)) : (s.fsets die fs).lht = s.lht := by
  induction fs generalizing s with
  | nil => rfl
  | cons x fs ih => exact ih (s.fset die x.1 x.2)
@[simp] theorem State.fsets_i3c (die : Nat) (fs : List (FieldRef × Nat)) : (s.fsets die fs).i3c = s.i3c := by
  induction fs generalizing s with
  | nil => rfl
  | cons x fs ih => exact ih (s.fset die x.1 x.2)
@[simp] theorem State.fsets_sberr (die : Nat) (fs : List (FieldRef × Nat)) : (s.fsets die fs).sberr = s.sberr := by
  induction fs generalizing s with
  | nil => rfl
  | cons x fs ih => exact ih (s.fset die x.1 x.2)
@[simp] theorem State.fsets_alertN (die : Nat) (fs : List (FieldRef × Nat)) : (s.fsets die fs).alertN = s.alertN := by
  induction fs generalizing s with
  | nil => rfl
  | cons x fs ih => exact ih (s.fset die x.1 x.2)
@[simp] theorem State.fsets_wires (die : Nat) (fs : List (FieldRef × Nat)) : (s.fsets die fs).wires = s.wires := by
  induction fs generalizing s with
  | nil => rfl
  | cons x fs ih => exact ih (s.fset die x.1 x.2)

end Sys2Proof.Machine
end

