-- ==== Sys2Proof/Tests/Slice0.lean ====
section
/-!
SUPPORT. Tests: ill-formed commands that well-formedness refuses, worked values of the spec, and for the statements of
Sys2Proof/Certificates/Slice0/Obligations.lean states and operands that meet their hypotheses.
-/
namespace Sys2Proof.Tests
open Sys2Proof Sys2Proof.Machine

set_option Elab.async false

/-! ## Well-formedness: one ill-formed command for each check -/

theorem test_wf_cdie : (Instr.bundleIssue 4).wf = false := by decide
theorem test_wf_qdie : (Instr.hqEnable 3 0).wf = false := by decide
theorem test_wf_die : (Instr.dieReset 6).wf = false := by decide
theorem test_wf_core : (Instr.commandSend 0 64).wf = false := by decide
theorem test_wf_hart : (Instr.debugHalt 64).wf = false := by decide
theorem test_wf_vault : (Instr.vaultInit 0 64).wf = false := by decide
theorem test_wf_port : (Instr.bwfRetrain 32).wf = false := by decide
theorem test_wf_place : (Instr.rd 37 ⟨0, 0, 0, 0, 0, 0, 0, 0, []⟩).wf = false := by decide
theorem test_wf_message : (Instr.rd 0 ⟨64, 0, 0, 0, 0, 0, 0, 0, []⟩).wf = false := by decide
theorem test_wf_units : (Instr.rd 0 ⟨1, 0, 0, 0, 0, 0, 0, 0, List.replicate 6 0⟩).wf = false := by decide
theorem test_wf_host_port : (Instr.hostLinkLoss 2 1).wf = false := by decide
theorem test_wf_queue : (Instr.entryFetched 4096).wf = false := by decide
theorem test_wf_address : (Instr.cboClean 0 (2 ^ 56)).wf = false := by decide
theorem test_wf_line : (Instr.rdS 0 (2 ^ 50)).wf = false := by decide
theorem test_wf_requester : (Instr.rdS 1024 0).wf = false := by decide
theorem test_wf_cache : (Instr.cacheDisable 6).wf = false := by decide
theorem test_wf_line_data : (Instr.wb 0 0 [] false).wf = false := by decide
theorem test_wf_agent : (Instr.readClear (.hart 64) 0 8).wf = false := by decide
theorem test_wf_tick_link : (Instr.tickSend (.jetty 1 1)).wf = false := by decide
theorem test_wf_load_length : (Instr.hartLoad 0 0 0 0 0).wf = false := by decide
theorem test_wf_lr_length : (Instr.lr 0 0 2 0).wf = false := by decide
theorem test_wf_amo_code : (Instr.amo 0 0 9 [0, 0, 0, 0]).wf = false := by decide
theorem test_wf_counter : (Instr.evenCounterRead .i3c 0 none 16).wf = false := by decide
theorem test_wf_trigger : (Instr.periodTrigger 64).wf = false := by decide
theorem test_wf_page : (Instr.cursorWrite 0 4096).wf = false := by decide
theorem test_wf_point : (Instr.pwrReqWrite 0 16).wf = false := by decide
theorem test_wf_accepts : (Instr.hqEnable 5 2047).wf = true ∧ (Instr.hartLoad 63 (2 ^ 56 - 1) 64 2 5).wf = true ∧
    (Instr.rd 36 ⟨63, 15, 4095, 4095, 65535, 1023, 0, 0, []⟩).wf = true := by decide

/-! ## The statements can be met

For each statement of Sys2Proof/Certificates/Slice0/Obligations.lean that has hypotheses, states and operands that meet those of each of its
clauses. Clauses of MailboxCommands that ask Config.sm2Verify to accept have none here: it has no body (log entry 33). -/

/-- The state after reset. -/
def R : State := State.reset
/-- An image of 16 bundles on core 0. -/
def im : Image := ⟨0, 1, 16, 0, false, 0⟩
/-- Die 0's sequencer in state `n` with that image. -/
def seqAt (n : Nat) (f : TideDie → TideDie) : State :=
  (R.fset 0 SEQ_STATUS.STATE n).updTd 0 (fun t => f { t with image := some im })
/-- A bundle of kind `k` without operations. -/
def bundle (k : Nat) (last : Word) : List Word :=
  BitVec.ofNat 64 (k * 2 ^ 60) :: List.replicate 14 0 ++ [last]
def fetchedAs (n k : Nat) (last : Word) (f : TideDie → TideDie) : State :=
  seqAt n (fun t => f { t with pc := 3, fetched := some (bundle k last) })
/-- Window `w` of 1 MiB at an address. -/
def win (s : State) (w phys attr : Nat) : State :=
  ((s.fset 0 (SEQ_WIN_LIMIT.LIMIT.plus (0x20 * w)) 0x100000).fset 0 (SEQ_WIN_PHYS.PHYS.plus (0x20 * w)) phys).wr 0 0 (0x1018 + 0x20 * w)
    (BitVec.ofNat 64 (2 ^ 63 + attr))
/-- A work item runs with window 0 on the slab of core 0 and window 1 on the stack, which a1 names. -/
def tideRun : State := win (win (seqAt 3 id) 0 0x40000000000 7) 1 0 7
def vaultOn (s : State) : State := s.fset 0 (MFS_STATUS.STATE.unit 0) vACTIVE
def areg1 (s : State) : State := s.updTd 0 (fun t => { t with regs := { t.regs with a := [(1, 1 <<< 58)] } })
def slotS : State := ((areg1 tideRun).fset 0 (MFS_STATUS.STATE.unit 0) vACTIVE).fset 0 MFS_SPLIT.SPLIT 1
def slotB : State := slotS.updTd 0 (fun t => { t with bufs := [(0, ⟨0, 0, [], 0⟩)] })
/-- A slot of logical core 0. -/
def slotW (code rest : Nat) : Word := BitVec.ofNat 64 (code * 2 ^ 58 + rest)
def acmd (c : Nat) : Cmd := ⟨c, 0, 0, .dma, 0, 0x40000000000, 0x40000000000, 0, 0, 0, [], 0, false, 0, false, false, none⟩
def withCmd (e : Option Nat) : State :=
  { seqAt 3 (fun t => { t with sent := [acmd 0] }) with cmdEnds := [⟨0, 0, e, false, 0, false⟩] }
def frozen (f : TideDie → TideDie) : State := seqAt 3 (fun t => f { t with freezeRefresh := true })
/-- A load of the image at a 4 KiB block. -/
def loading (base : Nat) : State :=
  ((R.fset 0 SEQ_STATUS.STATE 1).fset 0 SEQ_IMAGE_BASE.BASE base).fset 0 (MFS_STATUS.STATE.unit 0) vACTIVE
/-- The header of R90 of an image of one bundle on no core. -/
def hdr : List (Nat × Byte) := [(0, 0x4E), (1, 0x4C), (2, 0x44), (3, 0x54), (4, 1), (6, 0), (0x10, 1)]
def loadOk : State :=
  (loading 0).stackWrite 0 0 ((List.range 256).map (fun i => ((hdr.find? (fun x => x.1 = i)).map (·.2)).getD 0)) false 0
def ballast (k : Nat) (f : TideDie → TideDie) : State :=
  seqAt k (fun t => f { t with step2 := true, fetched := some (BitVec.ofNat 64 (3 * 2 ^ 60 + 2) :: List.replicate 15 0) })
def dreq (w : Bool) : DynReq := ⟨.lighthouse, 0, w, 8, List.replicate (if w then 8 else 0) 0⟩
/-- Vault 0 of die 0, active. -/
def vaultIs (f : Vault → Vault) : State := (vaultOn R).updVault 0 0 f
/-- A GLZ FILL of 64 bytes at address 0, or what `f` makes of it. -/
def gfill (f : GlzCmd → GlzCmd) : GlzCmd :=
  f ⟨.stream 0 0 0 0, 0, 0, 0, 0, 0, 0, [0, 0, 0, 0, 64] ++ List.replicate 59 0, 0, 0, none, 0, false, [], 0, [], [], [], 0, 0, [], 0,
    none, [], none, false, false⟩
/-- An ACCUM of four elements onto themselves. -/
def gaccum (c : GlzCmd) : GlzCmd := { c with gop := 2, desc := [0, 0, 0, 0, 4] ++ List.replicate 59 0 }
def unitWith (f : GlzCmd → GlzCmd) : State :=
  ((vaultOn R).fsets 0 [(GLZ_AREA.VALID.unit 0, 1), (GLZ_AREA.SIZE.unit 0, 2), (GLZ_AREA.BASE.unit 0, 8), (MFS_SPLIT.SPLIT, 1)]).updGlz 0 0
    (fun u => { u with cmds := [gfill f], area := some (8, 2) })
def wsOf (s : State) (f : GlzCmd → GlzCmd) : List (Nat × List Byte × Bool) :=
  match (s.glzCompute 0 0 (gfill f)).1 with | .ok ws _ => ws | _ => []
/-- A message of agent 0 about line 0 on its way. -/
def net1 (k : MsgKind) : State := { vaultOn R with net := [⟨k, 0, 0, List.replicate 64 0, 0, false, false, 0, false⟩] }
/-- An entry for the first line of the Shelf. -/
def shelfS (e : DirEnt) : State :=
  ({ R.wr shDie 0x180 0x038 1 with dir := [(2 ^ 33, e)] } : State).fset shDie SHF_SPLIT.DIRECT 1
def txn (k : MsgKind) (a line : Nat) : Txn := ⟨⟨k, a, line, List.replicate 64 0, 0, false, false, 0, false⟩, [], [], [], false, false, false⟩
/-- The first field of the register map with an access type. -/
def someField (a : Acc) : RegDesc × FieldDesc :=
  ((regTable.flatMap (fun d => d.fields.map (fun f => (d, f)))).find? (fun x => decide (x.2.acc = a))).getD
    (⟨"", 0, .c, 0, 0, 0, 0, 0, 0, 0, false, []⟩, ⟨"", 0, 0, .ro, 0⟩)
def lk (f : Links → Links) : State := { R with links := f R.links }
def holds (st : LineSt) (s : State) : State := s.updCache 0 (fun c => { c with lines := [(0, ⟨st, List.replicate 64 0, false, 0, 0⟩)] })
def mshr (nc : Bool) : Mshr := ⟨0, 0, false, 0, none, .load, 0, 8, List.replicate 8 0, 0, true, false, nc, false⟩
def hartIs (f : Hart → Hart) : State := (vaultOn R).updHart 0 f
def sb (a : Nat) : SbEnt := ⟨7, a, List.replicate 8 0, 255, false, 0⟩
/-- Hart 0 in the state `n` of HL_CTRL. -/
def hlS (n : Nat) (s : State) : State := s.fset (hartDie 0) (hlRef 0 HL_CTRL.STATE) n
def dbg (s : State) : State := { s with debugOn := [4] }
def remapS (sl : Slot2M) : State := { (R.fset shDie SHF_SPLIT.DIRECT 15).fset shDie TDL_CFG.RESERVE 1 with remap := [(0, ⟨sl, 0, 0, false⟩)] }
def tdlS (f : Tdl → Tdl) : State := { R with tdl := f R.tdl }
/-- Port 0 linked in a package with a valid ID. -/
def portS (f : State → State) : State := f (((vaultOn R).fset 4 (portRef 0 BWF_STATUS.STATE) pLINKED).wr shDie 0x180 0 (2 ^ 31))
def fmsg (typ aux addr n : Nat) : FabMsg := ⟨typ, 0, 0, 5, 0, 0, aux, addr, List.replicate n 0⟩
def inbox (m : FabMsg) : State := portS (fun s => s.updFab (fun f => { f with inbox := [(0, m)] }))
def asked (o : FabOrigin) : State := portS (fun s => s.updFab (fun f => { f with reqs := [⟨4, fmsg mRD 0 0 0, 0, o, true⟩] }))
def colCmd (op : Nat) (up : Bool) : ColCmd := ⟨4, 0, 0, op, 0, 0, 0, 0, 0, 0, 0, 0, 0, 0, 2, 0, false, up, [], []⟩
def collS (f : Coll → Coll) : State :=
  ({ vaultOn R with coll := f { R.coll with tables := [(256, [0])] } } : State).wr shDie 0x180 0 (2 ^ 31)
def colMsg (k : Nat) : FabMsg := ⟨mCOL, 0, 0, 0, 0, agCol, 0, 0, [k * 2 ^ 118]⟩
def flit : List Byte := List.replicate 252 0 ++ leBytes 4 (crc32 (List.replicate 252 0))
def fabT (s : State) (w : Option Word) (m : FabMsg) : State := match s.fabReg 0 0 m.addr w with | .ok (_, t) => t | _ => s
def fabV (s : State) (w : Option Word) (m : FabMsg) : Word := match s.fabReg 0 0 m.addr w with | .ok (v, _) => v | _ => 0
def hostS (f : State → State) : State :=
  f ((((vaultOn R).fset 4 HPU_STATUS.LINK 2).fset 4 HPU_STATUS.MEM_EN 1).fset shDie SHF_SPLIT.DIRECT 1)
def hdmS (f : State → State) : State :=
  hostS (fun s => f { s with host := [(0, { HostPort.reset with hdm := [(0, 0, 2 ^ 44)] })] })
def p2pS (f : State → State) : State :=
  hostS (fun s => f ((((s.fset 4 HPU_STATUS.BME 1).fset 4 HPU_STATUS.IN_SERVICE 1).wr 4 0x150 0x200
    (BitVec.ofNat 64 (2 ^ 63 + 0x80000000000))).wr 4 0x150 0x208 (BitVec.ofNat 64 0x80000100000)))
def siteS (n : Nat) (f : SiteLink → SiteLink) : State :=
  { R.fset 4 UCI_STATUS.STATE n with sites := [(0, f (R.site 0))] }
/-- The queue engine of Q0 runs, and its IOMMU is bare. -/
def hqS (f : State → State) : State :=
  f ((((((vaultOn R).fset 0 MFS_SPLIT.SPLIT 1).fset 4 HQ_CTRL.ENABLE 1).fset 4 HQ_JRNL.VALID 1).fset 4 HQ_JMIR.VALID 1).fsets 4
    [(HQ_JRNL.RECORDS, 16), (IOM_DDTP.MODE, 1)])
def qctx (ring : Nat) : QCtx := ⟨ring, 0, 0, 4, 0, 0, 4, 0, 0⟩
def qS (st ring : Nat) (f : Queue → Queue) (g : State → State) : State :=
  hqS (fun s => g { s with hq := { s.hq with queues := [(0, f ⟨st, 0, qctx ring, 8, 0, 0, []⟩)] } })
/-- A queue entry of an opcode with SCOPE 2. -/
def entry (op : Nat) (xs : List (Nat × Byte)) : List Byte :=
  (List.range 256).map (fun i => if i = 0 then BitVec.ofNat 8 op else if i = 2 then 2 else ((xs.find? (fun x => x.1 = i)).map (·.2)).getD 0)
def jrec (op : Nat) (xs : List (Nat × Byte)) (f : JRec → JRec) : JRec :=
  f { JRec.fresh 0 0 1 (entry op xs) with counted := true, st := 2 }
/-- Queue 0 with one record. -/
def recS (op : Nat) (xs : List (Nat × Byte)) (f : JRec → JRec) (g : State → State) : State :=
  qS 1 0 id (fun s => g { s with hq := { s.hq with journal := [jrec op xs f] } })
def slab0 : Nat := 0x40000000000
/-- Bytes written to the slab of core 0 beforehand. -/
def slabQ (a : Nat) (bs : List Byte) (s : State) : State :=
  match s.anyWrite engHome (slab0 + a) bs false with | some x => x.2 | none => s
def powS (f : Power → Power) : State := { R with power := f R.power }
def dieP (f : DiePower → DiePower) : State := powS (fun p => { p with dies := [(0, f DiePower.reset)] })
def mbox (op arg : Nat) : State := R.fsets 4 [(LHT_CMD.BUSY, 1), (LHT_CMD.OP, op), (LHT_CMD.ARG, arg)]
def stlE (m : Bool) : StlEvent := ⟨1, 0, 0, m⟩
/-- A companion descriptor of R452. -/
def desc : List Byte :=
  let b : List Byte := (List.range 0xFC).map (fun i => if i = 0 then 0x42 else if i = 1 then 0x53 else if i = 2 then 0x43 else if i = 3 then 0x44
    else if i = 4 then 1 else if i = 6 then 1 else if i = 0x1C then 100 else if i = 0x1D then 110 else 0)
  b ++ leBytes 4 (crc32 (b.map BitVec.toNat))

theorem witness_RegisterCommandsComplete :
    (∃ (s : Machine.State) (agent : Agent) (addr : ℕ) (len : ℕ) (die : ℕ) (blk : ℕ) (off : ℕ), isRegAddr addr = true ∧ s.mayAccess agent = true ∧
      s.mayReg agent addr true = true ∧ s.regWay agent addr len = RegWay.reg die blk off) ∧
    (∃ (s : Machine.State) (agent : Agent) (addr : ℕ) (len : ℕ) (die : ℕ) (blk : ℕ) (off : ℕ), isRegAddr addr = true ∧ s.mayAccess agent = true ∧
      s.mayReg agent addr false = true ∧ s.regWay agent addr len = RegWay.reg die blk off) ∧
    (∃ (s : Machine.State) (agent : Agent) (die : ℕ) (w : Word), isQ die = true ∧ s.mayAccess agent = true ∧ s.answers die 384 = true ∧ s.mayReg
      agent (regAddr die 384 0) true = true ∧
     let u := s.fsets shDie [(PKG_ID.ID_VALID, bits w 31 31), (PKG_ID.ID, bits w 11 0)]
     s.idValid = true ∧ u.idValid = s.idValid ∧ u.ownId = s.ownId) ∧
    (∃ (s : Machine.State) (agent : Agent) (die : ℕ) (w : Word), isQ die = true ∧ s.mayAccess agent = true ∧ s.answers die 384 = true ∧ s.mayReg
      agent (regAddr die 384 0) true = true ∧
     let u := s.fsets shDie [(PKG_ID.ID_VALID, bits w 31 31), (PKG_ID.ID, bits w 11 0)]
     s.idValid = true ∧ u.ownId ≠ s.ownId) :=
  ⟨⟨R, .lighthouse, (regAddr 4 384 0), 8, 4, 384, 0, by decide +kernel⟩,
    ⟨R, .lighthouse, (regAddr 4 384 0), 8, 4, 384, 0, by decide +kernel⟩,
    ⟨(R.wr shDie 0x180 0 (2 ^ 31)), .lighthouse, 4, (2^31), by decide +kernel⟩,
    ⟨(R.wr shDie 0x180 0 (2 ^ 31)), .lighthouse, 4, (2^31+5), by decide +kernel⟩⟩

theorem witness_SequencerFetchAndIssue :
    (∃ (s : Machine.State) (die : ℕ), ∃ y4 ∈ (s.td die).image, s.canFetch die = true ∧ (s.td die).pc < y4.length ∧ imageRing y4 = false) ∧
    (∃ (s : Machine.State) (die : ℕ), ∃ y3 ∈ (s.td die).image, s.canFetch die = true ∧ y3.length ≤ (s.td die).pc) ∧
    (∃ (s : Machine.State) (die : ℕ), ∃ y6 ∈ (s.td die).image, (s.td die).freezeFetch = true ∧ (s.td die).pc < y6.length ∧ (s.td die).refill =
      none ∧ s.vaultsFree die (y6.base % 2 ^ 37 + 256 + 128 * (s.td die).pc) 128 = true) ∧
    (∃ (s : Machine.State) (die : ℕ), ∃ y1 ∈ s.ready die kNORMAL, True) ∧
    (∃ (s : Machine.State) (die : ℕ), ∃ y1 ∈ s.ready die kHOLD, True) ∧
    (∃ (s : Machine.State) (die : ℕ), ∃ y4 ∈ (s.td die).image, ∃ y3 ∈ (s.td die).refill, (s.td die).freezeFetch = false ∧ s.vaultsFree die
      (chunkRange y4 y3).1 (chunkRange y4 y3).2 = true) :=
  ⟨⟨(seqAt 3 id), 0, by decide +kernel⟩,
    ⟨(seqAt 3 (fun t => { t with pc := 16 })), 0, by decide +kernel⟩,
    ⟨(seqAt 3 (fun t => { t with freezeFetch := true })), 0, by decide +kernel⟩,
    ⟨(fetchedAs 3 0 0 id), 0, by decide +kernel⟩,
    ⟨(fetchedAs 3 1 0 id), 0, by decide +kernel⟩,
    ⟨(seqAt 3 (fun t => { t with refill := some 0 })), 0, by decide +kernel⟩⟩

theorem witness_CheckpointAndReplay :
    (∃ (s : Machine.State) (die : ℕ), ∃ y1 ∈ s.ready die kCKPT, True) ∧
    (∃ (s : Machine.State) (die : ℕ), ∃ y6 ∈ s.ready die kCKPT, ∃ y5 ∈ (s.td die).image, (s.td die).flights = [] ∧ horizon (s.td die) ≤ (s.td
      die).cycle ∧ (s.td die).stepUnsent = false ∧ s.seqState die ≠ seqREPLAYING) ∧
    (∃ (s : Machine.State) (die : ℕ), isC die = true ∧ s.running die = true ∧ (s.td die).reports = []) ∧
    (∃ (s : Machine.State) (die : ℕ), isC die = true ∧ s.running die = true ∧ (s.td die).reports ≠ [] ∧
     let u := s.scoreReports die;
     let t1 := u.td die
     t1.endCause = none ∧ t1.restoring = false ∧ t1.replayable = true ∧ t1.replays < u.fget die SEQ_REPLAY.LIMIT) ∧
    (∃ (s : Machine.State) (die : ℕ), (s.td die).restoring = true ∧ (s.td die).endCause = none ∧ (s.td die).unfrozen = true ∧
     let v := (s.drainAs die 260).closeSlots die 260;
     let u := (v.countReplays die (v.td die).reports).scoreReports die
     ∃ y2 ∈ (u.td die).ckpt, (u.td die).endCause = none) :=
  ⟨⟨(fetchedAs 3 2 0 id), 0, by decide +kernel⟩,
    ⟨(fetchedAs 3 2 0 id), 0, by decide +kernel⟩,
    ⟨(seqAt 3 id), 0, by decide +kernel⟩,
    ⟨(seqAt 3 (fun t => { t with reports := [⟨0, 1, false⟩], replayable := true })), 0, by decide +kernel⟩,
    ⟨(seqAt 3 (fun t => { t with restoring := true, ckpt := some ⟨0, [], [], 0⟩ })), 0, by decide +kernel⟩⟩

theorem witness_SequencerControlFlow :
    (∃ (s : Machine.State) (die : ℕ), ∃ y1 ∈ s.ready die kAWAIT, True) ∧
    (∃ (s : Machine.State) (die : ℕ), ∃ y8 ∈ (s.td die).fetched, s.seqState die = seqAWAITING ∧ (s.td die).step2 = true ∧ (s.td die).endCause =
      none ∧ (s.td die).reports = [] ∧ (s.td die).unfrozen = true ∧ s.awaitMet die (bSlot y8 15) = true ∧ bits (bSlot y8 15) 63 62 = 0) ∧
    (∃ (s : Machine.State) (die : ℕ), s.seqState die = seqAWAITING ∧ (s.td die).step2 = true ∧ (s.td die).takesFault = true ∧ s.fget die
      SEQ_AWAIT_TIMEOUT.TIMEOUT_US ≠ 0) ∧
    (∃ (s : Machine.State) (die : ℕ), ∃ y3 ∈ s.ready die kBRANCH, ∃ y2 ∈ (s.td die).image, innermost (s.bodies die y2 (s.td die).pc) (s.td die).pc
      = innermost (s.bodies die y2 (s.td die).pc) (bits (bSlot y3 15) 23 0)) ∧
    (∃ (s : Machine.State) (die : ℕ) (src : ℕ) (target : ℕ), (s.td die).branch = some
      { at_ := (s.td die).cycle, src := src, target := target, taken := true } ∧ ∃ y3 ∈ (s.td die).image, s.canIssue die = true ∧ jumpOk y3 src
      target = true) ∧
    (∃ (s : Machine.State) (die : ℕ) (src : ℕ) (target : ℕ), (s.td die).branch = some
      { at_ := (s.td die).cycle, src := src, target := target, taken := false } ∧ ∃ y2 ∈ (s.td die).image, s.canIssue die = true) ∧
    (∃ (s : Machine.State) (die : ℕ), ∃ y5 ∈ s.ready die kLOOP, (s.td die).loops = [] ∧ (s.td die).pc < bits (bSlot y5 15) 23 0 ∧ bitAt (bSlot y5
      15) 47 = false ∧ bits (bSlot y5 15) 43 24 ≠ 0) ∧
    (∃ (s : Machine.State) (die : ℕ), ∃ y5 ∈ (s.td die).iterEnd, ∃ y4 ∈ (s.td die).image, s.canIssue die = true ∧ (s.td die).branchDue = false ∧
      y5.left ≤ 1) ∧
    (∃ (s : Machine.State) (die : ℕ), ∃ y6 ∈ (s.td die).iterEnd, ∃ y5 ∈ (s.td die).image, s.canIssue die = true ∧ (s.td die).branchDue = false ∧ 1
      < y6.left ∧ jumpOk y5 ((s.td die).pc - 1) y6.first = true) :=
  ⟨⟨(fetchedAs 3 3 1 id), 0, by decide +kernel⟩,
    ⟨(fetchedAs 4 3 (2^62 * 0) (fun t => { t with step2 := true })), 0, by decide +kernel⟩,
    ⟨(fetchedAs 4 3 (2^62 * 0) (fun t => { t with step2 := true })), 0, by decide +kernel⟩,
    ⟨(fetchedAs 3 4 0 id), 0, by decide +kernel⟩,
    ⟨(seqAt 3 (fun t => { t with branch := some ⟨0, 0, 5, true⟩ })), 0, 0, 5, by decide +kernel⟩,
    ⟨(seqAt 3 (fun t => { t with branch := some ⟨0, 0, 5, false⟩ })), 0, 0, 5, by decide +kernel⟩,
    ⟨(fetchedAs 3 5 (2^24 * 3 + 9) id), 0, by decide +kernel⟩,
    ⟨(seqAt 3 (fun t => { t with pc := 6, loops := [⟨0, 2, 5, 1⟩] })), 0, by decide +kernel⟩,
    ⟨(seqAt 3 (fun t => { t with pc := 6, loops := [⟨0, 2, 5, 2⟩] })), 0, by decide +kernel⟩⟩

theorem witness_WorkItemEnds :
    (∃ (s : Machine.State) (die : ℕ), ∃ y3 ∈ s.ready die kEND, ((s.drainAs die 265).td die).reports = [] ∧ ((s.drainAs die 265).td die).endCause =
      none) ∧
    (∃ (s : Machine.State) (die : ℕ), s.running die = true ∧ (s.td die).ending = true ∧ s.vwrInv = [] ∧ (s.td die).outstanding = false ∧ (s.td
      die).endCause = none ∧ (s.td die).failed = false) ∧
    (∃ (s : Machine.State) (die : ℕ), s.running die = true ∧ (s.td die).ending = true ∧ s.vwrInv = [] ∧ (s.td die).outstanding = false ∧ (s.td
      die).endCause = none ∧ (s.td die).failed = true) ∧
    (∃ (s : Machine.State) (die : ℕ), (s.td die).endCause = some EndCause.aborted ∧ s.running die = true ∧ (s.td die).unfrozen = true ∧ ((s.td
      die).ending = false ∨ (s.td die).outstanding = false)) ∧
    (∃ (s : Machine.State) (die : ℕ), (s.td die).unfrozen = false ∧ s.running die = true) ∧
    (∃ (s : Machine.State) (die : ℕ), (s.td die).freezeRefresh = true ∧
     let u := (s.freezeCycles die 192 264).updTd die fun (t : TideDie) => { t with freezeRefresh := false }
     (u.td die).unfrozen = true) ∧
    (∃ (s : Machine.State) (die : ℕ), (s.td die).freezeRefresh = true ∧
     let u := (s.freezeCycles die 192 264).updTd die fun (t : TideDie) => { t with freezeRefresh := false }
     (u.td die).unfrozen = false) :=
  ⟨⟨(fetchedAs 3 15 0 id), 0, by decide +kernel⟩,
    ⟨(seqAt 3 (fun t => { t with ending := true })), 0, by decide +kernel⟩,
    ⟨(seqAt 3 (fun t => { t with ending := true, failed := true })), 0, by decide +kernel⟩,
    ⟨(seqAt 3 (fun t => { t with endCause := some .aborted })), 0, by decide +kernel⟩,
    ⟨(seqAt 3 (fun t => { t with freezeFetch := true })), 0, by decide +kernel⟩,
    ⟨(frozen id), 0, by decide +kernel⟩,
    ⟨(frozen (fun t => { t with freezeFetch := true })), 0, by decide +kernel⟩⟩

theorem witness_ScalarSlots :
    (∃ (s : Machine.State) (die : ℕ) (c : ℕ) (w : Word),
     let v := s.pmuEvent die 266 1;
     let x := v.slotOn die c w (0, 0, 0);
     let t := (v.td die).cycle
     ∃ y2 ∈ v.hold die [{ unit := uScalar x.ctx, lo := t, hi := t + 1 }] [], s.issuesOn die 48 w c = true) ∧
    (∃ (s : Machine.State) (die : ℕ) (c : ℕ) (w : Word),
     let v := s.pmuEvent die 266 1;
     let x := v.slotOn die c w (0, 0, 0);
     let t := (v.td die).cycle
     ∃ y3 ∈ v.hold die [{ unit := uScalar x.ctx, lo := t, hi := t + 1 }] [], s.issuesOn die 49 w c = true ∧ bitAt w 39 = false) ∧
    (∃ (s : Machine.State) (die : ℕ) (c : ℕ) (w : Word),
     let v := s.pmuEvent die 266 1;
     let x := v.slotOn die c w (0, 0, 0);
     let t := (v.td die).cycle
     ∃ y3 ∈ v.hold die [{ unit := uScalar x.ctx, lo := t, hi := t + 1 }] [], s.issuesOn die 52 w c = true ∧ bitAt w 28 = false) ∧
    (∃ (s : Machine.State) (die : ℕ) (c : ℕ) (w : Word),
     let v := s.pmuEvent die 266 1;
     let x := v.slotOn die c w (0, 0, 0);
     let t := (v.td die).cycle
     ∃ y3 ∈ v.hold die [{ unit := uScalar x.ctx, lo := t, hi := t + 1 }] [], s.issuesOn die 50 w c = true ∧ ∃ y1 ∈ v.slabOperand die x.ctx ((v.td
       die).areg x.ctx (bits w 39 36)) 8 8 permR false, True) ∧
    (∃ (s : Machine.State) (die : ℕ) (c : ℕ) (w : Word),
     let v := s.pmuEvent die 266 1;
     let x := v.slotOn die c w (0, 0, 0);
     let t := (v.td die).cycle
     ∃ y3 ∈ v.hold die [{ unit := uScalar x.ctx, lo := t, hi := t + 1 }] [], s.issuesOn die 51 w c = true ∧ ∃ y1 ∈ v.slabOperand die x.ctx ((v.td
       die).areg x.ctx (bits w 39 36)) 8 8 permW false, True) ∧
    (∃ (s : Machine.State) (die : ℕ) (c : ℕ) (w : Word),
     let v := s.pmuEvent die 266 1;
     let x := v.slotOn die c w (0, 0, 0);
     let t := (v.td die).cycle
     ∃ y3 ∈ v.hold die [{ unit := uScalar x.ctx, lo := t, hi := t + 1 }] [], s.issuesOn die 53 w c = true ∧ bits w 44 42 = die) ∧
    (∃ (s : Machine.State) (die : ℕ) (c : ℕ) (w : Word),
     let v := s.pmuEvent die 266 1;
     let x := v.slotOn die c w (0, 0, 0);
     let t := (v.td die).cycle
     ∃ y3 ∈ v.hold die [{ unit := uScalar x.ctx, lo := t, hi := t + 1 }] [], s.issuesOn die 53 w c = true ∧ bits w 44 42 ≠ die) ∧
    (∃ (s : Machine.State) (die : ℕ) (c : ℕ) (w : Word),
     let v := s.pmuEvent die 266 1;
     let x := v.slotOn die c w (0, 0, 0);
     let t := (v.td die).cycle
     ∃ y2 ∈ v.hold die [{ unit := uScalar x.ctx, lo := t, hi := t + 1 }] [], s.issuesOn die 54 w c = true) :=
  ⟨⟨slotS, 0, 0, (slotW 48 0), by decide +kernel⟩,
    ⟨slotS, 0, 0, (slotW 49 0), by decide +kernel⟩,
    ⟨slotS, 0, 0, (slotW 52 0), by decide +kernel⟩,
    ⟨slotS, 0, 0, (slotW 50 0), by decide +kernel⟩,
    ⟨slotS, 0, 0, (slotW 51 0), by decide +kernel⟩,
    ⟨slotS, 0, 0, (slotW 53 (1 * 2^22)), by decide +kernel⟩,
    ⟨slotS, 0, 0, (slotW 53 (1 * 2^22 + 2^42)), by decide +kernel⟩,
    ⟨slotS, 0, 0, (slotW 54 0), by decide +kernel⟩⟩

theorem witness_VectorSlots :
    (∃ (s : Machine.State) (die : ℕ) (c : ℕ) (w : Word),
     let v := s.pmuEvent die 266 1;
     let x := v.slotOn die c w (0, 0, 0);
     let t := (v.td die).cycle
     ∃ y2 ∈ v.hold die [{ unit := uFma x.ctx 0, lo := t, hi := t + 1 }] [], s.issuesOn die 8 w c = true) ∧
    (∃ (s : Machine.State) (die : ℕ) (c : ℕ) (w : Word),
     let v := s.pmuEvent die 266 1;
     let x := v.slotOn die c w (0, 0, 0);
     let t := (v.td die).cycle
     ∃ y2 ∈ v.hold die [{ unit := uFma x.ctx 0, lo := t, hi := t + 1 }] [], s.issuesOn die 9 w c = true) ∧
    (∃ (s : Machine.State) (die : ℕ) (c : ℕ) (w : Word),
     let v := s.pmuEvent die 266 1;
     let x := v.slotOn die c w (0, 0, 0);
     let t := (v.td die).cycle
     ∃ y2 ∈ v.hold die [{ unit := uFma x.ctx 0, lo := t, hi := t + 1 }] [], s.issuesOn die 10 w c = true) ∧
    (∃ (s : Machine.State) (die : ℕ) (c : ℕ) (w : Word),
     let v := s.pmuEvent die 266 1;
     let x := v.slotOn die c w (0, 0, 0);
     let t := (v.td die).cycle
     ∃ y2 ∈ v.hold die [{ unit := uFma x.ctx 0, lo := t, hi := t + 1 }] [], s.issuesOn die 11 w c = true) ∧
    (∃ (s : Machine.State) (die : ℕ) (c : ℕ) (w : Word),
     let v := s.pmuEvent die 266 1;
     let x := v.slotOn die c w (0, 0, 0);
     let t := (v.td die).cycle
     ∃ y2 ∈ v.hold die [{ unit := uTrn x.ctx, lo := t, hi := t + 4 }] [], s.issuesOn die 12 w c = true) :=
  ⟨⟨slotS, 0, 0, (slotW 8 0), by decide +kernel⟩,
    ⟨slotS, 0, 0, (slotW 9 0), by decide +kernel⟩,
    ⟨slotS, 0, 0, (slotW 10 0), by decide +kernel⟩,
    ⟨slotS, 0, 0, (slotW 11 0), by decide +kernel⟩,
    ⟨slotS, 0, 0, (slotW 12 0), by decide +kernel⟩⟩

theorem witness_SlabSlots :
    (∃ (s : Machine.State) (die : ℕ) (c : ℕ) (w : Word),
     let v := s.pmuEvent die 266 1;
     let x := v.slotOn die c w (0, 0, 0);
     let t := (v.td die).cycle
     s.issuesOn die 16 w c = true ∧ ∃ y2 ∈ v.slabOperand die x.ctx ((v.td die).areg x.ctx (bits w 43 40)) (widthBytes (bits w 35 34)) (widthBytes
       (bits w 35 34)) permR false, ∃ y1 ∈ v.hold die [{ unit := uMove x.ctx, lo := t, hi := t + 1 }] [], True) ∧
    (∃ (s : Machine.State) (die : ℕ) (c : ℕ) (w : Word),
     let v := s.pmuEvent die 266 1;
     let x := v.slotOn die c w (0, 0, 0);
     let t := (v.td die).cycle
     s.issuesOn die 17 w c = true ∧ bitAt w 36 = false ∧ ∃ y2 ∈ v.slabOperand die x.ctx ((v.td die).areg x.ctx (bits w 43 40)) (widthBytes (bits w
       35 34)) (widthBytes (bits w 35 34)) permW false, ∃ y1 ∈ v.hold die [{ unit := uMove x.ctx, lo := t, hi := t + 1 }] [], True) ∧
    (∃ (s : Machine.State) (die : ℕ) (c : ℕ) (w : Word),
     let v := s.pmuEvent die 266 1;
     let x := v.slotOn die c w (0, 0, 0);
     let t := (v.td die).cycle
     s.issuesOn die 18 w c = true ∧ ∃ y3 ∈ v.slabOperand die x.ctx ((v.td die).areg x.ctx (bits w 48 45)) (256 * (bits w 40 29 + 1)) 256 permR
       false, ∃ y2 ∈ v.slabOperand die x.ctx ((v.td die).areg x.ctx (bits w 44 41)) (256 * (bits w 40 29 + 1)) 256 permW false, ∃ y1 ∈ v.hold die
       [{ unit := uMove x.ctx, lo := t, hi := t + (bits w 40 29 + 1) }] [], True) ∧
    (∃ (s : Machine.State) (die : ℕ) (c : ℕ) (w : Word),
     let v := s.pmuEvent die 266 1;
     let x := v.slotOn die c w (0, 0, 0);
     let t := (v.td die).cycle
     s.issuesOn die 19 w c = true ∧ ∃ y2 ∈ v.slabOperand die x.ctx ((v.td die).areg x.ctx (bits w 48 45)) (256 * (bits w 40 29 + 1)) 256 permW
       false, ∃ y1 ∈ v.hold die [{ unit := uMove x.ctx, lo := t, hi := t + (bits w 40 29 + 1) }] [], True) ∧
    (∃ (s : Machine.State) (die : ℕ) (c : ℕ) (w : Word),
     let v := s.pmuEvent die 266 1;
     let x := v.slotOn die c w (0, 0, 0);
     let t := (v.td die).cycle
     s.issuesOn die 32 w c = true ∧ ∃ y5 ∈ ssendTarget w c,
     let r4 := v.placeOf die y5
     ∃ y3 ∈ v.slabOperand die x.ctx ((v.td die).areg x.ctx (bits w 48 45)) (64 * (bits w 32 21 + 1)) 64 permR false, ∃ y2 ∈ v.slabOperand die r4.2
       ((v.td die).areg x.ctx (bits w 44 41)) (64 * (bits w 32 21 + 1)) 64 permW false, ∃ y1 ∈ v.hold die
       ({ unit := uLocal x.ctx, lo := t, hi := t + (bits w 32 21 + 1) } ::
       { unit := uLocal r4.2, lo := t + 4 + 4 * hops c y5, hi := t + 4 + 4 * hops c y5 + (bits w 32 21 + 1) } :: routeBusy (routeXY c y5) t (bits
       w 32 21 + 1)) (routeXY c y5), True) :=
  ⟨⟨slotS, 0, 0, (slotW 16 0), by decide +kernel⟩,
    ⟨slotS, 0, 0, (slotW 17 0), by decide +kernel⟩,
    ⟨slotS, 0, 0, (slotW 18 0), by decide +kernel⟩,
    ⟨slotS, 0, 0, (slotW 19 0), by decide +kernel⟩,
    ⟨slotS, 0, 0, (slotW 32 (2^37)), by decide +kernel⟩⟩

theorem witness_MatrixAndStackSlots :
    (∃ (s : Machine.State) (die : ℕ) (c : ℕ) (w : Word) (k : ℕ),
     let v := s.pmuEvent die 266 1;
     let x := v.slotOn die c w (0, 0, 0);
     let t := (v.td die).cycle
     s.issuesOn die 0 w c = true ∧ ∃ y5 ∈ v.stackOperand die c ((v.td die).areg x.ctx (bits w 44 41)) (tileBytes (bits w 47 45)) 512 permR, y5.2 =
       StackWay.near k ∧ mapFind (v.td die).bufs (x.ctx * 2 + bits w 48 48) = none ∧
     let r3 := stackHold x (StackWay.near k) t 64 136 136
     ∃ y2 ∈ v.hold die ({ unit := uBuf x.ctx (bits w 48 48), lo := t, hi := t + 64 } :: r3.1) r3.2, True) ∧
    (∃ (s : Machine.State) (die : ℕ) (c : ℕ) (w : Word),
     let v := s.pmuEvent die 266 1;
     let x := v.slotOn die c w (0, 0, 0);
     let t := (v.td die).cycle
     s.issuesOn die 1 w c = true ∧ ∃ y9 ∈ mapFind (v.td die).bufs (x.ctx * 2 + bits w 48 48), y9.ready ≤ t ∧ fmtClass y9.fmt = fmtClass (bits w 47
       45) ∧ (passShape y9.fmt).scaled = true ∧ bitAt w 24 = false ∧ ∃ y4 ∈ v.slabOperand die x.ctx ((v.td die).areg x.ctx (bits w 32 29))
       ((passShape y9.fmt).actBytes * (bits w 44 33 + 1)) (passShape y9.fmt).actBytes permR false, ∃ y3 ∈ v.slabOperand die x.ctx ((v.td die).areg
       x.ctx (bits w 28 25)) (4 * (bits w 44 33 + 1)) 4 permR false, ∃ y2 ∈ v.slabOperand die x.ctx ((v.td die).areg x.ctx (bits w 19 16))
       ((passShape y9.fmt).outBytes * (bits w 44 33 + 1)) 256 permW false, ∃ y1 ∈ v.hold die
       [{ unit := uPass x.ctx, lo := t, hi := t + (bits w 44 33 + 1) }] [], True) ∧
    (∃ (s : Machine.State) (die : ℕ) (c : ℕ) (w : Word) (k : ℕ),
     let v := s.pmuEvent die 266 1;
     let x := v.slotOn die c w (0, 0, 0);
     let t := (v.td die).cycle
     s.issuesOn die 24 w c = true ∧ ∃ y5 ∈ v.stackOperand die c ((v.td die).areg x.ctx (bits w 48 45)) (128 * (bits w 40 29 + 1)) 128 permR, y5.2
       = StackWay.near k ∧ ∃ y4 ∈ v.slabOperand die x.ctx ((v.td die).areg x.ctx (bits w 44 41)) (128 * (bits w 40 29 + 1)) 128 permW false,
     let r3 := stackHold x (StackWay.near k) t (bits w 40 29 + 1) (2 * (bits w 40 29 + 1)) (2 * (bits w 40 29 + 1))
     ∃ y2 ∈ v.hold die ({ unit := uVcls x.ctx, lo := t, hi := t + (bits w 40 29 + 1) } :: r3.1) r3.2, True) ∧
    (∃ (s : Machine.State) (die : ℕ) (c : ℕ) (w : Word) (k : ℕ),
     let v := s.pmuEvent die 266 1;
     let x := v.slotOn die c w (0, 0, 0);
     let t := (v.td die).cycle
     s.issuesOn die 25 w c = true ∧ ∃ y3 ∈ v.stackOperand die c ((v.td die).areg x.ctx (bits w 48 45)) (128 * (bits w 40 29 + 1)) 128 permW, y3.2
       = StackWay.near k ∧ ∃ y2 ∈ v.slabOperand die x.ctx ((v.td die).areg x.ctx (bits w 44 41)) (128 * (bits w 40 29 + 1)) 128 permR false, ∃ y1
       ∈ v.hold die [{ unit := uVcls x.ctx, lo := t, hi := t + (bits w 40 29 + 1) },
       { unit := uVport x.ctx, lo := t, hi := t + (bits w 40 29 + 1) }, { unit := uVault k, lo := t, hi := t + (bits w 40 29 + 1) }] [], True) ∧
    (∃ (s : Machine.State) (die : ℕ) (c : ℕ) (w : Word),
     let v := s.pmuEvent die 266 1;
     let x := v.slotOn die c w (0, 0, 0);
     let t := (v.td die).cycle
     s.issuesOn die 26 w c = true ∧ busyIn (v.td die).busy { unit := uGlzAt c, lo := t, hi := t + 192 } = false ∧ ∃ y1 ∈ v.hold die
       [{ unit := uVcls x.ctx, lo := t, hi := t + 192 }, { unit := uVault c, lo := t, hi := t + 192 },
       { unit := uRefresh c, lo := t, hi := t + 192 }] [], True) :=
  ⟨⟨slotS, 0, 0, (slotW 0 (1 * 2^41)), 0, by decide +kernel⟩,
    ⟨slotB, 0, 0, (slotW 1 0), by decide +kernel⟩,
    ⟨slotS, 0, 0, (slotW 24 (1 * 2^45)), 0, by decide +kernel⟩,
    ⟨slotS, 0, 0, (slotW 25 (1 * 2^45)), 0, by decide +kernel⟩,
    ⟨slotS, 0, 0, (slotW 26 0), by decide +kernel⟩⟩

theorem witness_CommandSlots :
    (∃ (s : Machine.State) (die : ℕ) (c : ℕ) (w : Word),
     let v := s.pmuEvent die 266 1;
     let x := v.slotOn die c w (0, 0, 0)
     ∃ y5 ∈ v.holdCmd x, s.issuesOn die 40 w c = true ∧ ∃ y3 ∈ v.slabOperand die x.ctx ((v.td die).areg x.ctx (bits w 44 41)) 64 64 permR false, ∃
       y2 ∈ v.window die ((v.td die).areg x.ctx (bits w 40 37)) 1 1 permG true, v.inRefresh die y2 = false) ∧
    (∃ (s : Machine.State) (die : ℕ) (c : ℕ) (w : Word),
     let v := s.pmuEvent die 266 1;
     let x := v.slotOn die c w (0, 0, 0)
     ∃ y4 ∈ v.holdCmd x, s.issuesOn die 41 w c = true ∧ ∃ y2 ∈ v.window die ((v.td die).areg x.ctx (bits w 48 45)) (bits ((v.td die).sreg x.ctx
       (bits w 40 37)) 31 0) 1 permRG true, ∃ y1 ∈ v.window die ((v.td die).areg x.ctx (bits w 44 41)) (bits ((v.td die).sreg x.ctx (bits w 40
       37)) 31 0) 1 permWG true, True) ∧
    (∃ (s : Machine.State) (die : ℕ) (c : ℕ) (w : Word),
     let v := s.pmuEvent die 266 1;
     let x := v.slotOn die c w (0, 0, 0)
     ∃ y5 ∈ v.holdCmd x, s.issuesOn die 42 w c = true ∧ bitAt w 28 = false ∧ ∃ y2 ∈ v.window die ((v.td die).areg x.ctx (bits w 44 41)) (atomBytes
       (bits w 48 45)) (atomBytes (bits w 48 45)) permG true, v.inRefresh die y2 = false) :=
  ⟨⟨slotS, 0, 0, (slotW 40 0), by decide +kernel⟩,
    ⟨slotS, 0, 0, (slotW 41 0), by decide +kernel⟩,
    ⟨slotS, 0, 0, (slotW 42 0), by decide +kernel⟩⟩

theorem witness_CommandEngine :
    (∃ (s : Machine.State), ∃ y2 ∈ s.signals.head?, s.dieUp y2.1 = true) ∧
    (∃ (s : Machine.State) (die : ℕ) (core : ℕ), ∃ y4 ∈ List.find? (fun (c : Cmd) => decide (c.core = core)) (s.td die).cmdq, y4.held = false ∧
      s.dieUp die = true ∧ s.accepts die y4 = true) ∧
    (∃ (s : Machine.State) (die : ℕ), isC die = true ∧ s.dieUp die = true ∧ s.dmas = [] ∧ ∃ y2 ∈ takeFirst (fun (e : CmdEnd) => decide ((decide
      (e.die = die) && decide (e.fail = none)) = true)) s.cmdEnds, ∃ y1 ∈ takeFirst (fun (c : Cmd) => decide (c.id = y2.1.id)) (s.td die).sent,
      True) ∧
    (∃ (s : Machine.State) (die : ℕ), isC die = true ∧ s.dieUp die = true ∧ ∃ y7 ∈ takeFirst (fun (e : CmdEnd) => decide ((decide (e.die = die) &&
      decide (e.fail ≠ none)) = true)) s.cmdEnds, ∃ y6 ∈ takeFirst (fun (c : Cmd) => decide (c.id = y7.1.id)) (s.td die).sent, ∃ y5 ∈ y7.1.fail,
      y7.1.recorded = false ∧
     let u := ({ s with cmdEnds := y7.2 }.updTd die fun (t : TideDie) => { t with sent := y6.2 }).logErr die 2 (if y6.1.kind = CmdKind.dma then 16
       else 4) y6.1.core y5 y6.1.target
     (u.td die).itemCmd ≤ y6.1.id ∧ u.running die = true) :=
  ⟨⟨{ R with signals := [(0, 0, 0, 0)] }, by decide +kernel⟩,
    ⟨(R.updTd 0 (fun t => { t with cmdq := [acmd 0] })), 0, 0, by decide +kernel⟩,
    ⟨(withCmd none), 0, by decide +kernel⟩,
    ⟨(withCmd (some 1)), 0, by decide +kernel⟩⟩

theorem witness_SequencerControlCommands :
    (∃ (s : Machine.State) (die : ℕ), isC die = true ∧ s.dieUp die = true ∧ (s.seqState die = seqIDLE ∨ s.seqState die = seqREADY ∨ s.seqState die
      = seqSTOPPED)) ∧
    (∃ (s : Machine.State) (die : ℕ), s.seqState die = seqLOADING ∧
     let base := s.fget die SEQ_IMAGE_BASE.BASE * 4096
     base / 2 ^ 37 ≠ die) ∧
    (∃ (s : Machine.State) (die : ℕ), s.seqState die = seqLOADING ∧
     let base := s.fget die SEQ_IMAGE_BASE.BASE * 4096
     base / 2 ^ 37 = die ∧ s.vaultsFree die (base % 2 ^ 37) 256 = true ∧
     let r4 := s.stackRead die (base % 2 ^ 37) 256 srcRefill
     r4.2.1 = true) ∧
    (∃ (s : Machine.State) (die : ℕ), s.seqState die = seqLOADING ∧
     let base := s.fget die SEQ_IMAGE_BASE.BASE * 4096
     base / 2 ^ 37 = die ∧ s.vaultsFree die (base % 2 ^ 37) 256 = true ∧
     let r5 := s.stackRead die (base % 2 ^ 37) 256 srcRefill;
     let v := r5.2.2.fset die SEQ_LOAD_RESULT.REQ_LEVEL (BitVec.toNat (r5.1.getD 6 0));
     let r3 := v.checkHeader die base r5.1
     r5.2.1 = false ∧ r3.1 ≠ 0) ∧
    (∃ (s : Machine.State) (die : ℕ), s.seqState die = seqLOADING ∧
     let base := s.fget die SEQ_IMAGE_BASE.BASE * 4096
     base / 2 ^ 37 = die ∧ s.vaultsFree die (base % 2 ^ 37) 256 = true ∧
     let r7 := s.stackRead die (base % 2 ^ 37) 256 srcRefill;
     let v := r7.2.2.fset die SEQ_LOAD_RESULT.REQ_LEVEL (BitVec.toNat (r7.1.getD 6 0));
     let r5 := v.checkHeader die base r7.1
     r7.2.1 = false ∧ r5.1 = 0 ∧ s.vaultsFree die (base % 2 ^ 37 + 256) (128 * r5.2.length) = true) ∧
    (∃ (s : Machine.State) (die : ℕ), ∃ y4 ∈ (s.td die).image, s.dieUp die = true ∧ (s.seqState die = seqREADY ∨ s.seqState die = seqSTOPPED) ∧
      s.admissible die y4.coreMap y4.foldable = false) ∧
    (∃ (s : Machine.State) (die : ℕ), ∃ y5 ∈ (s.td die).image, s.dieUp die = true ∧ (s.seqState die = seqREADY ∨ s.seqState die = seqSTOPPED) ∧
      s.admissible die y5.coreMap y5.foldable = true) ∧
    (∃ (s : Machine.State) (die : ℕ), s.running die = true) ∧
    (∃ (die : ℕ) (n : ℕ) (inc : ℕ), isC die = true ∧ n < 16 ∧ inc < 2 ^ 16) :=
  ⟨⟨R, (0), by decide +kernel⟩,
    ⟨(loading 0x7000000), 0, by decide +kernel⟩,
    ⟨((loading 0).fset 0 (MFS_STATUS.STATE.unit 0) 0), 0, by decide +kernel⟩,
    ⟨(loading 0), 0, by decide +kernel⟩,
    ⟨loadOk, 0, by decide +kernel⟩,
    ⟨((seqAt 2 id).fset 0 (TC_STATUS.STATE.unit 0) 3), 0, by decide +kernel⟩,
    ⟨(seqAt 2 id), 0, by decide +kernel⟩,
    ⟨(seqAt 3 id), 0, by decide +kernel⟩,
    ⟨(0), (0), (0), by decide +kernel⟩⟩

theorem witness_CoreFaultAndSlabWindow :
    (∃ (die : ℕ) (core : ℕ), isC die = true ∧ core < 64) ∧
    (∃ (s : Machine.State) (die : ℕ) (core : ℕ) (addr : ℕ) (len : ℕ) (off : ℕ), regionOf addr = Region.slab die core off ∧ off + len ≤ 2 ^ 22 ∧
      s.isFenced die core = false) ∧
    (∃ (s : Machine.State) (die : ℕ) (core : ℕ) (addr : ℕ) (len : ℕ) (off : ℕ), regionOf addr = Region.slab die core off ∧ off + len ≤ 2 ^ 22 ∧
      s.isFenced die core = true) ∧
    (∃ (s : Machine.State) (die : ℕ), ∃ y1 ∈ takeFirst (s.slabFree die) s.slabWait, True) :=
  ⟨⟨(0), (0), by decide +kernel⟩,
    ⟨R, (0), (0), (4398046511104), (0), (0), by decide +kernel⟩,
    ⟨(R.fset 0 (TC_STATUS.STATE.unit 0) 3), 0, 0, 0x40000000000, 8, 0, by decide +kernel⟩,
    ⟨{ R with slabWait := [⟨.lighthouse, 0x40000000000, false, 8, []⟩] }, 0, by decide +kernel⟩⟩

theorem witness_VaultRefresh :
    (∃ (s : Machine.State) (die : ℕ) (v : ℕ), isC die = true ∧ v < 64 ∧ s.dieUp die = true ∧ s.refreshes die v = true ∧
     let d := min 8 (s.fget die (MFS_STATUS.DEBT.unit v) + 1);
     let u := (s.fset die (MFS_STATUS.DEBT.unit v) d).fset die SEQ_REFRESH.PEAK_DEBT (max d (s.fget die SEQ_REFRESH.PEAK_DEBT))
     u.selfPaced die = true) ∧
    (∃ (s : Machine.State) (die : ℕ) (v : ℕ), isC die = true ∧ v < 64 ∧ s.dieUp die = true ∧ s.refreshes die v = true ∧
     let d := min 8 (s.fget die (MFS_STATUS.DEBT.unit v) + 1);
     let u := (s.fset die (MFS_STATUS.DEBT.unit v) d).fset die SEQ_REFRESH.PEAK_DEBT (max d (s.fget die SEQ_REFRESH.PEAK_DEBT))
     u.selfPaced die = false ∧ d < u.debtLimit die) ∧
    (∃ (s : Machine.State) (die : ℕ) (v : ℕ), isC die = true ∧ v < 64 ∧ s.dieUp die = true ∧ s.refreshes die v = true ∧
     let d := min 8 (s.fget die (MFS_STATUS.DEBT.unit v) + 1);
     let u := (s.fset die (MFS_STATUS.DEBT.unit v) d).fset die SEQ_REFRESH.PEAK_DEBT (max d (s.fget die SEQ_REFRESH.PEAK_DEBT))
     u.selfPaced die = false ∧ u.debtLimit die ≤ d ∧ (u.td die).freezeRefresh = false) ∧
    (∃ (s : Machine.State) (die : ℕ) (v : ℕ), (s.vault die v).refreshing = true ∧
     let t := s.updVault die v fun (x : Vault) => { x with refreshing := false };
     let u := if t.vState die v = vSELFREF then t.fset die (MFS_STATUS.STATE.unit v) vACTIVE else t
     u.selfPaced die = false) ∧
    (∃ (s : Machine.State) (die : ℕ) (v : ℕ), (s.vault die v).refreshing = true ∧
     let t := s.updVault die v fun (x : Vault) => { x with refreshing := false };
     let u := if t.vState die v = vSELFREF then t.fset die (MFS_STATUS.STATE.unit v) vACTIVE else t
     u.selfPaced die = true ∧ u.refreshes die v = true) ∧
    (∃ (s : Machine.State) (die : ℕ) (v : ℕ), isC die = true ∧ v < 64 ∧ s.dieUp die = true ∧ s.vState die v = vSELFREF) :=
  ⟨⟨R, (0), (0), by decide +kernel⟩,
    ⟨(R.fset 0 SEQ_STATUS.STATE 3), 0, 0, by decide +kernel⟩,
    ⟨((R.fset 0 SEQ_STATUS.STATE 3).fset 0 SEQ_REFRESH.DEBT_LIMIT 1), 0, 0, by decide +kernel⟩,
    ⟨(R.fset 0 SEQ_STATUS.STATE 3).updVault 0 0 (fun x => { x with refreshing := true }), 0, 0, by decide +kernel⟩,
    ⟨(R.updVault 0 0 (fun x => { x with refreshing := true })), 0, 0, by decide +kernel⟩,
    ⟨(R.fset 0 (MFS_STATUS.STATE.unit 0) vSELFREF), 0, 0, by decide +kernel⟩⟩

theorem witness_VaultAccess :
    (∃ (die : ℕ) (addr : ℕ) (o : ℕ), regionOf addr = Region.stack die o) ∧
    (∃ (s : Machine.State) (die : ℕ) (v : ℕ), ∃ y6 ∈ (s.vault die v).waiting.head?, s.vaultFree die v = true ∧ s.vaultsFree die (y6.addr % 2 ^ 37)
      y6.len = true ∧ s.glzHoldsAny die (y6.addr % 2 ^ 37) y6.len = false ∧ y6.write = true) ∧
    (∃ (s : Machine.State) (die : ℕ) (v : ℕ), ∃ y7 ∈ (s.vault die v).waiting.head?, s.vaultFree die v = true ∧ s.vaultsFree die (y7.addr % 2 ^ 37)
      y7.len = true ∧ s.glzHoldsAny die (y7.addr % 2 ^ 37) y7.len = false ∧ y7.write = false) ∧
    (∃ (s : Machine.State) (die : ℕ) (v : ℕ), isQ die = true ∧ v < 32 ∧ s.dieUp die = true) ∧
    (∃ (s : Machine.State) (die : ℕ) (v : ℕ), isQ die = false ∧ ∃ y2 ∈ (s.vault die v).rewrite.head?, s.vaultFree die v = true) ∧
    (∃ (s : Machine.State) (die : ℕ) (v : ℕ), isC die = true ∧ v < 64 ∧ s.fbit die (MFS_CTRL.SCRUB_EN.unit v) = true ∧ s.vState die v = vACTIVE ∧
      s.vaultFree die v = true ∧
     let blk := (s.vault die v).scrub;
     let r2 := s.readBlock die v blk srcScrub
     r2.1.uncorr.any id = true) ∧
    (∃ (s : Machine.State) (die : ℕ) (v : ℕ), isC die = true ∧ v < 64 ∧ s.fbit die (MFS_CTRL.SCRUB_EN.unit v) = true ∧ s.vState die v = vACTIVE ∧
      s.vaultFree die v = true ∧
     let blk := (s.vault die v).scrub;
     let r3 := s.readBlock die v blk srcScrub
     r3.1.uncorr.any id = false ∧ encodeBlock (r3.2.isCrumb die v blk) (List.map BitVec.toNat r3.1.bytes) r3.1.poison ≠ List.take 144
       (r3.2.rawBlock die v blk)) :=
  ⟨⟨(0), (0), (0), by decide +kernel⟩,
    ⟨(vaultIs (fun x => { x with waiting := [dreq true] })), 0, 0, by decide +kernel⟩,
    ⟨(vaultIs (fun x => { x with waiting := [dreq false] })), 0, 0, by decide +kernel⟩,
    ⟨R, (4), (0), by decide +kernel⟩,
    ⟨(vaultIs (fun x => { x with rewrite := [0] })), 0, 0, by decide +kernel⟩,
    ⟨{ ((vaultOn R).fset 0 (MFS_CTRL.SCRUB_EN.unit 0) 1) with stack := memWriteN [] 144 [2] }, 0, 0, by decide +kernel⟩,
    ⟨{ ((vaultOn R).fset 0 (MFS_CTRL.SCRUB_EN.unit 0) 1) with stack := memWrite [] 3 1 }, 0, 0, by decide +kernel⟩⟩

theorem witness_VaultControl :
    (∃ (s : Machine.State) (die : ℕ) (v : ℕ), isC die = true ∧ v < 64 ∧ (s.vState die v = vACTIVE ∨ s.vState die v = vSELFREF) ∧ (s.vault die
      v).walking = false) ∧
    (∃ (s : Machine.State) (die : ℕ) (v : ℕ), isC die = true ∧ (s.vault die v).walking = true ∧ s.txns = [] ∧ s.dirOf (Home.vault die v) = []) ∧
    (∃ (s : Machine.State) (die : ℕ) (v : ℕ), isC die = true ∧ v < 64 ∧ s.dieUp die = true ∧ (s.vState die v = vUNINIT ∨ s.vState die v = vACTIVE
      ∧ s.seqState die = seqIDLE)) ∧
    (∃ (s : Machine.State) (die : ℕ) (v : ℕ), (s.vault die v).initing = true ∧ s.fbit die (MFS_INJECT.ARM.unit v) = false) ∧
    (∃ (die : ℕ) (v : ℕ), isC die = true ∧ v < 64) ∧
    (∃ (s : Machine.State) (die : ℕ) (temps : List ℕ), isC die = true ∧ s.dieUp die = true ∧
     let ts := List.map (fun (i : ℕ) => temps.getD i 0 % 256) (List.range 8);
     let hot := List.foldl max 0 ts
     84 ≤ hot ∧ hot < 95) ∧
    (∃ (s : Machine.State) (die : ℕ) (temps : List ℕ), isC die = true ∧ s.dieUp die = true ∧
     let ts := List.map (fun (i : ℕ) => temps.getD i 0 % 256) (List.range 8);
     let hot := List.foldl max 0 ts
     84 ≤ hot ∧ 95 ≤ hot) :=
  ⟨⟨(vaultOn R), 0, 0, by decide +kernel⟩,
    ⟨(vaultIs (fun x => { x with walking := true })), 0, 0, by decide +kernel⟩,
    ⟨R, (0), (0), by decide +kernel⟩,
    ⟨(vaultIs (fun x => { x with initing := true })), 0, 0, by decide +kernel⟩,
    ⟨(0), (0), by decide +kernel⟩,
    ⟨R, 0, [85], by decide +kernel⟩,
    ⟨R, 0, [96], by decide +kernel⟩⟩

theorem witness_GlazeOperations :
    (∃ (s : Machine.State) (die : ℕ) (v : ℕ) (ws : List (ℕ × List Byte × Bool)) (old : ℕ) (i : Instr), isC die = true ∧ v < 64 ∧ ∃ y11 ∈
      s.glzFront die v, y11.ready = false ∧ y11.stroke < y11.strokes ∧ (i, y11.gop) ∈ [(Instr.fill die v, 0), (Instr.copy die v, 1), (Instr.accum
      die v, 2), (Instr.scaleAdd die v, 3), (Instr.optStep die v, 4), (Instr.kvAppend die v, 5), (Instr.gatherCompact die v, 6), (Instr.topk die
      v, 7)] ∧ List.flatMap (fun (p : ℕ × ℕ) => y11.lacks p.1 p.2) (s.glzReads y11) = [] ∧
     let r6 := s.glzCompute die v y11
     r6.1 = GlzStep.ok ws old ∧ (ws.any fun (w : ℕ × List Byte × Bool) => w.2.2) = false ∧
     let d := if y11.gop = 6 then { y11 with total := old } else y11
     r6.2.writeWait die v y11.key ws = none ∧ r6.2.rowWait die (r6.2.rowPieces die v d) = none ∧ y11.key ≠ none) ∧
    (∃ (s : Machine.State) (die : ℕ) (v : ℕ) (ws : List (ℕ × List Byte × Bool)) (old : ℕ) (i : Instr), isC die = true ∧ v < 64 ∧ ∃ y13 ∈
      s.glzFront die v, y13.ready = false ∧ y13.stroke < y13.strokes ∧ (i, y13.gop) ∈ [(Instr.fill die v, 0), (Instr.copy die v, 1), (Instr.accum
      die v, 2), (Instr.scaleAdd die v, 3), (Instr.optStep die v, 4), (Instr.kvAppend die v, 5), (Instr.gatherCompact die v, 6), (Instr.topk die
      v, 7)] ∧ List.flatMap (fun (p : ℕ × ℕ) => y13.lacks p.1 p.2) (s.glzReads y13) = [] ∧
     let r8 := s.glzCompute die v y13
     r8.1 = GlzStep.ok ws old ∧ (ws.any fun (w : ℕ × List Byte × Bool) => w.2.2) = false ∧
     let d := if y13.gop = 6 then { y13 with total := old } else y13
     r8.2.writeWait die v y13.key ws = none ∧ r8.2.rowWait die (r8.2.rowPieces die v d) = none ∧ y13.key = none ∧ ((r8.2.rowPieces die v d).any
       fun (r : ℕ × ℕ) => r8.2.stageClash die v none r.1 rowPiece) = false ∧ glzShadowed y13.gop = true) ∧
    (∃ (s : Machine.State) (die : ℕ) (v : ℕ) (ws : List (ℕ × List Byte × Bool)) (old : ℕ) (i : Instr), isC die = true ∧ v < 64 ∧ ∃ y14 ∈
      s.glzFront die v, y14.ready = false ∧ y14.stroke < y14.strokes ∧ (i, y14.gop) ∈ [(Instr.fill die v, 0), (Instr.copy die v, 1), (Instr.accum
      die v, 2), (Instr.scaleAdd die v, 3), (Instr.optStep die v, 4), (Instr.kvAppend die v, 5), (Instr.gatherCompact die v, 6), (Instr.topk die
      v, 7)] ∧ List.flatMap (fun (p : ℕ × ℕ) => y14.lacks p.1 p.2) (s.glzReads y14) = [] ∧
     let r9 := s.glzCompute die v y14
     r9.1 = GlzStep.ok ws old ∧ (ws.any fun (w : ℕ × List Byte × Bool) => w.2.2) = false ∧
     let d := if y14.gop = 6 then { y14 with total := old } else y14
     r9.2.writeWait die v y14.key ws = none ∧ r9.2.rowWait die (r9.2.rowPieces die v d) = none ∧ y14.key = none ∧ ((r9.2.rowPieces die v d).any
       fun (r : ℕ × ℕ) => r9.2.stageClash die v none r.1 rowPiece) = false ∧ glzShadowed y14.gop = false ∧
     let r1 := r9.2.glzWrites die v none ws
     r1.2 = none) :=
  ⟨⟨(unitWith (fun c => { c with key := some (1, 1) })), 0, 0, (wsOf (unitWith id) id), 0, (Instr.fill 0 0), by decide +kernel⟩,
    ⟨(unitWith gaccum), 0, 0, (wsOf (unitWith gaccum) gaccum), 0, (Instr.accum 0 0), by decide +kernel⟩,
    ⟨(unitWith id), 0, 0, (wsOf (unitWith id) id), 0, (Instr.fill 0 0), by decide +kernel⟩⟩

theorem witness_GlazeProgress :
    (∃ (s : Machine.State) (die : ℕ) (v : ℕ), isC die = true ∧ v < 64 ∧ s.dieUp die = true ∧ s.resuming die v = false) ∧
    (∃ (s : Machine.State) (die : ℕ) (v : ℕ) (p : ℕ), (s.glzUnit die v).cmds.length < 64 ∧ ∃ y3 ∈ takeFirst (fun (c : GlzCmd) => decide (c.port =
      p)) (s.glzUnit die v).coming,
     let u := s.updGlz die v fun (x : GlzUnit) => { x with coming := y3.2 }
     u.glzCheck die v y3.1 = none) ∧
    (∃ (s : Machine.State) (die : ℕ) (v : ℕ), isC die = true ∧ v < 64 ∧ ∃ y7 ∈ s.glzFront die v, y7.ready = true ∧ y7.gop ≠ 8 ∧ s.vaultFree die v
      = true ∧ y7.key = none ∧ glzShadowed y7.gop = false) ∧
    (∃ (s : Machine.State) (die : ℕ) (v : ℕ), isC die = true ∧ v < 64 ∧ ∃ y8 ∈ s.glzFront die v, y8.ready = true ∧ y8.gop ≠ 8 ∧ s.vaultFree die v
      = true ∧ (y8.key ≠ none ∨ glzShadowed y8.gop = true) ∧ (y8.held = true ∨ s.writeWait die v y8.key (cleanWrites y8.writes) = none) ∧
     let r1 := s.glzWrites die v y8.key (cleanWrites y8.writes)
     r1.2 = none) ∧
    (∃ (s : Machine.State) (die : ℕ) (v : ℕ), isC die = true ∧ v < 64 ∧ ∃ y3 ∈ s.glzFront die v, y3.ready = false ∧ y3.strokes ≤ y3.stroke) :=
  ⟨⟨R, (0), (0), by decide +kernel⟩,
    ⟨(unitWith id).updGlz 0 0 (fun u => { u with cmds := [], coming := [gfill id] }), 0, 0, 0, by decide +kernel⟩,
    ⟨(unitWith (fun c => { c with ready := true })), 0, 0, by decide +kernel⟩,
    ⟨(unitWith (fun c => { c with ready := true, key := some (1, 1) })), 0, 0, by decide +kernel⟩,
    ⟨(unitWith (fun c => { c with stroke := 1 })), 0, 0, by decide +kernel⟩⟩

theorem witness_GlazeAreaAndApply :
    (∃ (s : Machine.State) (die : ℕ) (v : ℕ) (base : ℕ) (size : ℕ) (discard : Bool), isC die = true ∧ v < 64 ∧ s.fget die (GLZ_STATUS.HELD.unit v)
      = 0 ∧ s.fget die (GLZ_STATUS.STAGE_USED.unit v) = 0 ∧ 2 ≤ size ∧ size ≤ 256 ∧ base + size ≤ 2048 ∧ discard = true) ∧
    (∃ (s : Machine.State) (die : ℕ) (v : ℕ) (base : ℕ) (size : ℕ) (discard : Bool), isC die = true ∧ v < 64 ∧ s.fget die (GLZ_STATUS.HELD.unit v)
      = 0 ∧ s.fget die (GLZ_STATUS.STAGE_USED.unit v) = 0 ∧ 2 ≤ size ∧ size ≤ 256 ∧ base + size ≤ 2048 ∧
     let u := (s.updVault die v fun (x : Vault) => { x with dirOn := false }).fsets die [(GLZ_AREA.VALID.unit v, 1), (GLZ_AREA.MODE.unit v, b2n
       discard), (GLZ_AREA.SIZE.unit v, size), (GLZ_AREA.BASE.unit v, base)];
     let w := u.fset die (GLZ_STATUS.STATE.unit v) (if u.vState die v = vFENCED then 2 else 1)
     discard = false ∧ (w.glzUnit die v).area = some (base, size)) ∧
    (∃ (s : Machine.State) (die : ℕ) (v : ℕ), isC die = true ∧ v < 64 ∧ s.dieUp die = true ∧ s.resuming die v = true ∧ s.vState die v ≠ vSELFREF) ∧
    (∃ (s : Machine.State) (die : ℕ), isC die = true ∧ s.fbit die GLZ_APPLY.BUSY = false) ∧
    (∃ (s : Machine.State) (die : ℕ), isC die = true ∧ s.dieUp die = true ∧ s.fbit die GLZ_APPLY.BUSY = true ∧
     let r1 := s.applyUnits die
     r1.2 = false) :=
  ⟨⟨R, (0), (0), (0), (4), (true), by decide +kernel⟩,
    ⟨(vaultOn R).updGlz 0 0 (fun u => { u with area := some (4, 2) }), 0, 0, 4, 2, false, by decide +kernel⟩,
    ⟨((vaultOn R).fset 0 (GLZ_STATUS.RESUMING.unit 0) 1), 0, 0, by decide +kernel⟩,
    ⟨R, (0), by decide +kernel⟩,
    ⟨((vaultOn R).fset 0 GLZ_APPLY.BUSY 1), 0, by decide +kernel⟩⟩

theorem witness_RequestsReachTheirHome :
    (∃ (s : Machine.State) (agent : ℕ) (line : ℕ) (data : List Byte) (mask : ℕ) (poison : Bool) (i : Instr) (k : MsgKind) (write : Bool) (d : List
      Byte) (mk : ℕ) (p : Bool), data.length = 64 ∧ mask < 2 ^ 64 ∧ (i, k, write, d, mk, p) ∈ [(Instr.rdS agent line, MsgKind.rdS, false,
      List.replicate 64 0, 0, false), (Instr.rdE agent line, MsgKind.rdE, true, List.replicate 64 0, 0, false), (Instr.rdNc agent line,
      MsgKind.rdNc, false, List.replicate 64 0, 0, false), (Instr.wrInv agent line data mask poison, MsgKind.wrInv, true, data, mask, poison),
      (Instr.wrWt agent line data mask poison, MsgKind.wrWt, true, data, mask, poison)] ∧ (agent < 7 ∨ 8 < agent) ∧ s.vwrInv = [] ∧ s.anyMsg k
      agent line = none) ∧
    (∃ (s : Machine.State) (agent : ℕ) (line : ℕ) (data : List Byte) (mask : ℕ) (k : MsgKind), data.length = 64 ∧ mask < 2 ^ 64 ∧ k ∈
      [MsgKind.rdS, MsgKind.rdE, MsgKind.rdNc, MsgKind.wrWt] ∧ s.heldBack k agent line = false ∧ ∃ y1 ∈ s.anyMsg k agent line, True) :=
  ⟨⟨R, 0, 0, (List.replicate 64 0), 0, false, (Instr.rdS 0 0), MsgKind.rdS, false, (List.replicate 64 0), 0, false, by decide +kernel⟩,
    ⟨(net1 .rdS), 0, 0, (List.replicate 64 0), 0, MsgKind.rdS, by decide +kernel⟩⟩

theorem witness_HomeServesByTheTable :
    (∃ (s : Machine.State) (t : Txn),
     let a := t.req.agent;
     let line := t.req.line
     a < 6 ∧ s.caches_ t.req = true ∧ t.req.kind = MsgKind.rdS ∧ entryOf s line = { owned := false, sharers := 0, way := 0 }) ∧
    (∃ (s : Machine.State) (t : Txn),
     let a := t.req.agent;
     let line := t.req.line
     a < 6 ∧ s.caches_ t.req = true ∧ t.req.kind = MsgKind.rdS ∧ (entryOf s line).owned = false ∧ List.filter (fun (x : ℕ) => decide (x ≠ a))
       (agentsOf (entryOf s line).sharers) ≠ []) ∧
    (∃ (s : Machine.State) (t : Txn),
     let a := t.req.agent;
     let line := t.req.line
     a < 6 ∧ s.caches_ t.req = true ∧ t.req.kind = MsgKind.rdS ∧ (entryOf s line).owned = true ∧ List.filter (fun (x : ℕ) => decide (x ≠ a))
       (agentsOf (entryOf s line).sharers) ≠ []) ∧
    (∃ (s : Machine.State) (t : Txn),
     let a := t.req.agent
     a < 6 ∧ s.caches_ t.req = true ∧ t.req.kind = MsgKind.rdE) ∧
    (∃ (s : Machine.State) (t : Txn),
     let a := t.req.agent;
     let line := t.req.line
     a < 6 ∧ s.caches_ t.req = true ∧ t.req.kind = MsgKind.rdNc ∧ (entryOf s line).owned = false) ∧
    (∃ (s : Machine.State) (t : Txn),
     let a := t.req.agent;
     let line := t.req.line
     a < 6 ∧ s.caches_ t.req = true ∧ (t.req.kind = MsgKind.wrWt ∨ t.req.kind = MsgKind.wrInv) ∧ bitOf (entryOf s line).sharers a = false) :=
  ⟨⟨(shelfS ⟨false, 0, 0⟩), (txn .rdS 0 (2^33)), by decide +kernel⟩,
    ⟨(shelfS ⟨false, 2, 0⟩), (txn .rdS 0 (2^33)), by decide +kernel⟩,
    ⟨(shelfS ⟨true, 2, 0⟩), (txn .rdS 0 (2^33)), by decide +kernel⟩,
    ⟨(shelfS ⟨false, 0, 0⟩), (txn .rdE 0 (2^33)), by decide +kernel⟩,
    ⟨(shelfS ⟨false, 0, 0⟩), (txn .rdNc 0 (2^33)), by decide +kernel⟩,
    ⟨(shelfS ⟨false, 0, 0⟩), (txn .wrWt 0 (2^33)), by decide +kernel⟩⟩

theorem witness_HomeReceives :
    (∃ (s : Machine.State) (agent : ℕ) (line : ℕ), ∃ y2 ∈ s.takeMsg MsgKind.wb agent line, y2.2.dieUp (y2.2.homeOf line).die = true) ∧
    (∃ (s : Machine.State) (agent : ℕ) (line : ℕ), ∃ y2 ∈ s.takeMsg MsgKind.wbSnp agent line, y2.2.dieUp (y2.2.homeOf line).die = true) ∧
    (∃ (s : Machine.State) (agent : ℕ) (line : ℕ), ∃ y2 ∈ s.takeMsg MsgKind.evict agent line, y2.2.dieUp (y2.2.homeOf line).die = true) ∧
    (∃ (s : Machine.State) (agent : ℕ) (line : ℕ), ∃ y1 ∈ s.takeMsg MsgKind.rspI agent line, True) ∧
    (∃ (s : Machine.State) (agent : ℕ) (line : ℕ), ∃ y1 ∈ s.takeMsg MsgKind.rspS agent line, True) ∧
    (∃ (s : Machine.State) (agent : ℕ) (line : ℕ), ∃ y1 ∈ s.takeMsg MsgKind.rspIWb agent line, True) :=
  ⟨⟨(net1 .wb), 0, 0, by decide +kernel⟩,
    ⟨(net1 .wbSnp), 0, 0, by decide +kernel⟩,
    ⟨(net1 .evict), 0, 0, by decide +kernel⟩,
    ⟨(net1 .rspI), 0, 0, by decide +kernel⟩,
    ⟨(net1 .rspS), 0, 0, by decide +kernel⟩,
    ⟨(net1 .rspIWb), 0, 0, by decide +kernel⟩⟩

theorem witness_CacheReceives :
    (∃ (s : Machine.State) (agent : ℕ) (line : ℕ), isCacheAgent agent = true ∧ ∃ y2 ∈ s.takeMsg MsgKind.snpDown agent line, y2.2.dieUp (cacheDie
      agent) = true) ∧
    (∃ (s : Machine.State) (agent : ℕ) (line : ℕ), isCacheAgent agent = true ∧ ∃ y2 ∈ s.takeMsg MsgKind.snpInv agent line, y2.2.dieUp (cacheDie
      agent) = true) ∧
    (∃ (s : Machine.State) (agent : ℕ) (line : ℕ), isCacheAgent agent = true ∧ ∃ y1 ∈ s.takeMsg MsgKind.datS agent line, True) ∧
    (∃ (s : Machine.State) (agent : ℕ) (line : ℕ), isCacheAgent agent = true ∧ ∃ y1 ∈ s.takeMsg MsgKind.datE agent line, True) ∧
    (∃ (s : Machine.State) (agent : ℕ) (line : ℕ), isCacheAgent agent = true ∧ ∃ y6 ∈ s.takeMsg MsgKind.datNc agent line, ∃ y5 ∈ y6.2.mshrs.head?,
      y6.2.mshrs.tail = [] ∧ y5.agent = agent ∧ y5.line = line ∧ y5.sent = true ∧ y5.nc = true) ∧
    (∃ (s : Machine.State) (agent : ℕ) (line : ℕ), isCacheAgent agent = true ∧ ∃ y2 ∈ s.takeMsg MsgKind.grantE agent line, ∃ y1 ∈ y2.2.held agent
      line, True) ∧
    (∃ (s : Machine.State) (agent : ℕ) (line : ℕ), isCacheAgent agent = true ∧ ∃ y1 ∈ s.takeMsg MsgKind.cmp agent line, True) ∧
    (∃ (s : Machine.State) (agent : ℕ) (line : ℕ), isCacheAgent agent = true ∧ ∃ y3 ∈ s.takeMsg MsgKind.wback agent line,
     let u := (y3.2.updCache agent fun (c : Machine.Cache) => { c with wb := mapErase c.wb line }.rangeAck line).drainMerge agent fun (e :
       MergeEnt) => decide (e.line = line) && e.due
     u.mshrs = []) :=
  ⟨⟨(net1 .snpDown), 0, 0, by decide +kernel⟩,
    ⟨(net1 .snpInv), 0, 0, by decide +kernel⟩,
    ⟨(net1 .datS), 0, 0, by decide +kernel⟩,
    ⟨(net1 .datE), 0, 0, by decide +kernel⟩,
    ⟨{ net1 .datNc with mshrs := [mshr true] }, 0, 0, by decide +kernel⟩,
    ⟨(holds .s (net1 .grantE)), 0, 0, by decide +kernel⟩,
    ⟨(net1 .cmp), 0, 0, by decide +kernel⟩,
    ⟨(net1 .wback), 0, 0, by decide +kernel⟩⟩

theorem witness_CacheCommands :
    (∃ (s : Machine.State) (agent : ℕ), ∃ y1 ∈ (s.cache agent).merge.head?, True) ∧
    (∃ (s : Machine.State) (agent : ℕ), isCacheAgent agent = true ∧ s.fbit (cacheDie agent) (s.cacheRef agent CACHE_PF_CTRL.STRIDE_EN) = true ∧ ∃
      y5 ∈ (s.cache agent).streams.head?, (s.cache agent).streams.tail = [] ∧ 3 ≤ y5.count ∧ 0 < y5.stride ∧
     let l := ((y5.last : Int) + (max 1 (s.fget (cacheDie agent) (s.cacheRef agent CACHE_PF_CTRL.DIST)) : Nat)).toNat
     s.prefetchable agent l = true) ∧
    (∃ (s : Machine.State) (hart : ℕ) (addr : ℕ), hart < 64 ∧ addr < 2 ^ 44 ∧ s.fbit (cacheDie (hart / 32)) (s.cacheRef (hart / 32)
      CACHE_PF_CTRL.ZICBOP_EN) = true) ∧
    (∃ (s : Machine.State) (agent : ℕ), isCacheAgent agent = true ∧ s.fbit (cacheDie agent) (s.cacheRef agent CACHE_RNG_OP.BUSY) = false) ∧
    (∃ (s : Machine.State) (agent : ℕ), ∃ y3 ∈ (s.cache agent).rng, y3.waits = [] ∧ y3.later = []) ∧
    (∃ (s : Machine.State) (agent : ℕ), isCacheAgent agent = true ∧ s.cacheOn agent = true ∧
     let u := List.foldl (fun (t : Machine.State) (l : ℕ) => t.dropLine agent l) (s.drainMerge agent fun (_ : MergeEnt) => true) (List.map (fun (x
       : ℕ × CLine) => x.1) ((s.drainMerge agent fun (_ : MergeEnt) => true).cache agent).side)
     List.filter (fun (e : ℕ × CLine) => decide (e.2.st = LineSt.m)) (u.cache agent).lines = []) ∧
    (∃ (agent : ℕ), isCacheAgent agent = true) :=
  ⟨⟨(R.updCache 0 (fun c => { c with merge := [⟨0, List.replicate 64 0, 1, [0], false⟩] })), 0, by decide +kernel⟩,
    ⟨((((vaultOn R).fset (cacheDie 0) (R.cacheRef 0 CACHE_PF_CTRL.STRIDE_EN) 1).fset (cacheDie 0) (R.cacheRef 0 CACHE_CTRL.ENABLE) 1)).updCache 0
      (fun c => { c with streams := [⟨0, 0, 1, 3⟩] }), 0, by decide +kernel⟩,
    ⟨R, (0), (0), by decide +kernel⟩,
    ⟨R, (0), by decide +kernel⟩,
    ⟨(R.updCache 0 (fun c => { c with rng := some ⟨[], 0, false, []⟩ })), 0, by decide +kernel⟩,
    ⟨(R.fset (cacheDie 0) (R.cacheRef 0 CACHE_CTRL.ENABLE) 1), 0, by decide +kernel⟩,
    ⟨(0), by decide +kernel⟩⟩

theorem witness_TablesAndLinks :
    (∃ (s : Machine.State), s.fbit shDie PKG_RAT_CTRL.BUSY = false) ∧
    (∃ (s : Machine.State), s.fbit shDie PKG_RAT_CTRL.BUSY = true) ∧
    (∃ (s : Machine.State) (q : ℕ), isQ q = true ∧ s.dieUp q = true ∧
     let t := { s with iommuGen := mapSet s.iommuGen q (s.iommuAt q + 1) }.updIommu q fun (x : Iommu) => { x with kept := [] }
     t.iomHeadInv q = false) ∧
    (∃ (s : Machine.State) (q : ℕ), isQ q = true ∧ s.dieUp q = true ∧
     let t := { s with iommuGen := mapSet s.iommuGen q (s.iommuAt q + 1) }.updIommu q fun (x : Iommu) => { x with kept := [] }
     t.iomHeadInv q = true) ∧
    (∃ (s : Machine.State) (die : ℕ) (router : ℕ) (port : ℕ) (again : Bool), isC die = true ∧ s.dieUp die = true ∧ allLinks.contains (router,
      port) = true ∧ s.linkDown die (router, port) = false ∧
     let key := die * 256 + router * 4 + port;
     let n := s.nakCount key again
     n < 16) ∧
    (∃ (s : Machine.State) (die : ℕ) (router : ℕ) (port : ℕ) (again : Bool), isC die = true ∧ s.dieUp die = true ∧ allLinks.contains (router,
      port) = true ∧ s.linkDown die (router, port) = false ∧
     let key := die * 256 + router * 4 + port;
     let n := s.nakCount key again
     16 ≤ n) ∧
    (∃ (s : Machine.State) (a : ℕ) (b : ℕ) (sub : ℕ) (again : Bool), linkBlks a b ≠ [] ∧ s.linkState a b = jUP ∧ s.dieUp a = true ∧ s.dieUp b =
      true ∧
     let key := 2 ^ 16 + (a * 8 + b) * 8 + sub % 8;
     let n := s.nakCount key again
     n < 32) ∧
    (∃ (s : Machine.State) (a : ℕ) (b : ℕ) (sub : ℕ) (again : Bool), linkBlks a b ≠ [] ∧ s.linkState a b = jUP ∧ s.dieUp a = true ∧ s.dieUp b =
      true ∧
     let key := 2 ^ 16 + (a * 8 + b) * 8 + sub % 8;
     let n := s.nakCount key again
     32 ≤ n ∧ ∃ y1 ∈ linkHome a b, True) ∧
    (∃ (s : Machine.State) (die : ℕ) (peer : ℕ), ∃ y7 ∈ jtyBlk die peer, s.linkState die peer = jALIGNING ∧ linkBlks die peer ≠ [] ∧ s.dieUp die =
      true ∧ s.dieUp peer = true ∧
     let u := s.fsets die [(JTY_STATUS.PEER_LEVEL.inBlk y7, (Config.revlevel peer).toNat), (JTY_STATUS.PEER_DIE.inBlk y7, peer)]
     u.links.ups.contains (peer, die) = false) ∧
    (∃ (s : Machine.State) (die : ℕ) (peer : ℕ), ∃ y8 ∈ jtyBlk die peer, s.linkState die peer = jALIGNING ∧ linkBlks die peer ≠ [] ∧ s.dieUp die =
      true ∧ s.dieUp peer = true ∧
     let u := s.fsets die [(JTY_STATUS.PEER_LEVEL.inBlk y8, (Config.revlevel peer).toNat), (JTY_STATUS.PEER_DIE.inBlk y8, peer)]
     u.links.ups.contains (peer, die) = true ∧ ∃ y1 ∈ rateEnd die peer, True) ∧
    (∃ (s : Machine.State) (die : ℕ) (link : ℕ), ∃ y5 ∈ linkPeer die link, isC die = true ∧ s.dieUp die = true ∧ link < 3 ∧ s.linkState die y5 =
      jFAILED) :=
  ⟨⟨R, by decide +kernel⟩,
    ⟨(R.fset shDie PKG_RAT_CTRL.BUSY 1), by decide +kernel⟩,
    ⟨R, (4), by decide +kernel⟩,
    ⟨(slabQ 0 [1] (hqS (fun s => s.fsets 4 [(IOM_QCSR0.CQON, 1), (IOM_CQHT.TAIL, 1), (IOM_CQB.PPN, 2 ^ 30)]))), 4, by decide +kernel⟩,
    ⟨R, (0), (0), (1), (true), by decide +kernel⟩,
    ⟨(lk (fun l => { l with nakRun := [(0 * 256 + 9 * 4 + 1, 20), (2 ^ 16 + (0 * 8 + 1) * 8, 40)] })), 0, 9, 1, true, by decide +kernel⟩,
    ⟨((lk (fun l => { l with nakRun := [(2 ^ 16 + (0 * 8 + 1) * 8, 40)] })).fset 0 (JTY_STATUS.STATE.inBlk 0x290) jUP), 0, 1, 0, false,
      by decide +kernel⟩,
    ⟨((lk (fun l => { l with nakRun := [(2 ^ 16 + (0 * 8 + 1) * 8, 40)] })).fset 0 (JTY_STATUS.STATE.inBlk 0x290) jUP), 0, 1, 0, true,
      by decide +kernel⟩,
    ⟨(R.fset 0 (JTY_STATUS.STATE.inBlk 0x290) jALIGNING), 0, 1, by decide +kernel⟩,
    ⟨((lk (fun l => { l with ups := [(1, 0)] })).fset 0 (JTY_STATUS.STATE.inBlk 0x290) jALIGNING), 0, 1, by decide +kernel⟩,
    ⟨(R.fset 0 (JTY_STATUS.STATE.inBlk 0x290) jFAILED), 0, 0, by decide +kernel⟩⟩

theorem witness_DieStopsAndReturns :
    (∃ (s : Machine.State) (die : ℕ), isC die = true ∧ s.dieUp die = true) ∧
    (∃ (s : Machine.State) (die : ℕ), isC die = true ∧ mapGet 0 s.dieMode die = 1) ∧
    (∃ (s : Machine.State) (die : ℕ), isC die = true ∧ mapGet 0 s.dieMode die = 2) ∧
    (∃ (ref : ℕ), ref = 6 ∨ ref = 7) ∧
    (∃ (s : Machine.State) (die : ℕ), isC die = true ∧ mapGet 0 s.dieMode die ≠ 1 ∧ s.dieUp die = true) ∧
    (∃ (s : Machine.State) (die : ℕ), isQ die = true ∧ s.dieUp die = true) ∧
    (∃ (s : Machine.State) (die : ℕ) (peer : ℕ), s.links.notices.contains (peer, die) = true ∧ s.dieUp die = true) ∧
    (∃ (s : Machine.State) (die : ℕ) (peer : ℕ), ∃ y7 ∈ linkHome die peer, ∃ y6 ∈ jtyBlk die peer, s.dieUp die = true ∧ s.dieUp peer = false ∧
      s.links.notices.contains (peer, die) = false ∧ s.links.fenced.contains (die, peer) = false ∧ s.fget die (JTY_STATUS.STATE.inBlk y6) ≠ jDOWN) :=
  ⟨⟨R, (0), by decide +kernel⟩,
    ⟨{ R with dieMode := [(0, 1)] }, 0, by decide +kernel⟩,
    ⟨{ R with dieMode := [(0, 2)] }, 0, by decide +kernel⟩,
    ⟨6, by decide +kernel⟩,
    ⟨R, (0), by decide +kernel⟩,
    ⟨R, (4), by decide +kernel⟩,
    ⟨(lk (fun l => { l with notices := [(4, 0)] })), 0, 4, by decide +kernel⟩,
    ⟨{ (R.fset 0 (JTY_STATUS.STATE.inBlk 0x292) jUP) with dieMode := [(4, 3)] }, 0, 4, by decide +kernel⟩⟩

theorem witness_HartAccesses :
    (∃ (s : Machine.State) (hart : ℕ) (addr : ℕ) (pbmt : ℕ) (len : ℕ), s.hartRuns hart = true ∧ s.fencedKind hart (isMemKind addr && decide (pbmt
      ≠ 2)) false = false ∧ 0 < len ∧ len ≤ 64 ∧ (decide (addr < 2 ^ 44) && isRegRange addr) = false ∧ s.issuable addr len = true ∧ addr % 64 +
      len ≤ 64) ∧
    (∃ (s : Machine.State) (hart : ℕ) (addr : ℕ) (pbmt : ℕ), s.hartRuns hart = true ∧ s.fencedKind hart (isMemKind addr && decide (pbmt ≠ 2))
      false = false ∧ isRegRange addr = true ∧ addr < 2 ^ 44 ∧ addr % 8 = 0 ∧ s.regStores hart addr = false) ∧
    (∃ (s : Machine.State) (hart : ℕ) (addr : ℕ) (pbmt : ℕ) (data : List Byte), s.hartRuns hart = true ∧ s.fencedKind hart (isMemKind addr &&
      decide (pbmt ≠ 2)) true = false ∧ 0 < data.length ∧ data.length ≤ 64 ∧ (decide (addr < 2 ^ 44) && isRegRange addr) = false ∧ s.issuable addr
      data.length = true ∧ (decide (addr < 2 ^ 44) && s.fencedSlab addr) = false) ∧
    (∃ (s : Machine.State) (hart : ℕ) (id : ℕ), ∃ y7 ∈ List.find? (fun (e : SbEnt) => decide (e.id = id)) (s.hart hart).stores, y7.sent = false ∧
      s.storeWaits hart y7 = false ∧ (s.hart hart).failing = [] ∧ s.dieUp (hartDie hart) = true ∧ y7.addr < 2 ^ 44 ∧ isRegRange y7.addr = true) ∧
    (∃ (s : Machine.State) (hart : ℕ) (id : ℕ) (die : ℕ) (core : ℕ) (off : ℕ), ∃ y12 ∈ List.find? (fun (e : SbEnt) => decide (e.id = id)) (s.hart
      hart).stores, y12.sent = false ∧ s.storeWaits hart y12 = false ∧ (s.hart hart).failing = [] ∧ s.dieUp (hartDie hart) = true ∧ (decide
      (y12.addr < 2 ^ 44) && isRegRange y12.addr) = false ∧ (decide (y12.addr < 2 ^ 44) && (!s.populated y12.addr y12.data.length || s.fencedSlab
      y12.addr)) = false ∧ s.farOf y12.addr = none ∧ s.ioPort (hartDie hart) y12.addr = none ∧ regionOf y12.addr = Region.slab die core off ∧
      s.dieUp die = true ∧ s.slabPortBusy die core off y12.data.length true = false) ∧
    (∃ (s : Machine.State) (hart : ℕ) (id : ℕ) (die : ℕ) (off : ℕ), ∃ y10 ∈ List.find? (fun (e : SbEnt) => decide (e.id = id)) (s.hart
      hart).stores, y10.sent = false ∧ s.storeWaits hart y10 = false ∧ (s.hart hart).failing = [] ∧ s.dieUp (hartDie hart) = true ∧ (decide
      (y10.addr < 2 ^ 44) && isRegRange y10.addr) = false ∧ (decide (y10.addr < 2 ^ 44) && (!s.populated y10.addr y10.data.length || s.fencedSlab
      y10.addr)) = false ∧ s.farOf y10.addr = none ∧ s.ioPort (hartDie hart) y10.addr = none ∧ regionOf y10.addr = Region.stack die off) ∧
    (∃ (s : Machine.State) (hart : ℕ), ∃ y2 ∈ (s.hart hart).failing.head?, s.fbit (hartDie hart) (hlRef hart HL_REMOTE_ERR.VALID) = false) ∧
    (∃ (s : Machine.State) (hart : ℕ) (addr : ℕ) (data : List Byte), s.hartRuns hart = true ∧ s.fenced hart addr true = false ∧ s.issuable addr
      data.length = true ∧ isMemKind addr = true ∧ addr % 64 + data.length ≤ 64 ∧ s.l1Owned hart (addr / 64) = false ∧ ((s.hart hart).nt.any fun
      (e : NtEnt) => decide (e.line = addr / 64)) = true) ∧
    (∃ (s : Machine.State) (hart : ℕ) (addr : ℕ) (data : List Byte), s.hartRuns hart = true ∧ s.fenced hart addr true = false ∧ s.issuable addr
      data.length = true ∧ isMemKind addr = true ∧ addr % 64 + data.length ≤ 64 ∧ s.l1Owned hart (addr / 64) = false ∧ (s.hart hart).nt = []) ∧
    (∃ (s : Machine.State) (hart : ℕ) (addr : ℕ) (data : List Byte), s.hartRuns hart = true ∧ s.fenced hart addr true = false ∧ s.issuable addr
      data.length = true ∧ isMemKind addr = true ∧ data.length ≤ 64 ∧ 64 < addr % 64 + data.length) ∧
    (∃ (s : Machine.State), ∃ hart < 64, s.dieUp (hartDie hart) = true) :=
  ⟨⟨R, (0), (0), (0), (4), by decide +kernel⟩,
    ⟨R, (0), (8748873547784), (0), by decide +kernel⟩,
    ⟨R, (0), (0), (0), ([0x00#8,  0x00#8,  0x00#8,  0x00#8,  0x00#8,  0x00#8,  0x00#8,  0x00#8,  0x00#8,  0x00#8,  0x00#8,  0x00#8,  0x00#8,
      0x00#8,  0x00#8,  0x00#8,  0x00#8,  0x00#8,  0x00#8,  0x00#8,  0x00#8,  0x00#8,  0x00#8,  0x00#8,  0x00#8,  0x00#8,  0x00#8,  0x00#8,
      0x00#8,  0x00#8,  0x00#8,  0x00#8,  0x00#8,  0x00#8,  0x00#8,  0x00#8,  0x00#8,  0x00#8,  0x00#8,  0x00#8,  0x00#8,  0x00#8,  0x00#8,
      0x00#8,  0x00#8,  0x00#8,  0x00#8,  0x00#8,  0x00#8,  0x00#8,  0x00#8,  0x00#8,  0x00#8,  0x00#8,  0x00#8,  0x00#8,  0x00#8,  0x00#8,
      0x00#8,  0x00#8,  0x00#8,  0x00#8,  0x00#8,  0x00#8]), by decide +kernel⟩,
    ⟨(hartIs (fun h => { h with stores := [sb 0x7F501800008] })), 0, 7, by decide +kernel⟩,
    ⟨(hartIs (fun h => { h with stores := [sb 0x40000000000] })), 0, 7, 0, 0, 0, by decide +kernel⟩,
    ⟨(hartIs (fun h => { h with stores := [sb 0] })), 0, 7, 0, 0, by decide +kernel⟩,
    ⟨(hartIs (fun h => { h with failing := [(1, 1, 0)] })), 0, by decide +kernel⟩,
    ⟨(hlS 0 (hartIs (fun h => { h with nt := [⟨0, List.replicate 64 0, 1⟩] }))), 0, 0, (List.replicate 8 0), by decide +kernel⟩,
    ⟨R, (0), (0), ([0x00#8,  0x00#8,  0x00#8,  0x00#8,  0x00#8,  0x00#8,  0x00#8,  0x00#8,  0x00#8,  0x00#8,  0x00#8,  0x00#8,  0x00#8,  0x00#8,
      0x00#8,  0x00#8,  0x00#8,  0x00#8,  0x00#8,  0x00#8,  0x00#8,  0x00#8,  0x00#8,  0x00#8,  0x00#8,  0x00#8,  0x00#8,  0x00#8,  0x00#8,
      0x00#8,  0x00#8,  0x00#8,  0x00#8,  0x00#8,  0x00#8,  0x00#8,  0x00#8,  0x00#8,  0x00#8,  0x00#8,  0x00#8,  0x00#8,  0x00#8,  0x00#8,
      0x00#8,  0x00#8,  0x00#8,  0x00#8,  0x00#8,  0x00#8,  0x00#8,  0x00#8,  0x00#8,  0x00#8,  0x00#8,  0x00#8,  0x00#8,  0x00#8,  0x00#8,
      0x00#8,  0x00#8,  0x00#8,  0x00#8,  0x00#8]), by decide +kernel⟩,
    ⟨R, (0), (4), ([0x00#8,  0x00#8,  0x00#8,  0x00#8,  0x00#8,  0x00#8,  0x00#8,  0x00#8,  0x00#8,  0x00#8,  0x00#8,  0x00#8,  0x00#8,  0x00#8,
      0x00#8,  0x00#8,  0x00#8,  0x00#8,  0x00#8,  0x00#8,  0x00#8,  0x00#8,  0x00#8,  0x00#8,  0x00#8,  0x00#8,  0x00#8,  0x00#8,  0x00#8,
      0x00#8,  0x00#8,  0x00#8,  0x00#8,  0x00#8,  0x00#8,  0x00#8,  0x00#8,  0x00#8,  0x00#8,  0x00#8,  0x00#8,  0x00#8,  0x00#8,  0x00#8,
      0x00#8,  0x00#8,  0x00#8,  0x00#8,  0x00#8,  0x00#8,  0x00#8,  0x00#8,  0x00#8,  0x00#8,  0x00#8,  0x00#8,  0x00#8,  0x00#8,  0x00#8,
      0x00#8,  0x00#8,  0x00#8,  0x00#8,  0x00#8]), by decide +kernel⟩,
    ⟨R, 0, by decide +kernel⟩⟩

theorem witness_HartOrderAndAtomics :
    (∃ (s : Machine.State) (hart : ℕ) (pred : ℕ), s.hartRuns hart = true ∧ (s.hart hart).fence = none ∧ (s.hart hart).mdrain = false ∧ pred / 2 %
      2 = 1) ∧
    (∃ (s : Machine.State) (hart : ℕ) (pred : ℕ), s.hartRuns hart = true ∧ (s.hart hart).fence = none ∧ (s.hart hart).mdrain = false ∧ pred / 2 %
      2 = 0) ∧
    (∃ (s : Machine.State) (hart : ℕ), ∃ y2 ∈ (s.hart hart).fence, s.fenceMet hart (y2 % 16) = true) ∧
    (∃ (s : Machine.State) (hart : ℕ) (addr : ℕ) (len : ℕ), s.hartRuns hart = true ∧ s.fenced hart addr false = false ∧ 0 < len ∧ addr % len = 0 ∧
      s.atomicOk hart addr len = true ∧
     let u := s.drainNtLine hart addr
     u.ownStores hart addr = false) ∧
    (∃ (s : Machine.State) (hart : ℕ) (addr : ℕ) (data : List Byte), s.hartRuns hart = true ∧ s.fenced hart addr true = false ∧ data ≠ [] ∧ addr %
      data.length = 0 ∧ s.atomicOk hart addr data.length = true ∧
     let u := s.drainNtLine hart addr
     u.ownStores hart addr = false ∧ (u.hart hart).resv = some (addr / 64)) ∧
    (∃ (s : Machine.State) (hart : ℕ) (addr : ℕ) (data : List Byte), s.hartRuns hart = true ∧ s.fenced hart addr true = false ∧ data ≠ [] ∧ addr %
      data.length = 0 ∧ s.atomicOk hart addr data.length = true ∧
     let u := s.drainNtLine hart addr
     u.ownStores hart addr = false ∧ (u.hart hart).resv ≠ some (addr / 64)) ∧
    (∃ (s : Machine.State) (hart : ℕ) (addr : ℕ) (data : List Byte), s.hartRuns hart = true ∧ s.fenced hart addr true = false ∧ s.fenced hart addr
      false = false ∧ data ≠ [] ∧ addr % data.length = 0 ∧
     let u := s.drainNtLine hart addr
     u.remoteOf addr = none ∧ u.atomicOk hart addr data.length = true ∧ u.ownStores hart addr = false) ∧
    (∃ (s : Machine.State) (hart : ℕ), ∃ y5 ∈ (s.hart hart).resv, (s.hart hart).deferring = true ∧
     let u := s.updHart hart fun (x : Hart) => { x with deferring := false }
     u.deferred (hart / 32) y5 = false ∧ ∃ y1 ∈ u.takeMsg MsgKind.snpInv (hart / 32) y5, True) :=
  ⟨⟨R, (0), (2), by decide +kernel⟩,
    ⟨R, (0), (0), by decide +kernel⟩,
    ⟨(hartIs (fun h => { h with fence := some 0 })), 0, by decide +kernel⟩,
    ⟨R, (0), (0), (4), by decide +kernel⟩,
    ⟨(hlS 0 (hartIs (fun h => { h with resv := some 0 }))), 0, 0, (List.replicate 8 0), by decide +kernel⟩,
    ⟨R, (0), (0), ([0x00#8,  0x00#8,  0x00#8,  0x00#8,  0x00#8,  0x00#8,  0x00#8,  0x00#8,  0x00#8,  0x00#8,  0x00#8,  0x00#8,  0x00#8,  0x00#8,
      0x00#8,  0x00#8,  0x00#8,  0x00#8,  0x00#8,  0x00#8,  0x00#8,  0x00#8,  0x00#8,  0x00#8,  0x00#8,  0x00#8,  0x00#8,  0x00#8,  0x00#8,
      0x00#8,  0x00#8,  0x00#8,  0x00#8,  0x00#8,  0x00#8,  0x00#8,  0x00#8,  0x00#8,  0x00#8,  0x00#8,  0x00#8,  0x00#8,  0x00#8,  0x00#8,
      0x00#8,  0x00#8,  0x00#8,  0x00#8,  0x00#8,  0x00#8,  0x00#8,  0x00#8,  0x00#8,  0x00#8,  0x00#8,  0x00#8,  0x00#8,  0x00#8,  0x00#8,
      0x00#8,  0x00#8,  0x00#8,  0x00#8,  0x00#8]), by decide +kernel⟩,
    ⟨R, (0), (0), ([0x00#8,  0x00#8,  0x00#8,  0x00#8,  0x00#8,  0x00#8,  0x00#8,  0x00#8,  0x00#8,  0x00#8,  0x00#8,  0x00#8,  0x00#8,  0x00#8,
      0x00#8,  0x00#8,  0x00#8,  0x00#8,  0x00#8,  0x00#8,  0x00#8,  0x00#8,  0x00#8,  0x00#8,  0x00#8,  0x00#8,  0x00#8,  0x00#8,  0x00#8,
      0x00#8,  0x00#8,  0x00#8,  0x00#8,  0x00#8,  0x00#8,  0x00#8,  0x00#8,  0x00#8,  0x00#8,  0x00#8,  0x00#8,  0x00#8,  0x00#8,  0x00#8,
      0x00#8,  0x00#8,  0x00#8,  0x00#8,  0x00#8,  0x00#8,  0x00#8,  0x00#8,  0x00#8,  0x00#8,  0x00#8,  0x00#8,  0x00#8,  0x00#8,  0x00#8,
      0x00#8,  0x00#8,  0x00#8,  0x00#8,  0x00#8]), by decide +kernel⟩,
    ⟨{ net1 .snpInv with harts := (hartIs (fun h => { h with resv := some 0, deferring := true })).harts }, 0, by decide +kernel⟩⟩

theorem witness_CacheBlocksAndDrain :
    (∃ (s : Machine.State) (hart : ℕ) (addr : ℕ), s.hartRuns hart = true ∧ s.fenced hart addr true = false ∧ s.cboWay hart addr = some true ∧
     let u := (s.drainNtLine hart addr).drainMerge (hart / 32) fun (e : MergeEnt) => decide (e.line = addr / 64)
     ∃ y3 ∈ u.held (hart / 32) (addr / 64), u.ownStores hart addr = false ∧ y3.st = LineSt.m) ∧
    (∃ (s : Machine.State) (hart : ℕ) (addr : ℕ), s.hartRuns hart = true ∧ s.fenced hart addr true = false ∧ s.cboWay hart addr = some true ∧
     let u := (s.drainNtLine hart addr).drainMerge (hart / 32) fun (e : MergeEnt) => decide (e.line = addr / 64)
     ∃ y3 ∈ u.held (hart / 32) (addr / 64), u.ownStores hart addr = false ∧ y3.st ≠ LineSt.m) ∧
    (∃ (s : Machine.State) (hart : ℕ) (addr : ℕ), s.hartRuns hart = true ∧ s.fenced hart addr true = false ∧ s.cboWay hart addr = some true ∧
     let u := (s.drainNtLine hart addr).drainMerge (hart / 32) fun (e : MergeEnt) => decide (e.line = addr / 64)
     ∃ y2 ∈ u.held (hart / 32) (addr / 64), u.ownStores hart addr = false) ∧
    (∃ (s : Machine.State) (hart : ℕ) (addr : ℕ), s.hartRuns hart = true ∧ s.fenced hart addr true = false ∧ s.cboWay hart addr = some true ∧
     let u := s.drainNtLine hart addr
     u.ownStores hart addr = false) ∧
    (∃ (s : Machine.State) (hart : ℕ) (addr : ℕ), s.hartRuns hart = true ∧ s.fenced hart addr true = false ∧ s.cboWay hart addr = some false) ∧
    (∃ (s : Machine.State) (hart : ℕ) (num : ℕ) (priv : ℕ) (virt : Bool), s.hartRuns hart = true ∧ (s.hart hart).mdrain = false ∧ csrTrap num priv
      virt = none) ∧
    (∃ (s : Machine.State) (hart : ℕ) (priv : ℕ) (virt : Bool) (key : Word), s.hartRuns hart = true ∧ csrTrap 1985 priv virt = none ∧ bits key 15
      0 = 4081) :=
  ⟨⟨(holds .m (hlS 0 (vaultOn R))), 0, 0, by decide +kernel⟩,
    ⟨(holds .s (hlS 0 (vaultOn R))), 0, 0, by decide +kernel⟩,
    ⟨(holds .m (hlS 0 (vaultOn R))), 0, 0, by decide +kernel⟩,
    ⟨R, (0), (0), by decide +kernel⟩,
    ⟨(holds .m (hlS 0 (vaultOn R))).wr shDie 0x180 0 (2 ^ 31), 0, (2^44), by decide +kernel⟩,
    ⟨R, (0), (0), (4), (false), by decide +kernel⟩,
    ⟨R, 0, 3, false, 4081, by decide +kernel⟩⟩

theorem witness_HartControl :
    (∃ (hart : ℕ), hart < 64) ∧
    (∃ (s : Machine.State), ∃ hart < 64, s.hlState hart = 2 ∧ (s.hart hart).stores = [] ∧ (s.hart hart).nt = [] ∧ (s.hart hart).failing = []) ∧
    (∃ (s : Machine.State) (hart : ℕ) (file : ℕ) (eiid : ℕ), hart < 64 ∧ file < 6 ∧ 0 < eiid ∧ eiid < 256 ∧ s.hlState hart = 3) ∧
    (∃ (s : Machine.State) (hart : ℕ) (file : ℕ) (eiid : ℕ), hart < 64 ∧ file < 6 ∧ 0 < eiid ∧ eiid < 256 ∧ s.hlState hart ≠ 3 ∧ mapGet 0 s.imsic
      (hart * 8 + file) / 2 ^ eiid % 2 = 0) ∧
    (∃ (s : Machine.State), ∃ hart < 64, s.hartRuns hart = true ∧ s.debugOn.contains (hartDie hart) = true) ∧
    (∃ (s : Machine.State), ∃ hart < 64, s.hlState hart = 1 ∧ s.debugOn.contains (hartDie hart) = true) :=
  ⟨⟨(0), by decide +kernel⟩,
    ⟨(hlS 2 R), 0, by decide +kernel⟩,
    ⟨(hlS 3 R), 0, 0, 1, by decide +kernel⟩,
    ⟨R, (0), (0), (4), by decide +kernel⟩,
    ⟨(dbg (hlS 0 R)), 0, by decide +kernel⟩,
    ⟨(dbg (hlS 1 R)), 0, by decide +kernel⟩⟩

theorem witness_ShelfAndTide :
    (∃ (s : Machine.State), s.fbit shDie SHF_SPLIT.INIT = true) ∧
    (∃ (s : Machine.State) (page : ℕ), s.fbit shDie TDL_CMD.BUSY = false ∧
     let t := s.tdlStart 2 page 0
     ∃ y1 ∈ t.page page, True) ∧
    (∃ (s : Machine.State) (page : ℕ) (n : ℕ), s.fbit shDie TDL_CMD.BUSY = false ∧
     let t := s.tdlStart 4 page 0
     ∃ y3 ∈ t.page page, y3.slot = Slot2M.reserve n ∧
     let r1 := t.freePool
     ∃ y1 ∈ r1.1, True) ∧
    (∃ (s : Machine.State) (page : ℕ), s.fbit shDie TDL_CMD.BUSY = false ∧
     let t := s.tdlStart 5 page 0
     page < t.pageCount ∧ ∃ y1 ∈ t.page page, True) ∧
    (∃ (s : Machine.State) (die : ℕ), s.tdl.phase = 1 ∧ die < 6 ∧ s.dieUp die = true ∧ s.tdl.acks.contains die = false ∧ s.pageBusy s.tdl.page die
      = false ∧ s.slotUp s.tdl.src = true ∧ s.slotUp s.tdl.dst = true ∧ ((List.range 6).all fun (d : ℕ) => (die :: s.tdl.acks).contains d ||
      !s.dieUp d) = true) ∧
    (∃ (s : Machine.State) (die : ℕ), s.tdl.phase = 1 ∧ die < 6 ∧ s.dieUp die = true ∧ s.tdl.acks.contains die = false ∧ s.pageBusy s.tdl.page die
      = false ∧ s.slotUp s.tdl.src = true ∧ s.slotUp s.tdl.dst = true ∧ ((List.range 6).all fun (d : ℕ) => (die :: s.tdl.acks).contains d ||
      !s.dieUp d) = false) ∧
    (∃ (s : Machine.State), s.tdl.phase = 2 ∧ s.slotUp s.tdl.src = true ∧ s.slotUp s.tdl.dst = true ∧ (List.any s.txns fun (t : ℕ × Txn) => inPage
      s.tdl.page t.1) = false ∧ (List.any s.dir fun (e : ℕ × DirEnt) => inPage s.tdl.page e.1) = false ∧ ∀ (c : ℕ × ℕ × ℕ), s.tdl.cmd = some c →
      c.1 ≠ 2) ∧
    (∃ (s : Machine.State), s.tdl.phase = 2 ∧ s.slotUp s.tdl.src = true ∧ s.slotUp s.tdl.dst = true ∧ (List.any s.txns fun (t : ℕ × Txn) => inPage
      s.tdl.page t.1) = false ∧ (List.any s.dir fun (e : ℕ × DirEnt) => inPage s.tdl.page e.1) = false ∧ ∃ y1 ∈ s.tdl.cmd, y1.1 = 2) :=
  ⟨⟨(R.fset shDie SHF_SPLIT.INIT 1), by decide +kernel⟩,
    ⟨(remapS (.pool 0)), 0, by decide +kernel⟩,
    ⟨(remapS (.reserve 0)), 0, 0, by decide +kernel⟩,
    ⟨(remapS (.pool 0)), 0, by decide +kernel⟩,
    ⟨(tdlS (fun t => { t with phase := 1, acks := [1, 2, 3, 4, 5] })), 0, by decide +kernel⟩,
    ⟨(tdlS (fun t => { t with phase := 1 })), 0, by decide +kernel⟩,
    ⟨(tdlS (fun t => { t with phase := 2 })), by decide +kernel⟩,
    ⟨(tdlS (fun t => { t with phase := 2, cmd := some (2, 0, 0) })), by decide +kernel⟩⟩

theorem witness_BreakwaterLinks :
    (∃ (s : Machine.State) (port : ℕ) (lane : ℕ),
     let d := portDie port
     port < 32 ∧ s.dieUp d = true ∧ lane < 8 ∧ s.fget d (portRef port BWF_STATUS.FAILED) / 2 ^ lane % 2 = 0 ∧ s.portState port = pTRAINING) ∧
    (∃ (s : Machine.State) (port : ℕ) (lane : ℕ),
     let d := portDie port
     port < 32 ∧ s.dieUp d = true ∧ lane < 8 ∧ s.fget d (portRef port BWF_STATUS.FAILED) / 2 ^ lane % 2 = 0 ∧ s.portState port = pLOCKING) ∧
    (∃ (s : Machine.State) (port : ℕ) (lane : ℕ),
     let d := portDie port
     port < 32 ∧ s.dieUp d = true ∧ lane < 8 ∧ s.fget d (portRef port BWF_STATUS.FAILED) / 2 ^ lane % 2 = 0 ∧ s.portState port = pLINKED ∧
     let u := s.laneFails port lane;
     let w := widthOf (u.fget d (portRef port BWF_STATUS.FAILED))
     w ≠ 0 ∧ u.fget d (portRef port BWF_STATUS.WIDTH) = 3 ∧ w ≠ 3) ∧
    (∃ (s : Machine.State) (port : ℕ),
     let d := portDie port
     port < 32 ∧ s.dieUp d = true ∧ s.portState port = pDOWN ∧ s.fbit d (portRef port BWF_CTRL.EN) = true) ∧
    (∃ (s : Machine.State) (port : ℕ) (bytes : List Byte),
     let d := portDie port
     port < 32 ∧ s.dieUp d = true ∧ s.portUp port = true ∧ bytes.length = 256 ∧ crc32 (List.map BitVec.toNat (List.take 252 bytes)) ≠ leNat
       (List.drop 252 bytes)) ∧
    (∃ (s : Machine.State) (port : ℕ) (bytes : List Byte),
     let d := portDie port
     port < 32 ∧ s.dieUp d = true ∧ s.portUp port = true ∧ bytes.length = 256 ∧ crc32 (List.map BitVec.toNat (List.take 252 bytes)) = leNat
       (List.drop 252 bytes) ∧
     let h := leNat (List.take 12 bytes)
     bitsN h 95 92 = 0 ∧ bitsN h 91 80 = 0 ∧ bitsN h 67 67 = 0 ∧ bitsN h 66 64 = 0 ∧
     let u := ((s.pmuEvent d 521 1).takeAck port (bitsN h 79 68)).takeCredit port (bitsN h 63 0)
     u.portUp port = true) ∧
    (∃ (s : Machine.State) (port : ℕ),
     let d := portDie port
     port < 32 ∧ s.dieUp d = true) ∧
    (∃ (s : Machine.State) (port : ℕ),
     let d := portDie port
     port < 32 ∧ s.dieUp d = true ∧ ∃ y2 ∈ (s.port port).width, s.portUp port = true) ∧
    (∃ (s : Machine.State) (port : ℕ),
     let d := portDie port
     port < 32 ∧ s.dieUp d = true ∧ s.portUp port = true ∧ s.fget d (portRef port BWF_STATUS.FAILED) = 0 ∧ (s.port port).width = none ∧ s.fget d
       (portRef port BWF_STATUS.WIDTH) = 3) ∧
    (∃ (s : Machine.State) (port : ℕ),
     let d := portDie port
     port < 32 ∧ s.dieUp d = true ∧ s.fbit d (portRef port BWF_CTRL.EN) = true ∧ s.portState port = pLINKED) ∧
    (∃ (s : Machine.State) (port : ℕ),
     let d := portDie port
     port < 32 ∧ s.dieUp d = true ∧ s.fbit d (portRef port BWF_CTRL.EN) = true ∧ s.portState port ≠ pLINKED) ∧
    (∃ (s : Machine.State) (port : ℕ),
     let d := portDie port
     port < 32 ∧ s.dieUp d = true ∧ s.fbit d (portRef port BWF_CTRL.EN) = true ∧ s.portState port ≠ pDOWN) ∧
    (∃ (s : Machine.State) (port : ℕ),
     let d := portDie port
     port < 32 ∧ s.dieUp d = true ∧ s.fbit d (portRef port BWF_CTRL.EN) = true ∧ s.portState port = pDOWN) ∧
    (∃ (s : Machine.State) (port : ℕ),
     let d := portDie port
     port < 32 ∧ s.dieUp d = true ∧ s.fbit d (portRef port BWF_CTRL.EN) = false) :=
  ⟨⟨(R.fset 4 (portRef 0 BWF_STATUS.STATE) pTRAINING), 0, 0, by decide +kernel⟩,
    ⟨(R.fset 4 (portRef 0 BWF_STATUS.STATE) pLOCKING), 0, 0, by decide +kernel⟩,
    ⟨(portS (fun s => s.fset 4 (portRef 0 BWF_STATUS.WIDTH) 3)), 0, 0, by decide +kernel⟩,
    ⟨((R.fset 4 (portRef 0 BWF_STATUS.STATE) pDOWN).fset 4 (portRef 0 BWF_CTRL.EN) 1), 0, by decide +kernel⟩,
    ⟨(portS id), 0, (List.replicate 256 0), by decide +kernel⟩,
    ⟨(portS id), 0, flit, by decide +kernel⟩,
    ⟨R, (0), by decide +kernel⟩,
    ⟨(portS (fun s => s.updPort 0 (fun p => { p with width := some 2 }))), 0, by decide +kernel⟩,
    ⟨(portS (fun s => s.fset 4 (portRef 0 BWF_STATUS.WIDTH) 3)), 0, by decide +kernel⟩,
    ⟨(portS (fun s => s.fset 4 (portRef 0 BWF_CTRL.EN) 1)), 0, by decide +kernel⟩,
    ⟨(R.fset 4 (portRef 0 BWF_CTRL.EN) 1), 0, by decide +kernel⟩,
    ⟨(R.fset 4 (portRef 0 BWF_CTRL.EN) 1), 0, by decide +kernel⟩,
    ⟨((R.fset 4 (portRef 0 BWF_STATUS.STATE) pDOWN).fset 4 (portRef 0 BWF_CTRL.EN) 1), 0, by decide +kernel⟩,
    ⟨R, (0), by decide +kernel⟩⟩

theorem witness_FabricRequests :
    (∃ (s : Machine.State) (port : ℕ) (m : FabMsg) (d : List Byte) (p : Bool), s.fabFresh port m = true ∧ m.typ = mRD ∧ m.aux % 2 = 0 ∧ s.fabAt
      (m.addr / 64 * 64) = Except.ok true ∧
     let r1 := s.anyRead engHome (m.addr / 64 * 64) 64
     r1.1 = GlzRead.got d p) ∧
    (∃ (s : Machine.State) (port : ℕ) (m : FabMsg) (v : Word) (t : Machine.State), s.fabFresh port m = true ∧ m.typ = mRD ∧ m.aux % 2 = 1 ∧
      isRegRange m.addr = true ∧ s.fabReg port (Config.serialOf m.src).toNat m.addr none = Except.ok (v, t)) ∧
    (∃ (s : Machine.State) (port : ℕ) (m : FabMsg) (die : ℕ) (off : ℕ), s.fabFresh port m = true ∧ s.fabAt (m.addr / 64 * 64) = Except.ok true ∧
      s.partnerShut (m.addr / 64 * 64) m.src = false ∧ regionOf (m.addr / 64 * 64) = Region.stack die off ∧ s.engWait engHome true (m.addr / 64 *
      64) 64 = none ∧ m.typ = mWRFULL) ∧
    (∃ (s : Machine.State) (port : ℕ) (m : FabMsg) (die : ℕ) (off : ℕ), s.fabFresh port m = true ∧ s.fabAt (m.addr / 64 * 64) = Except.ok true ∧
      s.partnerShut (m.addr / 64 * 64) m.src = false ∧ regionOf (m.addr / 64 * 64) = Region.stack die off ∧ s.engWait engHome true (m.addr / 64 *
      64) 64 = none ∧ m.typ = mWRMASK) ∧
    (∃ (s : Machine.State) (port : ℕ) (m : FabMsg) (die : ℕ) (off : ℕ), s.fabFresh port m = true ∧ m.typ = mATOM ∧ m.aux % 32 < 20 ∧ m.addr %
      atomSize (m.aux % 32) = 0 ∧ regionOf m.addr = Region.stack die off ∧ s.fabAt m.addr = Except.ok true ∧ s.unitCut port m.addr = false ∧
      s.unitRoom port m.addr = true) ∧
    (∃ (s : Machine.State) (port : ℕ) (m : FabMsg) (off : ℕ), s.fabFresh port m = true ∧ m.typ = mATOM ∧ m.aux % 32 < 20 ∧ m.addr % atomSize
      (m.aux % 32) = 0 ∧ regionOf m.addr = Region.shelf off ∧ s.fabAt m.addr = Except.ok true ∧ s.engWait engHome true m.addr (atomSize (m.aux %
      32)) = none) ∧
    (∃ (s : Machine.State) (port : ℕ) (m : FabMsg) (die : ℕ) (off : ℕ), s.fabFresh port m = true ∧ m.typ = mGLZ ∧ m.aux % 16 < 8 ∧ regionOf m.addr
      = Region.stack die off ∧ s.fabAt m.addr = Except.ok true ∧ s.unitCut port m.addr = false ∧ s.unitRoom port m.addr = true) ∧
    (∃ (s : Machine.State) (port : ℕ) (m : FabMsg), s.fabFresh port m = true ∧ m.typ = mGLZ ∧ m.aux % 16 = 12) ∧
    (∃ (s : Machine.State) (port : ℕ) (m : FabMsg), s.fabFresh port m = true ∧ m.typ = mGLZ ∧ m.aux % 16 = 13) ∧
    (∃ (s : Machine.State) (port : ℕ) (m : FabMsg) (src : ℕ) (agent : ℕ) (tag : ℕ), s.fabFresh port m = true ∧ List.find? (fun (x : ℕ × FabMsg) =>
      x.2.isRequest && decide (x.2.src = src) && decide (x.2.agent = agent) && decide (x.2.tag = tag)) s.fab.inbox = some (port, m) ∧ m.typ = mRD) ∧
    (∃ (s : Machine.State) (port : ℕ) (m : FabMsg) (src : ℕ) (agent : ℕ) (tag : ℕ) (d : List Byte) (p : Bool), s.fabFresh port m = true ∧
      List.find? (fun (x : ℕ × FabMsg) => x.2.isRequest && decide (x.2.src = src) && decide (x.2.agent = agent) && decide (x.2.tag = tag))
      s.fab.inbox = some (port, m) ∧ m.typ = mRD ∧ m.aux % 2 = 0 ∧ s.fabAt (m.addr / 64 * 64) = Except.ok true ∧
     let r1 := s.anyRead engHome (m.addr / 64 * 64) 64
     r1.1 = GlzRead.got d p) ∧
    (∃ (s : Machine.State) (port : ℕ) (m : FabMsg) (src : ℕ) (agent : ℕ) (tag : ℕ), s.fabFresh port m = true ∧ List.find? (fun (x : ℕ × FabMsg) =>
      x.2.isRequest && decide (x.2.src = src) && decide (x.2.agent = agent) && decide (x.2.tag = tag)) s.fab.inbox = some (port, m) ∧ s.fabHeld
      port m = true) :=
  ⟨⟨(portS id), 0, (fmsg mRD 0 (0) 0), (List.replicate 64 0), false, by decide +kernel⟩,
    ⟨(portS id), 0, (fmsg mRD 1 (regAddr 4 0x180 0) 0), (fabV (portS id) none (fmsg mRD 1 (regAddr 4 0x180 0) 0)), (fabT (portS id) none (fmsg mRD
      1 (regAddr 4 0x180 0) 0)), by decide +kernel⟩,
    ⟨(portS id), 0, (fmsg mWRFULL 0 (0) 4), 0, 0, by decide +kernel⟩,
    ⟨(portS id), 0, (fmsg mWRMASK 0 (0) 5), 0, 0, by decide +kernel⟩,
    ⟨(portS id), 0, (fmsg mATOM 0 (0) 1), 0, 0, by decide +kernel⟩,
    ⟨(portS (fun s => s.fset shDie SHF_SPLIT.DIRECT 1)), 0, (fmsg mATOM 0 (2^39) 1), 0, by decide +kernel⟩,
    ⟨(portS id), 0, (fmsg mGLZ 0 (0) 4), 0, 0, by decide +kernel⟩,
    ⟨(portS id), 0, (fmsg mGLZ 12 (0) 4), by decide +kernel⟩,
    ⟨(portS id), 0, (fmsg mGLZ 13 (0) 4), by decide +kernel⟩,
    ⟨(inbox (fmsg mRD 0 0 0)), 0, (fmsg mRD 0 (0) 0), 5, 0, 0, by decide +kernel⟩,
    ⟨(inbox (fmsg mRD 0 0 0)), 0, (fmsg mRD 0 (0) 0), 5, 0, 0, (List.replicate 64 0), false, by decide +kernel⟩,
    ⟨{ inbox (fmsg mRD 0 0 0) with dieMode := [(0, 1)] }, 0, (fmsg mRD 0 (0) 0), 5, 0, 0, by decide +kernel⟩⟩

theorem witness_FabricAnswers :
    (∃ (s : Machine.State) (port : ℕ) (m : FabMsg), port < 32 ∧ s.portUp port = true ∧ m.typ = mRSPDATA) ∧
    (∃ (s : Machine.State) (port : ℕ) (m : FabMsg), port < 32 ∧ s.portUp port = true ∧ m.typ = mRSPACK) ∧
    (∃ (s : Machine.State) (port : ℕ) (m : FabMsg), port < 32 ∧ s.portUp port = true ∧ m.typ = mRSPOLD) ∧
    (∃ (s : Machine.State) (port : ℕ) (m : FabMsg), port < 32 ∧ s.portUp port = true ∧ m.typ = mRSPPENDING ∧ (s.fab.reqs.any fun (r : FabReq) =>
      decide ((decide (r.msg.tag = m.tag) && decide (r.msg.agent = m.agent) && r.sent) = true)) = true) ∧
    (∃ (s : Machine.State) (port : ℕ) (pkg : ℕ) (agent : ℕ) (tag : ℕ), port < 32 ∧ s.portUp port = true ∧ ∃ y1 ∈ (s.fabRunning pkg agent
      tag).head?, y1 = port) ∧
    (∃ (s : Machine.State) (port : ℕ) (m : FabMsg), port < 32 ∧ s.portUp port = true ∧ m.typ = mNAK ∧ m.agent ≠ agCol ∧ m.aux ≠ nHOME ∧ m.aux ≠
      nNOID ∧ ∃ y2 ∈ s.fabTake m.tag m.agent, m.src = y2.1.msg.dst) ∧
    (∃ (s : Machine.State) (port : ℕ) (tag : ℕ) (agent : ℕ), port < 32 ∧ s.portUp port = true ∧ ∃ y3 ∈ s.fabTake tag agent, ∃ y2 ∈ y3.2.deliver
      y3.1 (FabGot.fail 0), y3.1.msg.dst < siteDst 0) :=
  ⟨⟨(portS id), 0, (fmsg mRSPDATA 0 0 4), by decide +kernel⟩,
    ⟨(portS id), 0, (fmsg mRSPACK 0 0 0), by decide +kernel⟩,
    ⟨(portS id), 0, (fmsg mRSPOLD 0 0 1), by decide +kernel⟩,
    ⟨(asked (.hartStore 0 7 0)), 0, (fmsg mRSPPENDING 0 0 0), by decide +kernel⟩,
    ⟨((unitWith (fun c => { c with src := .fabric 0 5 0 0 })).fset 4 (portRef 0 BWF_STATUS.STATE) pLINKED), 0, 5, 0, 0, by decide +kernel⟩,
    ⟨(asked (.hartStore 0 7 0)), 0, { fmsg mNAK 4 0 0 with src := 0 }, by decide +kernel⟩,
    ⟨(asked (.hartStore 0 7 0)), 0, 0, 0, by decide +kernel⟩⟩

theorem witness_FabricControl :
    (∃ (s : Machine.State) (port : ℕ) (q : ℕ) (m : FabMsg), s.portUp port = true ∧ isQ q = true ∧ m.typ = mCTL ∧ m.aux = cIDENT) ∧
    (∃ (s : Machine.State) (port : ℕ) (q : ℕ) (m : FabMsg), s.portUp port = true ∧ isQ q = true ∧ m.typ = mCTL ∧ m.aux = cIDENTACK) ∧
    (∃ (s : Machine.State) (port : ℕ) (q : ℕ), s.portUp port = true ∧ isQ q = true ∧ (s.port port).ident = true) ∧
    (∃ (s : Machine.State) (port : ℕ) (q : ℕ) (m : FabMsg), s.portUp port = true ∧ isQ q = true ∧ m.typ = mCTL ∧ m.aux = cDRREQ ∧
     let d := DrUnits.of m.units
     d.plen ≤ 8 ∧ d.ptr + 1 < d.plen ∧ (s.takeIn port m).portUp (drPort d.path (d.ptr + 1)) = true) ∧
    (∃ (s : Machine.State) (port : ℕ) (q : ℕ) (m : FabMsg), s.portUp port = true ∧ isQ q = true ∧ m.typ = mCTL ∧ m.aux = cDRRSP ∧
     let d := DrUnits.of m.units
     0 < d.ptr) ∧
    (∃ (s : Machine.State) (port : ℕ) (q : ℕ) (m : FabMsg), s.portUp port = true ∧ isQ q = true ∧ m.typ = mCTL ∧ m.aux = cDRRSP ∧
     let d := DrUnits.of m.units
     d.ptr = 0 ∧ m.agent = q ∧ mapFind (s.takeIn port m).fab.drAt q = some m.tag ∧ (s.takeIn port m).fbit q BWF_DR_CTRL.BUSY = true ∧ d.write =
       false) ∧
    (∃ (s : Machine.State) (port : ℕ) (q : ℕ), s.portUp port = true ∧ isQ q = true ∧ s.dieUp q = true ∧ s.fbit q BWF_DR_CTRL.BUSY = false ∧
     let plen := s.fget q BWF_DR_PATH.PLEN;
     let path := s.fget q BWF_DR_PATH.PATH
     0 < plen ∧ plen ≤ 8 ∧
     let u := (s.fsets q [(BWF_DR_CTRL.BUSY, 1), (BWF_DR_CTRL.RESULT, 0)]).updFab fun (f : Fabric) =>
       { f with nextTag := (s.fab.nextTag + 1) % 65536, drAt := mapSet f.drAt q s.fab.nextTag }
     u.portUp (drPort path 0) = true) ∧
    (∃ (s : Machine.State) (port : ℕ) (q : ℕ), s.portUp port = true ∧ isQ q = true ∧ s.dieUp q = true ∧ s.fbit q BWF_DR_CTRL.BUSY = false ∧
     let plen := s.fget q BWF_DR_PATH.PLEN;
     let path := s.fget q BWF_DR_PATH.PATH
     0 < plen ∧ plen ≤ 8 ∧
     let u := (s.fsets q [(BWF_DR_CTRL.BUSY, 1), (BWF_DR_CTRL.RESULT, 0)]).updFab fun (f : Fabric) =>
       { f with nextTag := (s.fab.nextTag + 1) % 65536, drAt := mapSet f.drAt q s.fab.nextTag }
     u.portUp (drPort path 0) = false) ∧
    (∃ (s : Machine.State) (port : ℕ) (q : ℕ), s.portUp port = true ∧ isQ q = true ∧ s.fbit q BWF_DR_CTRL.BUSY = true) ∧
    (∃ (s : Machine.State) (port : ℕ) (q : ℕ), s.portUp port = true ∧ isQ q = true) ∧
    (∃ (s : Machine.State) (port : ℕ) (q : ℕ) (m : FabMsg), s.portUp port = true ∧ isQ q = true ∧ m.typ = mCTL ∧ m.aux = cREPORT) ∧
    (∃ (s : Machine.State) (port : ℕ) (q : ℕ) (period : ℕ), s.portUp port = true ∧ isQ q = true ∧ s.fab.forwarded ≤ period ∧ s.fbit shDie
      BWF_REPORT.ROOT = false) ∧
    (∃ (s : Machine.State) (port : ℕ) (q : ℕ) (period : ℕ), s.portUp port = true ∧ isQ q = true ∧ s.fab.forwarded ≤ period ∧ s.fbit shDie
      BWF_REPORT.ROOT = true) :=
  ⟨⟨(portS id), 0, 4, (fmsg mCTL cIDENT 0 2), by decide +kernel⟩,
    ⟨(portS id), 0, 4, (fmsg mCTL cIDENTACK 0 2), by decide +kernel⟩,
    ⟨(portS (fun s => s.updPort 0 (fun p => { p with ident := true }))), 0, 4, by decide +kernel⟩,
    ⟨(portS id), 0, 4, { fmsg mCTL cDRREQ 0 0 with units := [2 * 2^84, 0] }, by decide +kernel⟩,
    ⟨(portS id), 0, 4, { fmsg mCTL cDRRSP 0 0 with units := [2 * 2^84 + 2^80] }, by decide +kernel⟩,
    ⟨(portS (fun s => (s.fset 4 BWF_DR_CTRL.BUSY 1).updFab (fun f => { f with drAt := [(4, 0)] }))), 0, 4,
      { fmsg mCTL cDRRSP 0 0 with units := [0], agent := 4 }, by decide +kernel⟩,
    ⟨(portS (fun s => s.fset 4 BWF_DR_PATH.PLEN 1)), 0, 4, by decide +kernel⟩,
    ⟨(portS (fun s => s.fsets 4 [(BWF_DR_PATH.PLEN, 1), (BWF_DR_PATH.PATH, 1)])), 0, 4, by decide +kernel⟩,
    ⟨(portS (fun s => s.fset 4 BWF_DR_CTRL.BUSY 1)), 0, 4, by decide +kernel⟩,
    ⟨(portS id), 0, 4, by decide +kernel⟩,
    ⟨(portS id), 0, 4, (fmsg mCTL cREPORT 0 2), by decide +kernel⟩,
    ⟨(portS id), 0, 4, 0, by decide +kernel⟩,
    ⟨(portS (fun s => s.fset shDie BWF_REPORT.ROOT 1)), 0, 4, 0, by decide +kernel⟩⟩

theorem witness_TidemarkCommands :
    (∃ (s : Machine.State) (a : ℕ) (b : ℕ) (u : ℕ), s.tickUp (TickLink.jetty a b) = true ∧ ∃ y5 ∈ takeFirst (fun (x : ℕ × ℕ × ℕ) => decide (x =
      (a, b, u))) s.tidemark.wire, y5.1.1 = a ∧ y5.1.2.1 = b ∧ ∃ y3 ∈ s.tickOffset (TickLink.jetty a b) y5.1.2.2, a ≠ s.timeSource ∧ nextDie a
      s.timeSource 0 = b) ∧
    (∃ (s : Machine.State) (p : ℕ), s.tickUp (TickLink.port p) = true ∧
     let e := s.tickEnd (TickLink.port p)
     e.peer = none) ∧
    (∃ (s : Machine.State) (p : ℕ), s.tickUp (TickLink.port p) = true ∧
     let e := s.tickEnd (TickLink.port p)
     ∃ y2 ∈ e.peer, True) ∧
    (∃ (s : Machine.State) (q : ℕ) (time : BitVec 64), isQ q = true ∧ s.dieUp q = true ∧ s.fbit shDie TMK_CTRL.MASTER = true ∧ s.fbit q
      TMK_STATUS.ACQUIRED = false ∧ s.tmkNs q ≤ time.toNat) ∧
    (∃ (s : Machine.State), s.fbit s.timeSource TMK_STATUS.HOLDOVER = true ∧ s.idValid = true) ∧
    (∃ (s : Machine.State) (die : ℕ), isC die = true ∧ ∃ y6 ∈ (s.td die).fetched, s.seqState die = seqAWAITING ∧ (s.td die).step2 = true ∧
      bBallast y6 = true ∧ (s.td die).ballastUp = false ∧ s.releaseNs die = none) ∧
    (∃ (s : Machine.State) (die : ℕ), isC die = true ∧ ∃ y5 ∈ (s.td die).fetched, s.seqState die = seqAWAITING ∧ (s.td die).step2 = true ∧
      bBallast y5 = true ∧ (s.td die).ballastUp = true) :=
  ⟨⟨{ (R.fset 0 (JTY_STATUS.STATE.inBlk 0x292) jUP) with tidemark := ⟨[(tickKey (.jetty 0 4), ⟨0, [(0, 0)], none⟩)], [], [], [(0, 4, 0)]⟩ }, 0,
      4, 0, by decide +kernel⟩,
    ⟨(portS id), 0, by decide +kernel⟩,
    ⟨(portS (fun s => { s with tidemark := { s.tidemark with ends := [(tickKey (.port 0), ⟨0, [], some (0, 0)⟩)] } })), 0, by decide +kernel⟩,
    ⟨(R.fset shDie TMK_CTRL.MASTER 1), 4, 5, by decide +kernel⟩,
    ⟨(R.fset 4 TMK_STATUS.HOLDOVER 1).wr shDie 0x180 0 (2 ^ 31), by decide +kernel⟩,
    ⟨(ballast 4 id), 0, by decide +kernel⟩,
    ⟨(ballast 4 (fun t => { t with ballastUp := true })), 0, by decide +kernel⟩⟩

theorem witness_CollectiveCommands :
    (∃ (s : Machine.State) (q : ℕ) (group : ℕ) (ranks : ℕ) (d : List Byte) (p : Bool), isQ q = true ∧ s.dieUp q = true ∧ group < 64 ∧ s.groupBusy
      group = false ∧ 0 < ranks ∧ ranks ≤ 32768 ∧
     let a := s.fget q (COL_GRP_TABLE.ADDR.plus (16 * group)) * 2;
     let r2 := s.readFrom q 0 idColl a (2 * ranks)
     r2.1 = GlzRead.got d p) ∧
    (∃ (s : Machine.State) (q : ℕ) (i : Instr) (op : ℕ), (i, op) ∈ [(Instr.reduce q, opREDUCE), (Instr.allreduce q, opALLREDUCE),
      (Instr.reduceScatter q, opSCATTER), (Instr.allgather q, opGATHER), (Instr.broadcast q, opBROADCAST), (Instr.barrier q, opBARRIER)] ∧ ∃ y9 ∈
      takeFirst (fun (c : ColCmd) => decide (c.q = q ∧ c.op = op)) s.coll.coming, s.dieUp q = true ∧
     let u := (s.updColl fun (y : Coll) => { y with coming := y9.2 }).needInst y9.1.group y9.1.seq
     ∃ y6 ∈ u.inst y9.1.group y9.1.seq,
     let v := u.setInst { y6 with cmds := y6.cmds ++ [y9.1] }
     v.colFormat y9.1 = false ∧ v.coll.failed.contains y9.1.group = false ∧ v.colMismatch y6 y9.1 = false ∧ y9.1.tick = 0) ∧
    (∃ (s : Machine.State) (group : ℕ) (seq : ℕ), ∃ y2 ∈ s.inst group seq, s.engineUp y2 = true) ∧
    (∃ (s : Machine.State) (group : ℕ) (seq : ℕ), ∃ y3 ∈ s.inst group seq, s.engineUp y3 = true ∧ (y3.cmds.any fun (m : ColCmd) => m.launched) =
      true) ∧
    (∃ (s : Machine.State) (group : ℕ) (seq : ℕ),
     let u := s.colStep group seq
     ∃ y5 ∈ u.inst group seq, u.engineUp y5 = true ∧
     let tbl := u.instTable y5
     y5.cmds.all (y5.rankDone tbl.length) = true ∧ y5.messages u.ownId tbl = []) ∧
    (∃ (s : Machine.State) (die : ℕ), s.dieUp die = true) ∧
    (∃ (s : Machine.State) (port : ℕ) (m : FabMsg) (kind : ℕ), ∃ y2 ∈ s.colFresh port m kind, kind = kDATA) ∧
    (∃ (s : Machine.State) (port : ℕ) (m : FabMsg) (kind : ℕ), ∃ y2 ∈ s.colFresh port m kind, kind = kRESULT) ∧
    (∃ (s : Machine.State) (port : ℕ) (m : FabMsg) (kind : ℕ), ∃ y2 ∈ s.colFresh port m kind, kind = kGATHER) ∧
    (∃ (s : Machine.State) (port : ℕ) (m : FabMsg) (kind : ℕ), ∃ y2 ∈ s.colFresh port m kind, kind = kARRIVE) ∧
    (∃ (s : Machine.State) (port : ℕ) (m : FabMsg) (kind : ℕ), ∃ y3 ∈ s.colFresh port m kind, kind = kRELEASE ∧ y3.2.1.release = none) ∧
    (∃ (s : Machine.State) (port : ℕ) (m : FabMsg) (kind : ℕ), ∃ y2 ∈ s.colFresh port m kind, kind = kFAIL) :=
  ⟨⟨(vaultOn R), 4, 0, 1, (List.replicate 2 0), false, by decide +kernel⟩,
    ⟨((collS (fun c => { c with coming := [colCmd opBARRIER false] })).fset 4 COL_GRP_CFG.VALID 1), 4, (Instr.barrier 4), opBARRIER,
      by decide +kernel⟩,
    ⟨(collS (fun c => { c with insts := [⟨0, 0, [colCmd opBARRIER false], [], [], [], none, false⟩] })), 0, 0, by decide +kernel⟩,
    ⟨(collS (fun c => { c with insts := [⟨0, 0, [colCmd opBARRIER true], [], [], [], none, false⟩] })), 0, 0, by decide +kernel⟩,
    ⟨(collS (fun c => { c with insts := [⟨0, 0, [colCmd opBARRIER true], [], [], [], none, false⟩] })), 0, 0, by decide +kernel⟩,
    ⟨R, (0), by decide +kernel⟩,
    ⟨(collS (fun c => { c with coming := [colCmd opBARRIER false] })), 32, (colMsg kDATA), kDATA, by decide +kernel⟩,
    ⟨(collS (fun c => { c with coming := [colCmd opBARRIER false] })), 32, (colMsg kRESULT), kRESULT, by decide +kernel⟩,
    ⟨(collS (fun c => { c with coming := [colCmd opBARRIER false] })), 32, (colMsg kGATHER), kGATHER, by decide +kernel⟩,
    ⟨(collS (fun c => { c with coming := [colCmd opBARRIER false] })), 32, (colMsg kARRIVE), kARRIVE, by decide +kernel⟩,
    ⟨(collS (fun c => { c with coming := [colCmd opBARRIER false] })), 32, (colMsg kRELEASE), kRELEASE, by decide +kernel⟩,
    ⟨(collS (fun c => { c with coming := [colCmd opBARRIER false] })), 32, (colMsg kFAIL), kFAIL, by decide +kernel⟩⟩

theorem witness_HostMemory :
    (∃ (s : Machine.State) (port : ℕ) (line : ℕ), s.linkUp port = true ∧ s.memOk port line = true ∧ s.lostHome line = false) ∧
    (∃ (s : Machine.State) (port : ℕ) (line : ℕ) (snp : ℕ), s.linkUp port = true ∧ s.memOk port line = true ∧ s.lostHome line = false ∧ 1 < snp) ∧
    (∃ (s : Machine.State) (port : ℕ) (line : ℕ) (mask : ℕ), s.linkUp port = true ∧ s.memOk port line = true ∧ s.lostHome line = false ∧ bitOf
      (entryOf s line).sharers 6 = true ∧ mask % 2 ^ 64 = fullLine ∧ s.dieUp (s.homeOf line).die = true) ∧
    (∃ (s : Machine.State) (port : ℕ) (line : ℕ), s.linkUp port = true ∧ s.memOk port line = true ∧ s.lostHome line = false ∧ bitOf (entryOf s
      line).sharers 6 = false) ∧
    (∃ (s : Machine.State) (port : ℕ), s.linkUp port = true) ∧
    (∃ (s : Machine.State) (port : ℕ) (line : ℕ), s.linkUp port = true ∧ ∃ y2 ∈ mapFind s.hostLines line, y2.leaving = true) ∧
    (∃ (s : Machine.State) (port : ℕ) (line : ℕ), s.linkUp port = true ∧ mapFind s.hostLines line = none ∧ ∃ y2 ∈ mapFind s.txns line, y2.hostWait
      = true) ∧
    (∃ (s : Machine.State) (port : ℕ) (line : ℕ), s.linkUp port = true ∧ ∃ y3 ∈ mapFind s.txns line, y3.snoops.contains 6 = true ∧ s.exposedBy
      (line * 64) = some port) ∧
    (∃ (s : Machine.State) (port : ℕ) (dec : ℕ) (base : ℕ) (size : ℕ), s.linkUp port = true ∧ isPort port = true ∧ dec < 4 ∧ s.dieUp (4 + port) =
      true ∧ dpaOk base size = true ∧ (s.hostPort (1 - port)).hdm = []) ∧
    (∃ (s : Machine.State) (port : ℕ) (data : List Byte) (off : ℕ), s.linkUp port = true ∧ off + data.length ≤ 4194304 ∧ off / 2 ^ 20 = (off +
      data.length - 1) / 2 ^ 20) ∧
    (∃ (s : Machine.State) (port : ℕ) (off : ℕ) (len : ℕ), s.linkUp port = true ∧ off + len ≤ 4194304 ∧ off / 2 ^ 20 = (off + len - 1) / 2 ^ 20) ∧
    (∃ (s : Machine.State) (port : ℕ) (ap : ℕ), s.linkUp port = true ∧ ap < 4) ∧
    (∃ (s : Machine.State) (port : ℕ) (data : List Byte) (addr : ℕ) (o : ℕ), s.linkUp port = true ∧ regionOf addr = Region.host port o ∧ (s.p2pOf
      port addr).isSome = true ∧ s.ioUp port = true ∧ s.populated addr data.length = true) ∧
    (∃ (s : Machine.State) (port : ℕ) (addr : ℕ) (len : ℕ) (o : ℕ), s.linkUp port = true ∧ regionOf addr = Region.host port o ∧ (s.p2pOf port
      addr).isSome = true ∧ s.ioUp port = true ∧ s.populated addr len = true) ∧
    (∃ (s : Machine.State) (port : ℕ) (addr : ℕ), s.linkUp port = true ∧ ∃ y1 ∈ List.find? (fun (r : IoRead) => decide (r.port = port) && decide
      (r.addr = addr) && decide (r.answer = none) && decide (r.len ≠ 0)) s.ios, True) ∧
    (∃ (s : Machine.State) (port : ℕ) (queue : ℕ), s.linkUp port = true ∧ ∃ y2 ∈ takeFirst (fun (r : IoRead) => decide (r.who = IoWho.drain
      queue)) s.ios, ∃ y1 ∈ s.frontRec queue, True) :=
  ⟨⟨(hdmS id), 0, (2^33), by decide +kernel⟩,
    ⟨(hdmS id), 0, (2^33), 2, by decide +kernel⟩,
    ⟨(hdmS (fun s => { s with dir := [(2^33, ⟨true, 64, 0⟩)] })), 0, (2^33), (2^64 - 1), by decide +kernel⟩,
    ⟨(hdmS id), 0, (2^33), by decide +kernel⟩,
    ⟨(hdmS id), 0, by decide +kernel⟩,
    ⟨(hostS (fun s => { s with hostLines := [(0, ⟨List.replicate 64 0, false, true, true, false, true⟩)] })), 0, 0, by decide +kernel⟩,
    ⟨(hostS (fun s => { s with txns := [(0, { txn .rdS 0 0 with hostWait := true })] })), 0, 0, by decide +kernel⟩,
    ⟨(hdmS (fun s => { s with txns := [(2^33, { txn .rdS 0 0 with snoops := [6] })] })), 0, (2^33), by decide +kernel⟩,
    ⟨(hdmS id), 0, 0, 0, (2^30), by decide +kernel⟩,
    ⟨(hdmS id), 0, (List.replicate 8 0), 0, by decide +kernel⟩,
    ⟨(hdmS id), 0, 0, 8, by decide +kernel⟩,
    ⟨(hdmS id), 0, 0, by decide +kernel⟩,
    ⟨(p2pS id), 0, (List.replicate 8 0), 0x80000000000, 0, by decide +kernel⟩,
    ⟨(p2pS id), 0, 0x80000000000, 8, 0, by decide +kernel⟩,
    ⟨(hostS (fun s => { s with ios := [⟨0, 0, 8, .engine, none⟩] })), 0, 0, by decide +kernel⟩,
    ⟨(recS 0 [] id (fun s => { (s.fset 4 HPU_STATUS.LINK 2) with ios := [⟨0, 0, 8, .drain 0, none⟩] })), 0, 0, by decide +kernel⟩⟩

theorem witness_HostLink :
    (∃ (s : Machine.State) (port : ℕ) (speed : ℕ) (width : ℕ), isPort port = true ∧ s.dieUp (4 + port) = true ∧ s.fbit (4 + port)
      HPU_STATUS.RESETTING = false ∧ (speed = 1 ∨ speed = 2) ∧ (width = 1 ∨ width = 2) ∧ s.hpu port HPU_STATUS.LINK ≠ 2) ∧
    (∃ (s : Machine.State) (port : ℕ) (speed : ℕ) (width : ℕ), isPort port = true ∧ s.dieUp (4 + port) = true ∧ s.fbit (4 + port)
      HPU_STATUS.RESETTING = false ∧ (speed = 1 ∨ speed = 2) ∧ (width = 1 ∨ width = 2) ∧ s.linkUp port = true) ∧
    (∃ (s : Machine.State) (port : ℕ), isPort port = true ∧ s.dieUp (4 + port) = true ∧ s.hpu port HPU_STATUS.LINK ≠ 0) ∧
    (∃ (port : ℕ), isPort port = true) ∧
    (∃ (s : Machine.State) (port : ℕ), isPort port = true ∧ s.linkUp port = true) ∧
    (∃ (s : Machine.State) (port : ℕ), isPort port = true ∧ s.hpu port HPU_STATUS.LINK ≠ 2 ∧ s.fbit (4 + port) HPU_STATUS.IN_SERVICE = true) ∧
    (∃ (s : Machine.State) (port : ℕ), isPort port = true ∧ s.hpu port HPU_LOSS.UNCERTAIN ≠ 0 ∧ s.fbit (4 + port) HPU_STATUS.BME = false) :=
  ⟨⟨R, (0), (1), (1), by decide +kernel⟩,
    ⟨(hostS id), 0, 1, 1, by decide +kernel⟩,
    ⟨(hostS id), 0, by decide +kernel⟩,
    ⟨(0), by decide +kernel⟩,
    ⟨(hostS id), 0, by decide +kernel⟩,
    ⟨(R.fset 4 HPU_STATUS.IN_SERVICE 1), 0, by decide +kernel⟩,
    ⟨(R.fset 4 HPU_LOSS.UNCERTAIN 1), 0, by decide +kernel⟩⟩

theorem witness_CompanionCommands :
    (∃ (s : Machine.State) (site : ℕ) (modules : ℕ) (rate : ℕ), site < 2 ∧
     let d := 4 + site
     s.dieUp d = true ∧ s.fget d UCI_STATUS.STATE = 1 ∧ modules % 16 = 15 ∧ 1 ≤ rate ∧ rate ≤ 3) ∧
    (∃ (s : Machine.State) (site : ℕ) (modules : ℕ), site < 2 ∧
     let d := 4 + site
     s.dieUp d = true ∧ s.fget d UCI_STATUS.STATE = 1 ∧ modules % 16 ≠ 15) ∧
    (∃ (s : Machine.State) (site : ℕ) (bytes : List Byte), site < 2 ∧
     let d := 4 + site
     s.dieUp d = true ∧ s.fget d UCI_STATUS.STATE = 2 ∧
     let b := List.take 256 (bytes ++ List.replicate 256 0)
     descResult b ≠ 0) ∧
    (∃ (s : Machine.State) (site : ℕ) (bytes : List Byte), site < 2 ∧
     let d := 4 + site
     s.dieUp d = true ∧ s.fget d UCI_STATUS.STATE = 2 ∧
     let b := List.take 256 (bytes ++ List.replicate 256 0);
     let u := (foldN 32 (fun (t : Machine.State) (n : ℕ) => t.wr d 352 (256 + 8 * n) (BitVec.ofNat 64 (dNum b (8 * n) 8))) s).fset d
       UCI_STATUS.LEVEL (dNum b 6 1)
     descResult b = 0 ∧ u.fbit d UCI_CTRL.MEASURE = false) ∧
    (∃ (s : Machine.State), ∃ site < 2,
     let d := 4 + site
     s.dieUp d = true ∧ s.fget d UCI_STATUS.STATE = 1) ∧
    (∃ (s : Machine.State), ∃ site < 2,
     let d := 4 + site
     s.dieUp d = true ∧ s.fget d UCI_STATUS.STATE = 2) ∧
    (∃ (s : Machine.State) (site : ℕ) (temp : ℕ), site < 2 ∧
     let d := 4 + site
     s.dieUp d = true ∧ s.fget d UCI_STATUS.STATE = 4 ∧
     let r3 := s.siteTemps site
     temp < r3.1 ∧ temp < r3.2) ∧
    (∃ (s : Machine.State) (site : ℕ) (temp : ℕ), site < 2 ∧
     let d := 4 + site
     s.dieUp d = true ∧ s.fget d UCI_STATUS.STATE = 4 ∧
     let r4 := s.siteTemps site
     r4.1 ≤ temp ∧ r4.2 ≤ temp ∧ (s.site site).hot = true) ∧
    (∃ (s : Machine.State), ∃ site < 2,
     let d := 4 + site
     s.dieUp d = true ∧ ∃ y1 ∈ (s.site site).side.head?, True) :=
  ⟨⟨(siteS 1 id), 0, 15, 1, by decide +kernel⟩,
    ⟨(siteS 1 id), 0, 3, by decide +kernel⟩,
    ⟨(siteS 2 id), 0, (List.replicate 256 0), by decide +kernel⟩,
    ⟨(siteS 2 id), 0, desc, by decide +kernel⟩,
    ⟨(siteS 1 id), 0, by decide +kernel⟩,
    ⟨(siteS 2 id), 0, by decide +kernel⟩,
    ⟨(siteS 4 id).wr 4 0x160 0x118 (BitVec.ofNat 64 (100 * 2^32 + 110 * 2^40)), 0, 50, by decide +kernel⟩,
    ⟨(siteS 4 (fun x => { x with hot := true })), 0, 50, by decide +kernel⟩,
    ⟨(siteS 4 (fun x => { x with side := [(.engine, 0, false)] })), 0, by decide +kernel⟩⟩

theorem witness_QueueEntries :
    (∃ (s : Machine.State) (queue : ℕ) (tail : BitVec 64),
     let x := s.queue queue
     queue < 4096 ∧ x.st = 1 ∧ s.dieUp (s.queueDie queue) = true ∧ x.accepted < tail.toNat ∧ tail.toNat ≤ x.accepted + 2 ^ x.ctx.log2 ∧ (s.freeRec
       (homeQ queue)).isSome = true) ∧
    (∃ (s : Machine.State) (queue : ℕ) (b : List Byte),
     let x := s.queue queue
     x.st = 1 ∧ s.hqRuns queue = true ∧
     let n := List.foldl max x.accepted (List.map (fun (x : ℕ × List Byte) => x.1) x.fetched) + 1
     n ≤ x.tail ∧
     let r2 := s.readFrom (s.queueDie queue) 0 idQueue (x.ctx.ring + 256 * (n % 2 ^ x.ctx.log2)) 256
     r2.1 = GlzRead.got b false ∧ dNum b 8 8 = n) ∧
    (∃ (s : Machine.State) (queue : ℕ),
     let x := s.queue queue
     s.hqRuns queue = true ∧ List.find? (fun (r : JRec) => decide (r.queue = queue) && !r.counted) s.hq.journal = none ∧ x.st = 1 ∧ ∃ y3 ∈
       x.fetched.head?, ∃ y2 ∈ s.freeRec (homeQ queue), (s.entryJournaled queue (JRec.fresh ((homeQ queue - 4) * 2 ^ 15 + y2) queue y3.1 y3.2)
       x.fetched.tail).partnered queue = false) ∧
    (∃ (s : Machine.State) (queue : ℕ), ∃ y2 ∈ List.find? (fun (r : JRec) => decide (r.queue = queue) && decide (r.mirror ≠ 0)) s.hq.journal,
      True) ∧
    (∃ (s : Machine.State) (queue : ℕ), ∃ y1 ∈ s.entryStarts queue 0, True) ∧
    (∃ (s : Machine.State) (queue : ℕ) (b : List Byte), ∃ y5 ∈ s.entryStarts queue 1, ∃ y4 ∈ y5.1.pickDie y5.2,
     let r3 := y5.1.readFrom (y5.1.queueDie queue) 0 idQueue (y5.2.num 40 8) 2048
     r3.1 = GlzRead.got b false ∧
     let v := r3.2.putWindows y4 b
     v.sameImage y4 (y5.2.num 32 8 / 4096 * 4096) = true) ∧
    (∃ (s : Machine.State) (queue : ℕ), ∃ y1 ∈ s.entryStarts queue 5, True) :=
  ⟨⟨(qS 1 0 id id), 0, 5, by decide +kernel⟩,
    ⟨(slabQ 256 [0, 0, 0, 0, 0, 0, 0, 0, 1] (qS 1 slab0 id id)), 0, ([0,0,0,0,0,0,0,0,1] ++ List.replicate 247 0), by decide +kernel⟩,
    ⟨(qS 1 0 (fun x => { x with fetched := [(1, List.replicate 256 0)] }) id), 0, by decide +kernel⟩,
    ⟨(recS 0 [] (fun r => { r with mirror := 1 }) id), 0, by decide +kernel⟩,
    ⟨(recS 0 [] id id), 0, by decide +kernel⟩,
    ⟨(recS 1 [(0x38, 1), (0x2D, 4)] id (fun s => ((s.fset 0 SEQ_STATUS.STATE 2).updTd 0 (fun t => { t with image := some im })))), 0,
      (List.replicate 2048 0), by decide +kernel⟩,
    ⟨(recS 5 [] id id), 0, by decide +kernel⟩⟩

theorem witness_QueueEndsAndControl :
    (∃ (s : Machine.State) (queue : ℕ), ∃ y7 ∈ s.frontRec queue, s.hqRuns queue = true ∧ s.written y7 = true ∧ y7.phase = JPhase.running ∧
      y7.opcode = 1 ∧ ∃ y2 ∈ (s.td (y7.die.getD 0)).results.head?,
     let r1 := (s.updTd (y7.die.getD 0) fun (t : TideDie) => { t with results := (s.td (y7.die.getD 0)).results.tail }).runStatus y7 (y7.die.getD
       0) y2
     r1.2.2 = false) ∧
    (∃ (s : Machine.State) (queue : ℕ), ∃ y10 ∈ s.frontRec queue, s.hqRuns queue = true ∧ s.written y10 = true ∧ y10.phase = JPhase.running ∧
      y10.opcode ≠ 1 ∧
     let u := s.dmaAll fun (d : Dma) => d.ofQueue queue
     ∃ y4 ∈ u.recOf y10.jid,
     let r3 := u.takeParts y4
     r3.2.parts = 0 ∧ r3.2.bad = none) ∧
    (∃ (s : Machine.State) (queue : ℕ), ∃ y9 ∈ s.frontRec queue, s.hqRuns queue = true ∧ s.written y9 = true ∧ y9.phase = JPhase.commit ∧
     let u := s.applyKey y9 true
     ∃ y4 ∈ u.recOf y9.jid, 4 ≤ y4.applied.length ∧ y4.pkgs = [] ∧ y4.again = false) ∧
    (∃ (s : Machine.State) (queue : ℕ), ∃ y6 ∈ s.frontRec queue, s.hqRuns queue = true ∧ s.written y6 = true ∧ (s.queue queue).stop = 0 ∧ y6.phase
      = JPhase.ended ∧ y6.paths = []) ∧
    (∃ (s : Machine.State) (queue : ℕ), ∃ y6 ∈ s.frontRec queue, s.hqRuns queue = true ∧ s.written y6 = true ∧ (s.queue queue).stop = 0 ∧ y6.phase
      = JPhase.drain ∧ y6.drains = 0) ∧
    (∃ (s : Machine.State) (queue : ℕ), ∃ y5 ∈ s.frontRec queue, s.hqRuns queue = true ∧ s.written y5 = true ∧ (s.queue queue).stop = 0 ∧ y5.phase
      = JPhase.done) ∧
    (∃ (s : Machine.State) (port : ℕ) (vector : ℕ), (s.hostPort port).pba.contains vector = true ∧ s.msixOpen port vector = true) ∧
    (∃ (s : Machine.State) (die : ℕ) (loc : ℕ) (op : ℕ) (b : List Byte) (p : List Byte), isQ die = true ∧ s.dieUp die = true ∧ loc < 2048 ∧ s.fbit
      die HQ_QCMD.BUSY = false ∧
     let t := s.qcmdStart die op loc
     op = 1 ∧ (t.queue (queueOf die loc)).st = 0 ∧
     let r4 := t.readFrom die 0 idQueue (t.fget die HQ_CTX.BASE * 2 ^ 17 + 64 * loc) 64
     r4.1 = GlzRead.got b false ∧ ctxOk b = true ∧
     let r2 := r4.2.readFrom die 0 idQueue (QCtx.of b).accept 8
     r2.1 = GlzRead.got p false) ∧
    (∃ (s : Machine.State) (die : ℕ) (loc : ℕ) (op : ℕ), isQ die = true ∧ s.dieUp die = true ∧ loc < 2048 ∧ s.fbit die HQ_QCMD.BUSY = false ∧
     let t := s.qcmdStart die op loc
     op = 2 ∧ (t.queue (queueOf die loc)).st = 1) ∧
    (∃ (s : Machine.State) (die : ℕ) (loc : ℕ) (op : ℕ), isQ die = true ∧ s.dieUp die = true ∧ loc < 2048 ∧ s.fbit die HQ_QCMD.BUSY = false ∧ op =
      3) ∧
    (∃ (s : Machine.State) (queue : ℕ), (s.queue queue).st = 3 ∧ s.frontRec queue = none) :=
  ⟨⟨(recS 1 [(0x38, 1)] (fun r => { r with phase := .running, die := some 0 }) (fun s => s.updTd 0 (fun t =>
      { t with results := [⟨none, 0, false⟩] }))), 0, by decide +kernel⟩,
    ⟨(recS 3 [] (fun r => { r with phase := .running, parts := 1 }) (fun s => { s with queueEnds := [(0, none)] })), 0, by decide +kernel⟩,
    ⟨(recS 3 [] (fun r => { r with phase := .commit, applied := [0, 1, 2, 3] }) id), 0, by decide +kernel⟩,
    ⟨(recS 3 [] (fun r => { r with phase := .ended }) id), 0, by decide +kernel⟩,
    ⟨(recS 3 [] (fun r => { r with phase := .drain }) id), 0, by decide +kernel⟩,
    ⟨(recS 3 [] (fun r => { r with phase := .done }) id), 0, by decide +kernel⟩,
    ⟨(p2pS (fun s => { s with host := [(0, { HostPort.reset with pba := [0], msix := [(0, 0)] })] })), 0, 0, by decide +kernel⟩,
    ⟨(slabQ 0x18 [4] (hqS (fun s => s.fset 4 HQ_CTX.BASE (2 ^ 25)))), 4, 0, 1, (List.range 64).map (fun i => if i = 0x18 then 4 else 0),
      (List.replicate 8 0), by decide +kernel⟩,
    ⟨(recS 1 [(0x38, 1)] (fun r => { r with phase := .running, die := some 0 }) (fun s => s.updTd 0 (fun t =>
      { t with results := [⟨none, 0, false⟩] }))), 4, 0, 2, by decide +kernel⟩,
    ⟨R, (4), (0), (3), by decide +kernel⟩,
    ⟨(qS 3 0 id id), 0, by decide +kernel⟩⟩

theorem witness_PointsDroopAndEvents :
    (∃ (s : Machine.State) (die : ℕ), s.dieUp die = true ∧ die < 6) ∧
    (∃ (s : Machine.State) (die : ℕ), s.dieUp die = true ∧ ∃ y2 ∈ (s.dieP die).target, s.droops die = false) ∧
    (∃ (s : Machine.State) (die : ℕ) (dom : ℕ), s.dieUp die = true ∧ die < 6 ∧ (s.dieP die).droop.contains dom = false ∧ (dom = 0 ∨ dom = 1 ∧ isQ
      die = true)) ∧
    (∃ (s : Machine.State) (die : ℕ) (dom : ℕ), s.dieUp die = true ∧ (s.dieP die).droop.contains dom = true ∧
     let rest := List.filter (fun (x : ℕ) => decide (x ≠ dom)) (s.dieP die).droop
     rest = []) ∧
    (∃ (s : Machine.State) (die : ℕ) (dom : ℕ), s.dieUp die = true ∧ (s.dieP die).droop.contains dom = true ∧
     let rest := List.filter (fun (x : ℕ) => decide (x ≠ dom)) (s.dieP die).droop
     rest ≠ []) ∧
    (∃ (s : Machine.State) (die : ℕ), s.dieUp die = true ∧ (s.dieP die).settling = true ∧
     let u := s.updP die fun (p : DiePower) => { p with settling := false }
     u.fbit die (pwr die PWR_POINT.DEFERRED) = true) ∧
    (∃ (s : Machine.State) (die : ℕ), s.dieUp die = true ∧ (s.dieP die).settling = true ∧
     let u := s.updP die fun (p : DiePower) => { p with settling := false }
     u.fbit die (pwr die PWR_POINT.DEFERRED) = false) ∧
    (∃ (s : Machine.State) (die : ℕ), s.dieUp die = true ∧ s.power.phase ≠ Phase.off ∧ s.power.phase ≠ Phase.held) ∧
    (∃ (s : Machine.State) (die : ℕ), s.dieUp die = true ∧ (s.power.phase = Phase.off ∨ s.power.phase = Phase.held)) ∧
    (∃ (s : Machine.State) (die : ℕ), s.dieUp die = true ∧ s.power.phase ≠ Phase.off ∧ s.power.phase ≠ Phase.held ∧
     let u := { s with events := [] }.resolveEvents s.events;
     let v := have __src := u.tmkAdvance
     { __src with now := u.now + 1024 }
     v.power.phase ≠ Phase.held) :=
  ⟨⟨R, (0), by decide +kernel⟩,
    ⟨(dieP (fun d => { d with target := some 5 })), 0, by decide +kernel⟩,
    ⟨R, (0), (0), by decide +kernel⟩,
    ⟨(dieP (fun d => { d with droop := [1] })), 0, 1, by decide +kernel⟩,
    ⟨(dieP (fun d => { d with droop := [1, 2] })), 0, 1, by decide +kernel⟩,
    ⟨((dieP (fun d => { d with settling := true })).fset 0 (pwr 0 PWR_POINT.DEFERRED) 1), 0, by decide +kernel⟩,
    ⟨(dieP (fun d => { d with settling := true })), 0, by decide +kernel⟩,
    ⟨R, (0), by decide +kernel⟩,
    ⟨(powS (fun p => { p with phase := .held })), 0, by decide +kernel⟩,
    ⟨R, (0), by decide +kernel⟩⟩

theorem witness_PowerHeatAndPins :
    (∃ (s : Machine.State), s.runs = true) ∧
    (∃ (s : Machine.State), s.power.phase ≠ Phase.off ∧ s.power.phase ≠ Phase.held) ∧
    (∃ (s : Machine.State), s.power.phase ≠ Phase.off ∧ s.power.phase ≠ Phase.held ∧ s.power.tray = true) ∧
    (∃ (s : Machine.State), s.power.tray = false) ∧
    (∃ (s : Machine.State), ∃ site < 2, (s.site site).hot = true ∧ s.fget (4 + site) UCI_STATUS.TEMP + 5 ≤ (s.siteTemps site).1) ∧
    (∃ (s : Machine.State), ∃ channel < 64, s.dieUp (shfDie channel) = true) ∧
    (∃ (s : Machine.State), s.power.phase = Phase.held ∧ s.isStopped = false ∧ s.power.coolant = true ∧ s.power.tray = true) ∧
    (∃ (s : Machine.State), s.power.phase = Phase.off) :=
  ⟨⟨R, by decide +kernel⟩,
    ⟨R, by decide +kernel⟩,
    ⟨R, by decide +kernel⟩,
    ⟨(powS (fun p => { p with tray := false })), by decide +kernel⟩,
    ⟨(siteS 4 (fun x => { x with hot := true })).wr 4 0x160 0x118 (BitVec.ofNat 64 (100 * 2^32)), 0, by decide +kernel⟩,
    ⟨R, 0, by decide +kernel⟩,
    ⟨(powS (fun p => { p with phase := .held })), by decide +kernel⟩,
    ⟨(powS (fun p => { p with phase := .off })), by decide +kernel⟩⟩

set_option maxRecDepth 1000 in
theorem witness_FaultsLossesAndBoot :
    (∃ (s : Machine.State) (die : ℕ) (core : ℕ), s.dieUp die = true ∧ isC die = true ∧ core < 64 ∧ (s.fset die ERR_FENCE.CORE core).isFenced die
      core = false) ∧
    (∃ (s : Machine.State) (die : ℕ), s.dieUp die = true ∧ die < 6) ∧
    (∃ (s : Machine.State) (die : ℕ) (agent : ℕ), s.dieUp die = true ∧ s.links.losses.contains (die, agent) = true) ∧
    (∃ (s : Machine.State) (die : ℕ) (agent : ℕ), s.dieUp die = true ∧ s.sweeps.contains (die, agent) = true) ∧
    (∃ (s : Machine.State) (die : ℕ), s.dieUp die = true ∧ isQ die = true) ∧
    (∃ (s : Machine.State) (die : ℕ), s.dieUp die = true ∧ s.lht.harbour = true ∧ s.fbit 4 LHT_BOOT.DONE = false ∧ s.runs = true) ∧
    (∃ (s : Machine.State) (die : ℕ) (slot : ℕ), s.dieUp die = true ∧ isQ die = true ∧ ownStep slot = false ∧ progressSlot slot = true ∧ (s.fsets
      die [(LHT_PROGRESS.EVENT, 1 % 4), (LHT_PROGRESS.SLOT, slot % 256)]).lht.harbour = true ∧ (s.fsets die [(LHT_PROGRESS.EVENT, 1 % 4),
      (LHT_PROGRESS.SLOT, slot % 256)]).fbit 4 LHT_BOOT.DONE = false ∧
     let r1 := (s.fsets die [(LHT_PROGRESS.EVENT, 1 % 4), (LHT_PROGRESS.SLOT, slot % 256)]).stepBegin slot
     r1.2 = StepStart.run) ∧
    (∃ (s : Machine.State) (die : ℕ) (slot : ℕ), s.dieUp die = true ∧ isQ die = true ∧ ownStep slot = false ∧ progressSlot slot = true ∧ (s.fsets
      die [(LHT_PROGRESS.EVENT, 2 % 4), (LHT_PROGRESS.SLOT, slot % 256)]).lht.harbour = true ∧ (s.fsets die [(LHT_PROGRESS.EVENT, 2 % 4),
      (LHT_PROGRESS.SLOT, slot % 256)]).fbit 4 LHT_BOOT.DONE = false) ∧
    (∃ (s : Machine.State) (die : ℕ) (slot : ℕ), s.dieUp die = true ∧ isQ die = true ∧ ownStep slot = false ∧ progressSlot slot = true ∧ (s.fsets
      die [(LHT_PROGRESS.EVENT, 3 % 4), (LHT_PROGRESS.SLOT, slot % 256)]).lht.harbour = true ∧ (s.fsets die [(LHT_PROGRESS.EVENT, 3 % 4),
      (LHT_PROGRESS.SLOT, slot % 256)]).fbit 4 LHT_BOOT.DONE = false) ∧
    (∃ (s : Machine.State) (die : ℕ), s.dieUp die = true ∧ s.power.phase ≠ Phase.off ∧ s.power.tray = true) :=
  ⟨⟨R, (0), (0), by decide +kernel⟩,
    ⟨R, (0), by decide +kernel⟩,
    ⟨(lk (fun l => { l with losses := [(0, 1)] })), 0, 1, by decide +kernel⟩,
    ⟨{ R with sweeps := [(0, 1)] }, 0, 1, by decide +kernel⟩,
    ⟨R, (4), by decide +kernel⟩,
    ⟨{ R with lht := { R.lht with harbour := true } }, 0, by decide +kernel⟩,
    ⟨{ R with lht := { R.lht with harbour := true } }, 4, 0x21, by decide +kernel⟩,
    ⟨{ R with lht := { R.lht with harbour := true } }, 4, 0x21, by decide +kernel⟩,
    ⟨{ R with lht := { R.lht with harbour := true } }, 4, 0x21, by decide +kernel⟩,
    ⟨R, (0), by decide +kernel⟩⟩

theorem witness_MailboxCommands :
    (∃ (s : Machine.State) (die : ℕ), s.lhtRuns die 1 = true) ∧
    (∃ (s : Machine.State) (die : ℕ), s.lhtRuns die 2 = true) ∧
    (∃ (s : Machine.State) (die : ℕ), s.lhtRuns die 3 = true ∧ s.lhtArg die < 2 ^ 18) ∧
    (∃ (s : Machine.State) (die : ℕ), s.lhtRuns die 4 = true ∧ s.lhtArg die * 512 + 512 ≤ imageMax ∧ s.lhtRuns (peerQ die) 5 = false) ∧
    (∃ (s : Machine.State) (die : ℕ), s.lhtRuns die 8 = true ∧ knownStep (s.lhtArg die) = true) :=
  ⟨⟨(mbox 1 0), 4, by decide +kernel⟩,
    ⟨(mbox 2 0), 4, by decide +kernel⟩,
    ⟨(mbox 3 0), 4, by decide +kernel⟩,
    ⟨(mbox 4 0), 4, by decide +kernel⟩,
    ⟨(mbox 8 0), 4, by decide +kernel⟩⟩

theorem witness_Recorder :
    (∃ (s : Machine.State), ∃ t < 64, bits (s.rd 4 416 (8200 + 16 * t)) 4 0 ≤ 20 ∧ s.power.phase ≠ Phase.off) ∧
    (∃ (s : Machine.State), ∃ y5 ∈ s.strand.queue.head?, s.arb = 4) ∧
    (∃ (s : Machine.State), ∃ y6 ∈ s.strand.queue.head?, s.arb = 5 ∧ y6.marked = true) ∧
    (∃ (s : Machine.State), ∃ y6 ∈ s.strand.queue.head?, s.arb = 5 ∧ y6.marked = false) ∧
    (∃ (s : Machine.State), s.fbit 4 STL_STATUS.COPY_BUSY = true) ∧
    (∃ (s : Machine.State), s.arb ≠ 5 ∧ s.power.phase ≠ Phase.off) ∧
    (∃ (s : Machine.State), s.fbit 4 STL_CURSOR.READY = false ∧
     let r3 := stlSource (s.fget 4 STL_CURSOR.SOURCE);
     let a := s.fget 4 STL_CURSOR.PAGE * 4096
     a + 4096 ≤ r3.2) ∧
    (∃ (s : Machine.State), s.fbit 4 STL_CURSOR.READY = false ∧
     let r3 := stlSource (s.fget 4 STL_CURSOR.SOURCE);
     let a := s.fget 4 STL_CURSOR.PAGE * 4096
     r3.2 < a + 4096) :=
  ⟨⟨R, (0), by decide +kernel⟩,
    ⟨{ R with strand := { R.strand with queue := [stlE true] } }, by decide +kernel⟩,
    ⟨{ R.fset 5 (ERR_STATUS.PEER_LOST.inBlk 0x1C0) 1 with strand := { R.strand with queue := [stlE true] } }, by decide +kernel⟩,
    ⟨{ R.fset 5 (ERR_STATUS.PEER_LOST.inBlk 0x1C0) 1 with strand := { R.strand with queue := [stlE false] } }, by decide +kernel⟩,
    ⟨(R.fset 4 STL_STATUS.COPY_BUSY 1), by decide +kernel⟩,
    ⟨R, by decide +kernel⟩,
    ⟨(R.fsets 4 [(STL_CURSOR.READY, 0), (STL_CURSOR.SOURCE, 6)]), by decide +kernel⟩,
    ⟨(R.fsets 4 [(STL_CURSOR.READY, 0), (STL_CURSOR.SOURCE, 6), (STL_CURSOR.PAGE, 4000)]), by decide +kernel⟩⟩

theorem witness_CountersAndSamples :
    (∃ (s : Machine.State) (die : ℕ) (core : Option ℕ) (i : ℕ) (inc : ℕ), s.dieUp die = true ∧ hasCounter die core i = true ∧ s.fbit die
      (PMU_CTRL.EN.inBlk (pmuBlk die)) = true ∧ bitAt (s.rd die (pmuBlk die) (selOff core i)) 63 = true ∧ 2 ^ 48 ≤ bits (s.rd die (pmuBlk die)
      (cntOff core i)) 47 0 + inc ∧ (i % 2 = 0 → bitAt (s.rd die (pmuBlk die) (selOff core (i + 1))) 62 = false)) ∧
    (∃ (s : Machine.State) (die : ℕ) (core : Option ℕ) (i : ℕ), s.dieUp die = true ∧ hasCounter die core i = true ∧ i % 2 = 0) ∧
    (∃ (s : Machine.State) (die : ℕ), s.dieUp die = true ∧ die < 6) ∧
    (∃ (s : Machine.State) (die : ℕ), s.dieUp die = true ∧ die < 6 ∧ s.fbit die (PMU_SAMPLE.EN.inBlk (pmuBlk die)) = true ∧ isC die = true) ∧
    (∃ (s : Machine.State) (die : ℕ), s.dieUp die = true ∧ die < 6 ∧ s.fbit die (PMU_SAMPLE.EN.inBlk (pmuBlk die)) = true ∧ isC die = false) :=
  ⟨⟨((R.fset 0 (PMU_CTRL.EN.inBlk (pmuBlk 0)) 1).wr 0 (pmuBlk 0) 0x100 (2 ^ 63)).wr 0 (pmuBlk 0) 0x180 (2 ^ 48 - 1), 0, none, 0, 1,
      by decide +kernel⟩,
    ⟨R, (0), (none), (0), by decide +kernel⟩,
    ⟨R, (0), by decide +kernel⟩,
    ⟨(R.fset 0 (PMU_SAMPLE.EN.inBlk (pmuBlk 0)) 1), 0, by decide +kernel⟩,
    ⟨(R.fset 4 (PMU_SAMPLE.EN.inBlk (pmuBlk 4)) 1), 4, by decide +kernel⟩⟩

theorem witness_ManagementBuses :
    (∃ (s : Machine.State), s.power.phase ≠ Phase.off) ∧
    (∃ (s : Machine.State) (addr : BitVec 64), s.power.phase ≠ Phase.off ∧ i3cOpen addr.toNat = true) ∧
    (∃ (s : Machine.State), s.power.phase ≠ Phase.off ∧ ∃ y2 ∈ s.i3c, i3cOpen y2 = true) ∧
    (∃ (s : Machine.State) (q : ℕ) (addr : ℕ) (data : List Byte), q < 2 ∧ s.mayAccess (Agent.debug q) = true ∧ isRegAddr addr = true ∧ addr % 8 =
      0 ∧ data.length = 8) ∧
    (∃ (s : Machine.State) (q : ℕ) (addr : ℕ), q < 2 ∧ s.mayAccess (Agent.debug q) = true ∧ isRegAddr addr = true ∧ addr % 8 = 0) ∧
    (∃ (s : Machine.State) (q : ℕ) (addr : ℕ), q < 2 ∧ s.mayAccess (Agent.debug q) = true ∧ isRegAddr addr = false ∧ s.closed = true) ∧
    (∃ (s : Machine.State) (q : ℕ) (addr : ℕ) (data : List Byte), q < 2 ∧ s.mayAccess (Agent.debug q) = true ∧ isRegAddr addr = false ∧ s.closed =
      false ∧ (data.length = 1 ∨ data.length = 2 ∨ data.length = 4 ∨ data.length = 8 ∨ data.length = 16) ∧ addr % data.length = 0 ∧ ∃ y1 ∈
      s.anyWrite (engOf (4 + q)) addr data false, y1.1 = true) ∧
    (∃ (s : Machine.State) (q : ℕ) (addr : ℕ) (len : ℕ) (d : List Byte) (p : Bool), q < 2 ∧ s.mayAccess (Agent.debug q) = true ∧ isRegAddr addr =
      false ∧ s.closed = false ∧ (len = 1 ∨ len = 2 ∨ len = 4 ∨ len = 8 ∨ len = 16) ∧ addr % len = 0 ∧
     let r1 := s.anyRead (engOf (4 + q)) addr len
     r1.1 = GlzRead.got d p) :=
  ⟨⟨R, by decide +kernel⟩,
    ⟨R, 0x7F000000000, by decide +kernel⟩,
    ⟨{ R with i3c := some 0x7F000000000 }, by decide +kernel⟩,
    ⟨(dbg (powS (fun p => { p with phase := .held }))), 0, 0x7F000000000, (List.replicate 8 0), by decide +kernel⟩,
    ⟨(dbg (powS (fun p => { p with phase := .held }))), 0, 0x7F000000000, by decide +kernel⟩,
    ⟨(dbg (powS (fun p => { p with phase := .held }))), 0, 0, by decide +kernel⟩,
    ⟨(dbg (vaultOn R)), 0, 0, (List.replicate 8 0), by decide +kernel⟩,
    ⟨(dbg (vaultOn R)), 0, 0, 8, (List.replicate 8 0), false, by decide +kernel⟩⟩

theorem witness_StepRunsTheFrontCommand :
    ∃ (s : Machine.State), ∃ y1 ∈ s.pending.head?, True :=
    ⟨{ R with pending := [.seqStart 0] }, by decide +kernel⟩

theorem witness_IdleStep :
    ∃ (s : Machine.State), s.pending = [] :=
    ⟨R, by decide +kernel⟩

theorem witness_AfterReset :
    (∃ (die : ℕ), die < 6) ∧
    (∃ (die : ℕ) (blk : ℕ) (off : ℕ), fusedWord die blk off = none ∧ ∃ y1 ∈ findReg die die blk off, True) :=
  ⟨⟨(0), by decide +kernel⟩,
    ⟨(0), (0), (0), by decide +kernel⟩⟩

theorem witness_QueueDrainsInOrder :
    ∃ (s : Machine.State) (n : ℕ), n ≤ s.pending.length :=
    ⟨R, (0), by decide +kernel⟩

theorem witness_FieldAccessTypes :
    (∃ (d : RegDesc) (f : FieldDesc) (lighthouse : Bool), d ∈ regTable ∧ f ∈ d.fields ∧ f.acc = Acc.lh ∧ lighthouse = true) ∧
    (∃ (d : RegDesc) (f : FieldDesc) (lighthouse : Bool), d ∈ regTable ∧ f ∈ d.fields ∧ f.acc = Acc.lh ∧ lighthouse = false) ∧
    (∃ (d : RegDesc) (f : FieldDesc), d ∈ regTable ∧ f ∈ d.fields ∧ (f.acc = Acc.ro ∨ f.acc = Acc.rc ∨ f.acc = Acc.wo)) ∧
    (∃ (d : RegDesc) (f : FieldDesc), d ∈ regTable ∧ f ∈ d.fields ∧ f.acc = Acc.rw) ∧
    (∃ (d : RegDesc) (f : FieldDesc) (b : ℕ), d ∈ regTable ∧ f ∈ d.fields ∧ f.acc = Acc.w1c ∧ b ≤ f.hi - f.lo) ∧
    (∃ (d : RegDesc) (f : FieldDesc) (b : ℕ), d ∈ regTable ∧ f ∈ d.fields ∧ f.acc = Acc.w1s ∧ b ≤ f.hi - f.lo) ∧
    (∃ (d : RegDesc) (f : FieldDesc), d ∈ regTable ∧ f ∈ d.fields ∧ f.acc = Acc.wo) ∧
    (∃ (d : RegDesc) (f : FieldDesc), d ∈ regTable ∧ f ∈ d.fields ∧ f.acc ≠ Acc.wo) ∧
    (∃ (d : RegDesc) (f : FieldDesc), d ∈ regTable ∧ f ∈ d.fields ∧ f.acc = Acc.rc) ∧
    (∃ (d : RegDesc) (f : FieldDesc), d ∈ regTable ∧ f ∈ d.fields ∧ f.acc ≠ Acc.rc) ∧
    (∃ (d : RegDesc) (f : FieldDesc) (s : Machine.State) (agent : Agent) (die : ℕ) (blk : ℕ) (off : ℕ) (w : Word), d ∈ regTable ∧ f ∈ d.fields ∧
     let old := s.rd (regHolder d die) blk off
     agent ≠ Agent.lighthouse ∧ f.acc = Acc.lh ∧ bits old f.hi f.lo ≠ bits w f.hi f.lo) ∧
    (∃ (d : RegDesc) (f : FieldDesc) (s : Machine.State) (agent : Agent) (die : ℕ) (blk : ℕ) (off : ℕ) (w : Word), d ∈ regTable ∧ f ∈ d.fields ∧
     let old := s.rd (regHolder d die) blk off
     agent = Agent.lighthouse ∨ ∀ g ∈ d.fields, g.acc = Acc.lh → bits old g.hi g.lo = bits w g.hi g.lo) :=
  ⟨⟨((someField .lh).1), ((someField .lh).2), true, by decide +kernel⟩,
    ⟨((someField .lh).1), ((someField .lh).2), false, by decide +kernel⟩,
    ⟨((someField .ro).1), ((someField .ro).2), by decide +kernel⟩,
    ⟨((someField .rw).1), ((someField .rw).2), by decide +kernel⟩,
    ⟨((someField .w1c).1), ((someField .w1c).2), 0, by decide +kernel⟩,
    ⟨((someField .w1s).1), ((someField .w1s).2), 0, by decide +kernel⟩,
    ⟨((someField .wo).1), ((someField .wo).2), by decide +kernel⟩,
    ⟨((someField .ro).1), ((someField .ro).2), by decide +kernel⟩,
    ⟨((someField .rc).1), ((someField .rc).2), by decide +kernel⟩,
    ⟨((someField .ro).1), ((someField .ro).2), by decide +kernel⟩,
    ⟨((someField .lh).1), ((someField .lh).2), R, .engine, 0, 0, 0, 0xFFFFFFFFFFFFFFFF, by decide +kernel⟩,
    ⟨((someField .ro).1), ((someField .ro).2), R, .engine, 0, 0, 0, 0, by decide +kernel⟩⟩

theorem witness_UnoccupiedAndReserved :
    (∃ (s : Machine.State) (agent : Agent) (addr : ℕ) (die : ℕ) (blk : ℕ) (off : ℕ), s.regWay agent addr 8 = RegWay.reg die blk off ∧ findReg
      s.arb die blk off = none) ∧
    (∃ (d : RegDesc) (b : ℕ), d ∈ regTable ∧ b < 64 ∧ ∀ f ∈ d.fields, b < f.lo ∨ f.hi < b) ∧
    (∃ (d : RegDesc) (b : ℕ) (old : Word), d ∈ regTable ∧ b < 64 ∧ (∀ f ∈ d.fields, b < f.lo ∨ f.hi < b) ∧ BitVec.getLsbD old b = false) :=
  ⟨⟨R, .engine, (regAddr 4 0x1FF 0), 4, 0x1FF, 0, by decide +kernel⟩,
    ⟨((someField .ro).1), 4, by decide +kernel⟩,
    ⟨((someField .ro).1), 4, 0, by decide +kernel⟩⟩

theorem witness_MemoryKeepsItsOtherBytes :
    (∃ (s : Machine.State), s.stack.wf = true) ∧
    (∃ (die : ℕ) (v : ℕ) (block : ℕ) (w : List ℕ) (a : ℕ), a < rawKey die v block 0 ∨ rawKey die v block 0 + w.length ≤ a) ∧
    (∃ (s : Machine.State) (coff : ℕ) (dat : List Byte), coff + dat.length ≤ 2 ^ 34 ∧ s.shelf.wf = true) ∧
    (∃ (coff : ℕ) (dat : List Byte), coff + dat.length ≤ 2 ^ 34) ∧
    (∃ (ch : ℕ) (coff : ℕ) (dat : List Byte) (a : ℕ), coff + dat.length ≤ 2 ^ 34 ∧ (a < shelfKey ch coff ∨ shelfKey ch coff + dat.length ≤ a) ∧ (a
      < shelfKey ch (checkOff coff) ∨ shelfKey ch (checkOff coff) + 32 ≤ a)) :=
  ⟨⟨R, by decide +kernel⟩,
    ⟨(0), (0), (0), ([]), (0), by decide +kernel⟩,
    ⟨R, (0), ([0x00#8,  0x00#8,  0x00#8,  0x00#8,  0x00#8,  0x00#8,  0x00#8,  0x00#8,  0x00#8,  0x00#8,  0x00#8,  0x00#8,  0x00#8,  0x00#8,
      0x00#8,  0x00#8,  0x00#8,  0x00#8,  0x00#8,  0x00#8,  0x00#8,  0x00#8,  0x00#8,  0x00#8,  0x00#8,  0x00#8,  0x00#8,  0x00#8,  0x00#8,
      0x00#8,  0x00#8,  0x00#8,  0x00#8,  0x00#8,  0x00#8,  0x00#8,  0x00#8,  0x00#8,  0x00#8,  0x00#8,  0x00#8,  0x00#8,  0x00#8,  0x00#8,
      0x00#8,  0x00#8,  0x00#8,  0x00#8,  0x00#8,  0x00#8,  0x00#8,  0x00#8,  0x00#8,  0x00#8,  0x00#8,  0x00#8,  0x00#8,  0x00#8,  0x00#8,
      0x00#8,  0x00#8,  0x00#8,  0x00#8,  0x00#8]), by decide +kernel⟩,
    ⟨(0), ([0x00#8,  0x00#8,  0x00#8,  0x00#8,  0x00#8,  0x00#8,  0x00#8,  0x00#8,  0x00#8,  0x00#8,  0x00#8,  0x00#8,  0x00#8,  0x00#8,  0x00#8,
      0x00#8,  0x00#8,  0x00#8,  0x00#8,  0x00#8,  0x00#8,  0x00#8,  0x00#8,  0x00#8,  0x00#8,  0x00#8,  0x00#8,  0x00#8,  0x00#8,  0x00#8,
      0x00#8,  0x00#8,  0x00#8,  0x00#8,  0x00#8,  0x00#8,  0x00#8,  0x00#8,  0x00#8,  0x00#8,  0x00#8,  0x00#8,  0x00#8,  0x00#8,  0x00#8,
      0x00#8,  0x00#8,  0x00#8,  0x00#8,  0x00#8,  0x00#8,  0x00#8,  0x00#8,  0x00#8,  0x00#8,  0x00#8,  0x00#8,  0x00#8,  0x00#8,  0x00#8,
      0x00#8,  0x00#8,  0x00#8,  0x00#8]), by decide +kernel⟩,
    ⟨(0), (0), ([0x00#8,  0x00#8,  0x00#8,  0x00#8,  0x00#8,  0x00#8,  0x00#8,  0x00#8,  0x00#8,  0x00#8,  0x00#8,  0x00#8,  0x00#8,  0x00#8,
      0x00#8,  0x00#8,  0x00#8,  0x00#8,  0x00#8,  0x00#8,  0x00#8,  0x00#8,  0x00#8,  0x00#8,  0x00#8,  0x00#8,  0x00#8,  0x00#8,  0x00#8,
      0x00#8,  0x00#8,  0x00#8,  0x00#8,  0x00#8,  0x00#8,  0x00#8,  0x00#8,  0x00#8,  0x00#8,  0x00#8,  0x00#8,  0x00#8,  0x00#8,  0x00#8,
      0x00#8,  0x00#8,  0x00#8,  0x00#8,  0x00#8,  0x00#8,  0x00#8,  0x00#8,  0x00#8,  0x00#8,  0x00#8,  0x00#8,  0x00#8,  0x00#8,  0x00#8,
      0x00#8,  0x00#8,  0x00#8,  0x00#8,  0x00#8]), (64), by decide +kernel⟩⟩

theorem witness_EventClasses :
    (∃ (s : Machine.State) (es : List Event),
     let stops := List.filter (fun (e : Event) => decide (e.cls ≤ 2)) es
     stops ≠ [] ∧ s.isStopped = false) ∧
    (∃ (s : Machine.State) (es : List Event), s.isStopped = true ∧ ∀ e ∈ es, e.cls ≤ 2) ∧
    (∃ (es : List Event),
     let stops := List.filter (fun (e : Event) => decide (e.cls ≤ 2)) es
     stops = [] ∧ ∃ e ∈ es, e.cls = 3) ∧
    (∃ (es : List Event), ∃ y3 ∈ es.head?, es.tail = [] ∧
     let c := y3.cls
     c ∈ [5, 6, 7, 8]) :=
  ⟨⟨R, [⟨2, 0, 0, 0⟩], by decide +kernel⟩,
    ⟨(R.fset R.arb EVT_STATUS.STOPPED 1), [], by decide +kernel⟩,
    ⟨[⟨3, 0, 0, 0⟩], by decide +kernel⟩,
    ⟨[⟨5, 0, 0, 0⟩], by decide +kernel⟩⟩

/-- A walk serves an address of which the IOMMU keeps no translation, whichever the free choice of log entry 59 is. -/
theorem keptFor_none (s : State) (r : XlReq) (page : Nat) (h : ∀ e ∈ (s.iommuOf r.q).kept, e.page ≠ page) : s.keptFor r page = none := by
  have h2 : (s.iommuOf r.q).kept.find? (fun e => e.dev = r.dev && e.pasid = r.pasid && e.page = page && (e.write || !r.write)) = none :=
    List.find?_eq_none.mpr (fun e he => by simp [h e he])
  simp only [State.keptFor, h2]
  split <;> rfl

theorem witness_EveryStepKeepsInv : ∃ s t : State, s.Inv ∧ step s = .next t :=
  ⟨R, R, ⟨by decide +kernel, by decide +kernel⟩, rfl⟩
theorem witness_MemoryKeepsItsOtherBytes_init :
    ∃ (s t : State) (die v : Nat), (s.vault die v).initing = true ∧ exec (.vaultInitDone die v) s = .next t ∧ s.stack.wf = true ∧
      s.fbit die (MFS_INJECT.ARM.unit v) = false ∧
      (∃ a, a < rawKey die v 0 0 ∨ rawKey die v 0 0 + 2 ^ 32 ≤ a) ∧ (∃ a, rawKey die v 0 0 ≤ a ∧ a < rawKey die v 0 0 + 2 ^ 32) :=
  ⟨vaultIs (fun x => { x with initing := true }), _, 0, 0, by decide +kernel, rfl, by decide +kernel, by decide +kernel,
    ⟨rawKey 0 0 0 0 + 2 ^ 32, by decide +kernel⟩, ⟨rawKey 0 0 0 0, by decide +kernel⟩⟩

/-- The state after an IOMMU in bare mode that kept no translation has served an address (R233, R234). -/
def State.bareServed (s : State) (r : XlReq) (va : Nat) : State :=
  (((s.keepXlate r (va / 4096) (va / 4096)).iomCount r 1).iomCount r 4).pmuEvent r.q 0x210 1
theorem xlateAt_bare (s : State) (r : XlReq) (va : Nat) (h : ∀ e ∈ (s.iommuOf r.q).kept, e.page ≠ va / 4096)
    (hm : s.fget r.q IOM_DDTP.MODE = 1) (hp : r.pasid / 2 ^ 31 % 2 = 0) (hv : va < 2 ^ 56) :
    s.xlateAt r va = (.ok va, State.bareServed s r va) := by
  have hp' : ¬ r.pasid / 2 ^ 31 % 2 = 1 := by omega
  unfold State.xlateAt State.walk
  rw [keptFor_none s r _ h, hm, if_neg (by decide), if_pos rfl, if_neg hp', if_pos hv]
  rfl
theorem translate_bare (s : State) (q dev pasid a n : Nat) (w : Bool) (p : Nat × Nat × Nat)
    (hn : pagesOf a n = [p]) (h : ∀ e ∈ (s.iommuOf q).kept, e.page ≠ p.2.1 / 4096) (hm : s.fget q IOM_DDTP.MODE = 1)
    (hp : pasid / 2 ^ 31 % 2 = 0) (hv : p.2.1 < 2 ^ 56) :
    s.translate q dev pasid a n w = (.ok [p], State.bareServed s ⟨q, dev, pasid, w⟩ p.2.1) := by
  unfold State.translate
  rw [hn]
  simp only [List.foldl]
  rw [xlateAt_bare s ⟨q, dev, pasid, w⟩ p.2.1 h hm hp hv]
  rfl
def site7 (mode : Nat) : State :=
  ((R.fset 4 UCI_STATUS.STATE 4).fset 4 UCI_STATUS.PROTO 1).fset 4 IOM_DDTP.MODE mode
theorem site7_addr : (site7 1).siteAddr 0 0 false = (some (some 0), State.bareServed (site7 1) ⟨4, 0x1000, 0, false⟩ 0) := by
  unfold State.siteAddr
  rw [translate_bare (site7 1) 4 0x1000 0 0 64 false (0, 0, 64) (by decide +kernel) (by decide +kernel) (by decide +kernel)
    (by decide +kernel) (by decide +kernel)]
theorem site7_fault : ((site7 0).siteAddr 0 0 false).1 = some none := by
  unfold State.siteAddr State.translate
  rw [show pagesOf 0 64 = [(0, 0, 64)] by decide +kernel]
  simp only [List.foldl]
  unfold State.xlateAt
  rw [keptFor_none _ _ _ (by decide +kernel)]
  decide +kernel

def recD (op : Nat) (xs : List (Nat × Byte)) : State := recS op xs id id
def recJ (op : Nat) (xs : List (Nat × Byte)) : JRec := jrec op xs id
theorem witness_RequestsReachTheirHome_2 : ∃ (s : Machine.State) (agent : ℕ) (line : ℕ) (data : List Byte) (mask : ℕ) (poison : Bool) (i : Instr)
  (k : MsgKind) (write : Bool) (d : List Byte) (mk : ℕ) (p : Bool) (a : ℕ), data.length = 64 ∧ mask < 2 ^ 64 ∧ (i, k, write, d, mk, p) ∈
  [(Instr.rdS agent line, MsgKind.rdS, false, List.replicate 64 0, 0, false), (Instr.rdE agent line, MsgKind.rdE, true, List.replicate 64 0, 0,
  false), (Instr.rdNc agent line, MsgKind.rdNc, false, List.replicate 64 0, 0, false), (Instr.wrInv agent line data mask poison, MsgKind.wrInv,
  true, data, mask, poison), (Instr.wrWt agent line data mask poison, MsgKind.wrWt, true, data, mask, poison)] ∧ (agent = 7 ∨ agent = 8) ∧
  s.admitted (agent - 7) = true ∧ s.fbit (4 + (agent - 7)) UCI_STATUS.PROTO = true ∧
 let r4 := s.siteAddr (agent - 7) (line * 64) write
 r4.1 = some (some a) ∧ a < 2 ^ 44 ∧ r4.2.vwrInv = [] ∧ r4.2.anyMsg k agent (a / 64) = none := by
  refine ⟨site7 1, 7, 0, List.replicate 64 0, 0, false, .rdS 7 0, .rdS, false, List.replicate 64 0, 0, false, 0, by decide +kernel,
    by decide +kernel, by decide +kernel, by decide, by decide +kernel, by decide +kernel, ?_⟩
  dsimp only
  rw [show (7 : Nat) - 7 = 0 from rfl, show (0 : Nat) * 64 = 0 from rfl, site7_addr]
  decide +kernel
theorem witness_RequestsReachTheirHome_3 : ∃ (s : Machine.State) (agent : ℕ) (line : ℕ) (data : List Byte) (mask : ℕ) (poison : Bool) (i : Instr)
  (k : MsgKind) (write : Bool) (d : List Byte) (mk : ℕ) (p : Bool), data.length = 64 ∧ mask < 2 ^ 64 ∧ (i, k, write, d, mk, p) ∈ [(Instr.rdS agent
  line, MsgKind.rdS, false, List.replicate 64 0, 0, false), (Instr.rdE agent line, MsgKind.rdE, true, List.replicate 64 0, 0, false), (Instr.rdNc
  agent line, MsgKind.rdNc, false, List.replicate 64 0, 0, false), (Instr.wrInv agent line data mask poison, MsgKind.wrInv, true, data, mask,
  poison), (Instr.wrWt agent line data mask poison, MsgKind.wrWt, true, data, mask, poison)] ∧ (agent = 7 ∨ agent = 8) ∧ s.admitted (agent - 7) =
  true ∧ s.fbit (4 + (agent - 7)) UCI_STATUS.PROTO = true ∧
 let r1 := s.siteAddr (agent - 7) (line * 64) write
 r1.1 = some none :=
  ⟨site7 0, 7, 0, List.replicate 64 0, 0, false, .rdS 7 0, .rdS, false, List.replicate 64 0, 0, false, by decide +kernel, by decide +kernel,
    by decide +kernel, by decide, by decide +kernel, by decide +kernel, site7_fault⟩
theorem witness_QueueEntries_8 : ∃ (s : Machine.State) (queue : ℕ) (a : List (ℕ × ℕ × ℕ)) (b : List (ℕ × ℕ × ℕ)), ∃ y7 ∈ s.entryStarts queue 3,
 let r6 := y7.1.translate (y7.1.queueDie queue) queue (y7.1.queue queue).ctx.pasid (y7.2.num 32 8) (y7.2.num 48 8) false
 r6.1 = Xlate.ok a ∧
 let r5 := r6.2.translate (y7.1.queueDie queue) queue (y7.1.queue queue).ctx.pasid (y7.2.num 40 8) (y7.2.num 48 8) true
 r5.1 = Xlate.ok b ∧ y7.2.num 48 8 ≠ 0 ∧
 let parts := pairParts a b (y7.2.num 48 8)
 parts ≠ [] ∧ ∀ p ∈ parts, p.1 < 2 ^ 44 ∧ p.2.1 < 2 ^ 44 := by
  refine ⟨recD 3 [(0x30, 64), (0x2A, 1)], 0, [(0, 0, 64)], [(0, 0x10000, 64)], (recD 3 [(0x30, 64), (0x2A, 1)], recJ 3 [(0x30, 64), (0x2A, 1)]),
    rfl, ?_⟩
  dsimp only
  rw [translate_bare _ _ _ _ _ _ _ (0, 0, 64) (by decide +kernel) (by decide +kernel) (by decide +kernel) (by decide +kernel) (by decide +kernel)]
  refine ⟨rfl, ?_⟩
  rw [translate_bare _ _ _ _ _ _ _ (0, 0x10000, 64) (by decide +kernel) (by decide +kernel) (by decide +kernel) (by decide +kernel)
    (by decide +kernel)]
  refine ⟨rfl, ?_⟩
  decide +kernel
theorem witness_QueueEntries_9 : ∃ (s : Machine.State) (queue : ℕ) (parts : List (ℕ × ℕ × ℕ)), ∃ y6 ∈ s.entryStarts queue 4,
 let r5 := y6.1.translate (y6.1.queueDie queue) queue (y6.1.queue queue).ctx.pasid (y6.2.num 32 8) (List.take y6.2.inlineLen (List.drop 64
   y6.2.entry)).length true
 r5.1 = Xlate.ok parts ∧
 let ps := List.flatMap (fun (p : ℕ × ℕ × ℕ) => linePieces p.1 p.2.1 p.2.2) parts
 (∀ p ∈ ps, p.2.1 < 2 ^ 44) ∧
 let r2 := r5.2.inlineHere y6.2 (List.take y6.2.inlineLen (List.drop 64 y6.2.entry)) ps
 r2.2.1 = false ∧ r2.2.2 = false ∧ ∃ y1 ∈ r2.1.recOf y6.2.jid, True := by
  refine ⟨recD 4 [(4, 8)], 0, [(0, 0, 8)], (recD 4 [(4, 8)], recJ 4 [(4, 8)]), rfl, ?_⟩
  dsimp only
  rw [translate_bare _ _ _ _ _ _ _ (0, 0, 8) (by decide +kernel) (by decide +kernel) (by decide +kernel) (by decide +kernel) (by decide +kernel)]
  refine ⟨rfl, ?_⟩
  decide +kernel

theorem witness_QueueEntries_7 : ∃ (s : Machine.State) (queue : ℕ) (g : GlzCmd) (die : ℕ) (off : ℕ), ∃ y7 ∈ s.entryStarts queue 2,
 let r6 := y7.1.queueGlz queue y7.2
 r6.1 = some (Except.ok g) ∧ g.target < 2 ^ 44 ∧
 let v := r6.2.setRec { y7.2 with phase := JPhase.running, parts := 1 }
 regionOf g.target = Region.stack die off ∧ v.placeOfAddr g.target ≠ Place.nowhere ∧ v.wayCut (v.unitWay (v.queueDie queue) 0 g.target) = false :=
   by
  refine ⟨recD 2 [(0x44, 64)], 0, gfill (fun c => { c with src := .queue 0, dev := some (4, 0, 0) }), 0, 0, (recD 2 [(0x44, 64)], recJ 2 [(0x44,
    64)]), rfl, ?_⟩
  dsimp only
  unfold State.queueGlz State.translateOne
  dsimp only
  rw [translate_bare _ _ _ _ _ _ _ (0, 0, 64) (by decide +kernel) (by decide +kernel) (by decide +kernel) (by decide +kernel) (by decide +kernel)]
  decide +kernel

/-- A search finds a slot where one that it reaches is free, wherever the free value makes it begin. -/
theorem freeSlot_some (s : State) (n : Nat) (mk : Nat → Slot2M) (ok : Nat → Bool) (i : Nat) (hi : i < n)
    (h : ok ((s.free.1.toNat + i) % n) = true ∧ s.slotUsed (mk ((s.free.1.toNat + i) % n)) = false) :
    ∃ k, (s.freeSlot n mk ok).1 = some (mk k) := by
  unfold State.freeSlot
  dsimp only
  split
  · exact ⟨_, rfl⟩
  · rename_i hf
    have := List.find?_eq_none.mp hf i (List.mem_range.mpr hi)
    simp [h.1, h.2] at this
theorem witness_ShelfAndTide_3 : ∃ (s : Machine.State) (page : ℕ) (account : ℕ) (n : ℕ), s.fbit shDie TDL_CMD.BUSY = false ∧
 let t := s.tdlStart 1 page account
 page < t.pageCount ∧ mapFind t.remap page = none ∧ bits (t.rd shDie 96 (256 + 8 * (account % 64))) 63 44 < bits (t.rd shDie 96 (256 + 8 *
   (account % 64))) 19 0 ∧
 let r1 := t.freePool
 r1.1 = some (Slot2M.pool n) := by
  obtain ⟨k, h⟩ : ∃ k, ((((R.fset shDie SHF_SPLIT.DIRECT 15).wr shDie 96 256 5).tdlStart 1 0 0).freePool).1 = some (.pool k) :=
    freeSlot_some _ _ _ _ 0 (by decide +kernel) ⟨rfl, rfl⟩
  exact ⟨_, 0, 0, k, by decide +kernel, by decide +kernel, by decide +kernel, by decide +kernel, h⟩
theorem witness_ShelfAndTide_5 : ∃ (s : Machine.State) (page : ℕ) (n : ℕ), s.fbit shDie TDL_CMD.BUSY = false ∧
 let t := s.tdlStart 3 page 0
 ∃ y4 ∈ t.page page, y4.slot = Slot2M.pool n ∧ t.reserve ≠ 0 ∧
 let r1 := t.freeReserve
 ∃ y1 ∈ r1.1, True := by
  refine ⟨remapS (.pool 0), 0, 0, by decide +kernel, ⟨.pool 0, 0, 0, false⟩, by decide +kernel, rfl, by decide +kernel, ?_⟩
  have h : ∃ k, (((remapS (.pool 0)).tdlStart 3 0 0).freeReserve).1 = some (.reserve k) := by
    by_cases hv : ((remapS (.pool 0)).tdlStart 3 0 0).free.1.toNat % 2049 = 0
    · exact freeSlot_some _ 2049 _ (fun k => k ≠ 0) 1 (by decide) ⟨by simp only [decide_eq_true_eq]; omega, rfl⟩
    · exact freeSlot_some _ 2049 _ (fun k => k ≠ 0) 0 (by decide) ⟨by simp only [decide_eq_true_eq]; omega, rfl⟩
  obtain ⟨k, h⟩ := h
  exact ⟨_, h, trivial⟩

def mgrS : State := portS (fun s => s.fset shDie BWF_MGR.OPEN 1)
theorem mgrS_write (x : Bool) : mgrS.fabMay x 4 0x100 0 true = true := by cases x <;> decide +kernel
theorem witness_FabricRequests_10 : ∃ (s : Machine.State) (port : ℕ) (m : FabMsg) (v : Word) (t : Machine.State), s.fabFresh port m = true ∧ m.typ
  = mWRREG ∧ isRegRange m.addr = true ∧ s.fabReg port (Config.serialOf m.src).toNat m.addr (some (BitVec.ofNat 64 (m.units.headD 0))) = Except.ok
  (v, t) := by
  obtain ⟨v, t, h⟩ : ∃ v t, mgrS.fabReg 0 (Config.serialOf 5).toNat (regAddr 4 0x100 0) (some 0) = .ok (v, t) := by
    unfold State.fabReg
    dsimp only
    rw [if_neg (by decide +kernel), show (regAt (regAddr 4 0x100 0)) = (4, 0x100, 0) by decide +kernel]
    rw [if_neg (by simp [mgrS_write]), if_neg (by decide +kernel)]
    exact ⟨_, _, rfl⟩
  exact ⟨mgrS, 0, fmsg mWRREG 0 (regAddr 4 0x100 0) 1, v, t, by decide +kernel, rfl, by decide +kernel, h⟩

end Sys2Proof.Tests
end

section
/-!
The fields of a register. The writes, the reads and the reset word of R9 to R13 each go over the fields of a register in turn and replace
some of them: what such a pass leaves in a field, and in a reserved bit, is proved once here for `updateFields`.
-/
namespace Sys2Proof.Machine

/-- The fields of a register lie within its word and share no bit (R6). -/
structure FieldsLaidOut (fs : List FieldDesc) : Prop where
  fits : ∀ f ∈ fs, f.lo ≤ f.hi ∧ f.hi < 64
  apart : fs.Pairwise (fun f g => g.hi < f.lo ∨ f.hi < g.lo)

/-- A bit that no field holds (R9). -/
def ReservedBit (fs : List FieldDesc) (b : Nat) : Prop := ∀ f ∈ fs, b < f.lo ∨ f.hi < b

theorem FieldsLaidOut.tail {f : FieldDesc} {fs : List FieldDesc} (h : FieldsLaidOut (f :: fs)) : FieldsLaidOut fs :=
  ⟨fun g hg => h.fits g (.tail _ hg), h.apart.of_cons⟩

theorem FieldsLaidOut.head_apart {f g : FieldDesc} {fs : List FieldDesc} (h : FieldsLaidOut (f :: fs)) (hg : g ∈ fs) :
    g.hi < f.lo ∨ f.hi < g.lo :=
  List.rel_of_pairwise_cons h.apart hg

theorem fieldsLaidOut_regTable {d : RegDesc} (hd : d ∈ regTable) : FieldsLaidOut d.fields :=
  have fits : ∀ d ∈ regTable, ∀ f ∈ d.fields, f.lo ≤ f.hi ∧ f.hi < 64 := by decide +kernel
  have apart : ∀ d ∈ regTable, d.fields.Pairwise (fun f g => g.hi < f.lo ∨ f.hi < g.lo) := by decide +kernel
  ⟨fits d hd, apart d hd⟩

/-! ## One pass over the fields -/

/-- A word with each field that `p` selects replaced by the value that `g` gives it. -/
def updateFields (p : FieldDesc → Prop) [DecidablePred p] (g : FieldDesc → Nat) (fs : List FieldDesc) (w : Word) : Word :=
  fs.foldl (fun v f => if p f then setBits v f.hi f.lo (g f) else v) w

section Pass

variable (p : FieldDesc → Prop) [DecidablePred p] (g : FieldDesc → Nat) {fs : List FieldDesc}

theorem updateFields_cons (f : FieldDesc) (w : Word) :
    updateFields p g (f :: fs) w = updateFields p g fs (if p f then setBits w f.hi f.lo (g f) else w) := rfl

/-- The pass keeps a reserved bit. -/
theorem getLsbD_updateFields_reserved (hfs : FieldsLaidOut fs) {b : Nat} (hb : ReservedBit fs b) (w : Word) :
    (updateFields p g fs w).getLsbD b = w.getLsbD b := by
  induction fs generalizing w with
  | nil => rfl
  | cons f fs ih =>
    obtain ⟨hlo, hhi⟩ := hfs.fits f (.head _)
    have outside : ¬ (f.lo ≤ b ∧ b ≤ f.hi) := by have := hb f (.head _); omega
    rw [updateFields_cons, ih hfs.tail fun f hf => hb f (.tail _ hf)]
    split
    · rw [getLsbD_setBits _ _ _ _ _ hhi hlo, if_neg outside]
    · rfl

/-- The pass keeps what lies apart from every field that it goes over. -/
theorem bits_updateFields_apart (hfs : FieldsLaidOut fs) {hi lo : Nat} (h : ∀ f ∈ fs, hi < f.lo ∨ f.hi < lo) (w : Word) :
    bits (updateFields p g fs w) hi lo = bits w hi lo := by
  induction fs generalizing w with
  | nil => rfl
  | cons f fs ih =>
    obtain ⟨hlo, hhi⟩ := hfs.fits f (.head _)
    rw [updateFields_cons, ih hfs.tail fun f hf => h f (.tail _ hf)]
    split
    · exact bits_setBits_other _ _ _ _ _ _ hhi hlo (h f (.head _))
    · rfl

/-- The pass gives a field its new value where `p` selects it, and keeps it otherwise: the fields after it do not touch it, and neither
did those before it. -/
theorem bits_updateFields_field (hfs : FieldsLaidOut fs) {f : FieldDesc} (hf : f ∈ fs) (w : Word) :
    bits (updateFields p g fs w) f.hi f.lo = if p f then g f % 2 ^ (f.hi + 1 - f.lo) else bits w f.hi f.lo := by
  induction fs generalizing w with
  | nil => cases hf
  | cons e fs ih =>
    obtain ⟨hlo, hhi⟩ := hfs.fits e (.head _)
    rw [updateFields_cons]
    rcases List.mem_cons.mp hf with rfl | hf
    · rw [bits_updateFields_apart p g hfs.tail fun e he => (hfs.head_apart he).symm]
      split
      · exact bits_setBits_same _ _ _ _ hhi hlo
      · rfl
    · have keeps : bits (if p e then setBits w e.hi e.lo (g e) else w) f.hi f.lo = bits w f.hi f.lo := by
        split
        · exact bits_setBits_other _ _ _ _ _ _ hhi hlo (hfs.head_apart hf)
        · rfl
      rw [ih hfs.tail hf, keeps]

end Pass

/-! ## The passes of the model -/

theorem packReset_eq_updateFields (fs : List FieldDesc) : packReset fs = updateFields (fun _ => True) (·.reset) fs 0 := by
  simp [packReset, updateFields]

theorem afterWrite_eq_updateFields (d : RegDesc) (lh : Bool) (old w : Word) :
    afterWrite d lh old w = updateFields (fun _ => True)
      (fun f => fieldAfter f.acc lh (bits old f.hi f.lo) (bits w f.hi f.lo)) d.fields old := by
  simp [afterWrite, updateFields]

theorem afterRead_eq_updateFields (d : RegDesc) (w : Word) :
    afterRead d w = updateFields (·.acc = .rc) (fun _ => 0) d.fields w := rfl

theorem hideWo_eq_updateFields (d : RegDesc) (w : Word) :
    hideWo d w = updateFields (·.acc = .wo) (fun _ => 0) d.fields w := rfl

/-- The value of a field after a write fits the field. -/
theorem fieldAfter_lt (a : Acc) (lh : Bool) {old new n : Nat} (ho : old < 2 ^ n) (hn : new < 2 ^ n) :
    fieldAfter a lh old new < 2 ^ n := by
  cases a
  case ro | rc | wo => exact ho
  case rw => exact hn
  case w1c => exact Nat.and_le_left.trans_lt ho
  case w1s => exact Nat.or_lt_two_pow ho hn
  case lh => cases lh; exacts [ho, hn]

variable {d : RegDesc} {f : FieldDesc}

/-- What a write leaves in a field (R11). -/
theorem bits_afterWrite (hd : d ∈ regTable) (hf : f ∈ d.fields) (lh : Bool) (old w : Word) :
    bits (afterWrite d lh old w) f.hi f.lo = fieldAfter f.acc lh (bits old f.hi f.lo) (bits w f.hi f.lo) := by
  rw [afterWrite_eq_updateFields, bits_updateFields_field _ _ (fieldsLaidOut_regTable hd) hf, if_pos trivial]
  exact Nat.mod_eq_of_lt (fieldAfter_lt _ _ (bits_lt _ _ _) (bits_lt _ _ _))

/-- What a read leaves in a field (R11). -/
theorem bits_afterRead (hd : d ∈ regTable) (hf : f ∈ d.fields) (w : Word) :
    bits (afterRead d w) f.hi f.lo = if f.acc = .rc then 0 else bits w f.hi f.lo := by
  rw [afterRead_eq_updateFields, bits_updateFields_field _ _ (fieldsLaidOut_regTable hd) hf, Nat.zero_mod]

/-- What a read returns of a field (R11). -/
theorem bits_hideWo (hd : d ∈ regTable) (hf : f ∈ d.fields) (w : Word) :
    bits (hideWo d w) f.hi f.lo = if f.acc = .wo then 0 else bits w f.hi f.lo := by
  rw [hideWo_eq_updateFields, bits_updateFields_field _ _ (fieldsLaidOut_regTable hd) hf, Nat.zero_mod]

variable {b : Nat}

theorem getLsbD_packReset_reserved (hd : d ∈ regTable) (hb : ReservedBit d.fields b) : (packReset d.fields).getLsbD b = false := by
  rw [packReset_eq_updateFields, getLsbD_updateFields_reserved _ _ (fieldsLaidOut_regTable hd) hb]
  exact BitVec.getLsbD_zero

theorem getLsbD_afterWrite_reserved (hd : d ∈ regTable) (hb : ReservedBit d.fields b) (lh : Bool) (old w : Word) :
    (afterWrite d lh old w).getLsbD b = old.getLsbD b := by
  rw [afterWrite_eq_updateFields, getLsbD_updateFields_reserved _ _ (fieldsLaidOut_regTable hd) hb]

theorem getLsbD_afterRead_reserved (hd : d ∈ regTable) (hb : ReservedBit d.fields b) (w : Word) :
    (afterRead d w).getLsbD b = w.getLsbD b := by
  rw [afterRead_eq_updateFields, getLsbD_updateFields_reserved _ _ (fieldsLaidOut_regTable hd) hb]

theorem getLsbD_hideWo_reserved (hd : d ∈ regTable) (hb : ReservedBit d.fields b) (w : Word) :
    (hideWo d w).getLsbD b = w.getLsbD b := by
  rw [hideWo_eq_updateFields, getLsbD_updateFields_reserved _ _ (fieldsLaidOut_regTable hd) hb]

/-- A bit set outside a field does not show in the field. -/
theorem bits_or_two_pow_outside {hi lo : Nat} (h : b < lo ∨ hi < b) (w : Word) :
    bits (w ||| BitVec.ofNat 64 (2 ^ b)) hi lo = bits w hi lo := by
  apply Nat.eq_of_testBit_eq
  intro i
  rw [testBit_bits, testBit_bits, BitVec.getLsbD_or, BitVec.getLsbD_ofNat, Nat.testBit_two_pow]
  by_cases hi : i < hi + 1 - lo
  · have : b ≠ lo + i := by omega
    simp [this]
  · simp [hi]

/-- What is written to a reserved bit changes nothing. -/
theorem afterWrite_or_reserved (hb : ReservedBit d.fields b) (lh : Bool) (old w : Word) :
    afterWrite d lh old (w ||| BitVec.ofNat 64 (2 ^ b)) = afterWrite d lh old w :=
  List.foldl_ext _ _ _ fun v f hf => by rw [bits_or_two_pow_outside (hb f hf)]

/-! ## Violations of LH fields, and registers that no table lists -/

/-- A write leaves the LH fields alone exactly where each would receive the value that it holds. -/
theorem touchesLh_eq_false (old w : Word) :
    touchesLh d old w = false ↔ ∀ g ∈ d.fields, g.acc = .lh → bits old g.hi g.lo = bits w g.hi g.lo := by
  simp [touchesLh]

/-- An LH field that would change is a violation (R11). -/
theorem touchesLh_of_change (hf : f ∈ d.fields) (ha : f.acc = .lh) {old w : Word} (h : bits old f.hi f.lo ≠ bits w f.hi f.lo) :
    touchesLh d old w = true :=
  List.any_eq_true.mpr ⟨f, hf, by simp [ha, h]⟩

variable (s : State) {agent : Agent} {addr die blk off : Nat}

/-- A write by the field access types alone logs nothing where Lighthouse writes or the LH fields keep their values. -/
theorem State.regGen_allowed (w : Word)
    (h : agent = .lighthouse ∨ touchesLh d (s.rd (regHolder d die) blk off) w = false) :
    s.regGen agent d die blk off w = s.wr (regHolder d die) blk off
      (afterWrite d (decide (agent = .lighthouse)) (s.rd (regHolder d die) blk off) w) := by
  rcases h with h | h <;> simp [State.regGen, h]

/-- Another agent's write that would change an LH field is logged on the Q-die that received it (R11). -/
theorem State.regGen_violation (w : Word) (ha : agent ≠ .lighthouse)
    (h : touchesLh d (s.rd (regHolder d die) blk off) w = true) :
    s.regGen agent d die blk off w = (s.wr (regHolder d die) blk off
      (afterWrite d (decide (agent = .lighthouse)) (s.rd (regHolder d die) blk off) w)).logErr
        (s.regQ agent (regAddr die blk off)) 2 0x0C 0 0x1 (regAddr die blk off) := by
  simp [State.regGen, ha, h]

theorem State.regVal_unoccupied (h : findReg s.arb die blk off = none) : s.regVal die blk off = 0 := by
  simp [State.regVal, h]

theorem State.regTaken_unoccupied (h : findReg s.arb die blk off = none) : s.regTaken die blk off = s := by
  simp [State.regTaken, h]

theorem State.regWrite_unoccupied (h : findReg s.arb die blk off = none) (agent : Agent) (w : Word) :
    s.regWrite agent die blk off w = s := by
  simp [State.regWrite, h]

/-- A write that the way leads to a register is performed there and answered. -/
theorem State.regPut_reg {len : Nat} (h : s.regWay agent addr len = .reg die blk off) (w : Word) :
    s.regPut agent addr len w = (s.regWrite agent die blk off w).emit (.done agent addr) := by
  simp [State.regPut, h]

/-- A read that the way leads to a register takes what it returns. -/
theorem State.regGet_reg {len : Nat} (h : s.regWay agent addr len = .reg die blk off) :
    s.regGet agent addr len = (s.regTaken die blk off).emit (.regData agent (s.regVal die blk off)) := by
  simp [State.regGet, h]

/-- Before anything has written it, a register reads its reset word. -/
@[simp] theorem State.rd_reset (die blk off : Nat) : State.reset.rd die blk off = resetWord die blk off := rfl

theorem resetWord_of_findReg (hf : fusedWord die blk off = none) (hd : findReg die die blk off = some d) :
    resetWord die blk off = packReset d.fields := by
  simp [resetWord, hf, hd]

end Sys2Proof.Machine
end

section
/-!
The statements of 00_scope.md: field access types, unoccupied offsets and reserved bits, register commands, reset values.
-/
namespace Sys2Proof.Machine

/-- What a write leaves in a field, type by type (R11). -/
theorem fieldAfter_byType (a : Acc) (lh : Bool) {old new n : Nat} :
    (a = .lh → lh = true → fieldAfter a lh old new = new) ∧
    (a = .lh → lh = false → fieldAfter a lh old new = old) ∧
    (a = .ro ∨ a = .rc ∨ a = .wo → fieldAfter a lh old new = old) ∧
    (a = .rw → fieldAfter a lh old new = new) ∧
    (a = .w1c → ∀ b, b ≤ n → (fieldAfter a lh old new).testBit b = (old.testBit b && !new.testBit b)) ∧
    (a = .w1s → ∀ b, b ≤ n → (fieldAfter a lh old new).testBit b = (old.testBit b || new.testBit b)) := by
  refine ⟨?_, ?_, ?_, ?_, ?_, ?_⟩
  · rintro rfl rfl; rfl
  · rintro rfl rfl; rfl
  · rintro (rfl | rfl | rfl) <;> rfl
  · rintro rfl; rfl
  · rintro rfl b -
    cases h : old.testBit b <;> simp [fieldAfter, h]
  · rintro rfl b -
    simp [fieldAfter]

/-- Settles O57: the layout of the register table makes every pass act on each field alone, so the field's own type decides. -/
theorem fieldAccessTypes : Obligations.FieldAccessTypes := by
  intro d hd f hf
  refine ⟨?_, fun w => ?_, ?_⟩
  · rintro lighthouse old w _ rfl
    rw [bits_afterWrite hd hf]
    exact fieldAfter_byType f.acc lighthouse
  · rw [bits_hideWo hd hf, bits_afterRead hd hf]
    exact ⟨fun h => if_pos h, fun h => if_neg h, fun h => if_pos h, fun h => if_neg h⟩
  · rintro s _ agent die blk off _ w rfl rfl
    refine ⟨fun ha hlh hne => s.regGen_violation w ha (touchesLh_of_change hf hlh hne), fun h => s.regGen_allowed w ?_⟩
    exact h.imp_right (touchesLh_eq_false _ _).mpr

/-- Settles O58: nothing answers for an offset that the table does not list, and no pass over the fields reaches a reserved bit. -/
theorem unoccupiedAndReserved : Obligations.UnoccupiedAndReserved := by
  refine ⟨fun s agent addr die blk off w hway hnone => ⟨s.regVal_unoccupied hnone, ?_, ?_⟩, fun d hd b _ hb => ⟨?_, ?_, ?_, ?_⟩⟩
  · rw [s.regGet_reg hway, s.regTaken_unoccupied hnone, s.regVal_unoccupied hnone]
  · rw [s.regPut_reg hway, s.regWrite_unoccupied hnone]
  · exact getLsbD_packReset_reserved hd hb
  · intro lighthouse old w h
    rw [getLsbD_afterWrite_reserved hd hb, h]
  · intro old h
    rw [getLsbD_afterRead_reserved hd hb, getLsbD_hideWo_reserved hd hb]
    exact ⟨h, h⟩
  · exact afterWrite_or_reserved hb

/-! ## The commands -/

section Commands

variable (s : State) {agent : Agent} {addr : Nat}

theorem exec_registerWrite (len : Nat) (w : Word) :
    exec (.registerWrite agent addr len w) s = .next (s.sealed (effRegisterWrite agent addr len w s)) := rfl

theorem exec_readClear (len : Nat) :
    exec (.readClear agent addr len) s = .next (s.sealed (effReadClear agent addr len s)) := rfl

theorem exec_pkgIdWrite (die : Nat) (w : Word) :
    exec (.pkgIdWrite agent die w) s = .next (s.sealed (effPkgIdWrite agent die w s)) := rfl

/-- A permitted write in the register range goes its way. -/
theorem effRegisterWrite_permitted (hr : isRegAddr addr = true) (ha : s.mayAccess agent = true)
    (hm : s.mayReg agent addr true = true) (len : Nat) (w : Word) :
    effRegisterWrite agent addr len w s = s.regPut agent addr len w := by
  simp [effRegisterWrite, hr, ha, hm]

/-- A permitted read in the register range goes its way. -/
theorem effReadClear_permitted (hr : isRegAddr addr = true) (ha : s.mayAccess agent = true)
    (hm : s.mayReg agent addr false = true) (len : Nat) :
    effReadClear agent addr len s = s.regGet agent addr len := by
  simp [effReadClear, hr, ha, hm]

/-- A permitted write of PKG_ID is performed and answered. -/
theorem effPkgIdWrite_permitted {die : Nat} (hq : isQ die = true) (ha : s.mayAccess agent = true) (hans : s.answers die 0x180 = true)
    (hm : s.mayReg agent (regAddr die 0x180 0) true = true) (w : Word) :
    effPkgIdWrite agent die w s = (s.pkgIdWrite w).emit (.done agent (regAddr die 0x180 0)) := by
  simp [effPkgIdWrite, hq, ha, hans, hm]

/-- A write of PKG_ID while the ID is valid: IDENT is sent again exactly where the identity changes (R378), and no collective waits for
a first ID. -/
theorem State.pkgIdWrite_valid (hv : s.idValid = true) (w : Word) {u : State}
    (hu : u = s.fsets shDie [(PKG_ID.ID_VALID, bits w 31 31), (PKG_ID.ID, bits w 11 0)]) :
    s.pkgIdWrite w = if u.idValid = s.idValid ∧ u.ownId = s.ownId then u else u.identAll := by
  simp [State.pkgIdWrite, ← hu, hv]

end Commands

/-- Settles O1: each command is the sealed effect, and a permitted access goes its way to the register. -/
theorem registerCommandsComplete : Obligations.RegisterCommandsComplete := by
  refine ⟨?_, ?_, ?_⟩
  · intro s agent addr len die blk off w hr ha hm hway
    rw [exec_registerWrite, effRegisterWrite_permitted s hr ha hm, s.regPut_reg hway]
  · intro s agent addr len die blk off hr ha hm hway
    rw [exec_readClear, effReadClear_permitted s hr ha hm, s.regGet_reg hway]
  · intro s agent die w hq ha hans hm u hu hv
    rw [exec_pkgIdWrite, effPkgIdWrite_permitted s hq ha hans hm, s.pkgIdWrite_valid hv w hu]
    exact ⟨fun hvalid hid => by rw [if_pos ⟨hvalid, hid⟩], fun hid => by rw [if_neg fun h => hid h.2]⟩

/-- Settles O52: with no register written yet, every read is the reset word of the table. -/
theorem afterReset : Obligations.AfterReset := by
  refine ⟨rfl, rfl, rfl, rfl, ?_, ?_, ?_, ?_⟩
  · decide +kernel
  · decide +kernel
  · decide +kernel
  · intro die blk off d hfused hd
    rw [State.rd_reset, resetWord_of_findReg hfused hd]

end Sys2Proof.Machine
end

section
/-!
The statements of 01_package.md: how a die stops and returns (R21, R253, R254).
-/
namespace Sys2Proof.Machine

/-! ## C-dies and Q-dies -/

section Dies
variable {die : Nat}

theorem lt_of_isC (hc : isC die = true) : die < 6 := by
  have h : die < 4 := by simpa [isC] using hc
  omega

theorem lt_of_isQ (hq : isQ die = true) : die < 6 := by
  have h : die = 4 ∨ die = 5 := by simpa [isQ] using hq
  omega

theorem isC_eq_false_of_isQ (hq : isQ die = true) : isC die = false := by
  have h : die = 4 ∨ die = 5 := by simpa [isQ] using hq
  rcases h with rfl | rfl <;> rfl

theorem isQ_eq_false_of_isC (hc : isC die = true) : isQ die = false :=
  eq_false_of_ne_true fun hq => by simp [isC_eq_false_of_isQ hq] at hc

end Dies

/-! ## The commands -/

section Commands
variable (s : State) {die peer : Nat}

theorem exec_dieReset : exec (.dieReset die) s = .next (s.sealed (effDieReset die s)) := rfl

theorem exec_dieResetExit : exec (.dieResetExit die) s = .next (s.sealed (effDieResetExit die s)) := rfl

theorem exec_clockReturn : exec (.clockReturn die) s = .next (s.sealed (effClockReturn die s)) := rfl

theorem exec_clockLoss (tags : Bool) : exec (.clockLoss die tags) s = .next (s.sealed (effClockLoss die tags s)) := rfl

theorem exec_downNotice : exec (.downNotice die peer) s = .next (s.sealed (effDownNotice die peer s)) := rfl

theorem exec_forwardedClockLoss :
    exec (.forwardedClockLoss die peer) s = .next (s.sealed (effForwardedClockLoss die peer s)) := rfl

/-! ### Reset and return -/

/-- The reset of a running C-die sends a notice to each peer, then stops the die (R253, R254). -/
theorem effDieReset_running (hc : isC die = true) (hup : s.dieUp die = true) :
    effDieReset die s =
      (({ s with links := { s.links with notices := s.links.notices ++ (jtyPeers die).map (fun p => (die, p)) } } :
        State).stopDie die 1).fset shDie PKG_DIE_RESET.RESET
        (bits (setBits (BitVec.ofNat 64 (s.fget shDie PKG_DIE_RESET.RESET)) die die 1) 3 0) := by
  simp [effDieReset, hc, hup]

theorem effDieResetExit_inReset (hc : isC die = true) (hm : mapGet 0 s.dieMode die = 1) :
    effDieResetExit die s = s.dieReturns die := by
  simp [effDieResetExit, hc, hm]

/-- The index of a C-die names no reference clock, so its clock returns to it alone. -/
theorem effClockReturn_stopped (hc : isC die = true) (hm : mapGet 0 s.dieMode die = 2) :
    effClockReturn die s = s.dieReturns die := by
  have hlt := lt_of_isC hc
  have h6 : die ≠ 6 := by omega
  have h7 : die ≠ 7 := by omega
  simp [effClockReturn, h6, h7, hc, hm]

/-! ### The loss of a clock -/

/-- A C-die in reset stays stopped, now for its clock. -/
theorem State.loseClock_inReset (hc : isC die = true) (hm : mapGet 0 s.dieMode die = 1) : s.loseClock die = s.setMode die 2 := by
  simp [State.loseClock, hc, hm]

theorem State.loseClock_runningC (hc : isC die = true) (hm : mapGet 0 s.dieMode die ≠ 1) (hup : s.dieUp die = true) :
    s.loseClock die = s.stopDie die 2 := by
  simp [State.loseClock, hm, hup, isQ_eq_false_of_isC hc]

theorem State.loseClock_runningQ (hq : isQ die = true) (hup : s.dieUp die = true) : s.loseClock die = s.loseQ die := by
  simp [State.loseClock, isC_eq_false_of_isQ hq, hup, hq]

theorem effClockLoss_die (hlt : die < 6) : effClockLoss die false s = s.loseClock die := by
  simp [effClockLoss, Nat.not_le.mpr hlt]

/-- A reference clock stops every die that it feeds, in the order of their indices (R21). -/
theorem effClockLoss_ref {ref : Nat} (href : ref = 6 ∨ ref = 7) (tags : Bool) :
    effClockLoss ref tags s = ((if ref = 6 then [0, 1, 4] else [2, 3, 5]) : List Nat).foldl (fun t d => t.loseClock d) s := by
  rcases href with rfl | rfl <;> rfl

/-- A parity loss of the tags is recorded, and the C-die stops as for a reset (R535). -/
theorem effClockLoss_tags (hc : isC die = true) (hup : s.dieUp die = true) :
    effClockLoss die true s = effDieReset die (s.logErr die 3 0x07 0 0x2 0) := by
  simp [effClockLoss, Nat.not_le.mpr (lt_of_isC hc), hup, isQ_eq_false_of_isC hc]

/-! ### The peer's end of a link -/

theorem effDownNotice_running (hn : s.links.notices.contains (peer, die) = true) (hup : s.dieUp die = true) :
    effDownNotice die peer s =
      ({ s with links := { s.links with notices := s.links.notices.filter (· ≠ (peer, die)) } } : State).fenceEnd die peer :=
  if_pos (by rw [hn, hup]; rfl)

/-- An end that no notice has reached and that is not yet fenced detects the loss of its peer's clock (R254). -/
theorem effForwardedClockLoss_detected {k q b : Nat} (hhome : linkHome die peer = some (q, b)) (hblk : jtyBlk die peer = some k)
    (hup : s.dieUp die = true) (hdown : s.dieUp peer = false) (hn : s.links.notices.contains (peer, die) = false)
    (hf : s.links.fenced.contains (die, peer) = false) (hst : s.fget die (JTY_STATUS.STATE.inBlk k) ≠ jDOWN) :
    effForwardedClockLoss die peer s =
      ((s.fenceEnd die peer).finc die (JTY_CNT.CLKLOSS_CNT.inBlk k)).logErr die 3 0x06 (b - 0x290) 0x2 peer := by
  simp only [effForwardedClockLoss, hhome, hblk, hup, hdown, hn, hf]
  simp [hst]

end Commands

/-- Settles O26: each command is the sealed effect, and the effect takes the branch that the die's mode names. -/
theorem dieStopsAndReturns : Obligations.DieStopsAndReturns := by
  intro s
  refine ⟨?reset, ?exit, ?clockBack, ?lossInReset, ?reference, ?lossOfC, ?lossOfQ, ?notice, ?forwarded⟩
  case reset =>
    intro die hc hup
    rw [exec_dieReset, effDieReset_running s hc hup]
  case exit =>
    intro die hc hm
    rw [exec_dieResetExit, effDieResetExit_inReset s hc hm]
  case clockBack =>
    intro die hc hm
    rw [exec_clockReturn, effClockReturn_stopped s hc hm]
  case lossInReset =>
    intro die hc hm
    rw [exec_clockLoss, effClockLoss_die s (lt_of_isC hc), s.loseClock_inReset hc hm]
  case reference =>
    intro ref href
    rw [exec_clockLoss, effClockLoss_ref s href]
  case lossOfC =>
    intro die hc hm hup
    constructor
    · rw [exec_clockLoss, effClockLoss_die s (lt_of_isC hc), s.loseClock_runningC hc hm hup]
    · rw [exec_clockLoss, effClockLoss_tags s hc hup]
  case lossOfQ =>
    intro die hq hup
    rw [exec_clockLoss, effClockLoss_die s (lt_of_isQ hq), s.loseClock_runningQ hq hup]
  case notice =>
    intro die peer hn hup
    rw [exec_downNotice, effDownNotice_running s hn hup]
  case forwarded =>
    intro die peer k q b hhome hblk hup hdown hn hf hst
    rw [exec_forwardedClockLoss, effForwardedClockLoss_detected s hhome hblk hup hdown hn hf hst]

end Sys2Proof.Machine
end

section
/-!
The statements of 02_tide_core.md: the sequencer's control commands (R75, R91 to R94, R101), and the injection, fault and slab-window
commands of a core (R46, R50, R56, R57, R61).
-/
namespace Sys2Proof.Machine

/-! ## The commands -/

section Commands
variable (s : State) {die core : Nat}

theorem exec_seqLoad : exec (.seqLoad die) s = .next (s.sealed (effSeqLoad die s)) := rfl

theorem exec_imageLoadDone : exec (.imageLoadDone die) s = .next (s.sealed (effImageLoadDone die s)) := rfl

theorem exec_seqStart : exec (.seqStart die) s = .next (s.sealed (effSeqStart die s)) := rfl

theorem exec_seqAbort : exec (.seqAbort die) s = .next (s.sealed (effSeqAbort die s)) := rfl

theorem exec_seqTokenAdd (n inc : Nat) :
    exec (.seqTokenAdd die n inc) s = .next (s.sealed (effSeqTokenAdd die n inc s)) := rfl

theorem exec_tcInjectSlabParity :
    exec (.tcInjectSlabParity die core) s = .next (s.sealed (effTcInjectSlabParity die core s)) := rfl

theorem exec_tcInjectResidue : exec (.tcInjectResidue die core) s = .next (s.sealed (effTcInjectResidue die core s)) := rfl

theorem exec_tcFaultClear (w : Word) :
    exec (.tcFaultClear die core w) s = .next (s.sealed (effTcFaultClear die core w s)) := rfl

theorem exec_dynamicSlabAccess (agent : Agent) (addr len : Nat) (write : Bool) (data : List Byte) :
    exec (.dynamicSlabAccess agent addr len write data) s =
      .next (s.sealed (effDynamicSlabAccess agent addr len write data s)) := rfl

theorem exec_dynamicSlabServed : exec (.dynamicSlabServed die) s = .next (s.sealed (effDynamicSlabServed die s)) := rfl

end Commands

/-! ## The load of an image (R91) -/

section Load
variable (s : State) {die base : Nat}

/-- A running C-die takes a load in IDLE, READY and STOPPED (R93). -/
theorem effSeqLoad_atRest (hc : isC die = true) (hup : s.dieUp die = true)
    (hst : s.seqState die = seqIDLE ∨ s.seqState die = seqREADY ∨ s.seqState die = seqSTOPPED) :
    effSeqLoad die s = ((s.coresReady die).fset die SEQ_STATUS.STATE seqLOADING).updTd die (fun t => { t with loading := true }) :=
  if_pos (by simpa [hc, hup, or_assoc] using hst)

theorem effImageLoadDone_loading (hst : s.seqState die = seqLOADING) (hbase : base = s.fget die SEQ_IMAGE_BASE.BASE * 4096) :
    effImageLoadDone die s = s.loadFrom die base := by
  rw [effImageLoadDone, if_neg (not_not_intro hst), hbase]

/-- An image lies on the stack of the die that loads it. -/
theorem State.loadFrom_otherDie (hdie : base / 2 ^ 37 ≠ die) :
    s.loadFrom die base = s.endLoad die 1 ⟨base, 0, 0, 0, false, 0⟩ [] := by
  rw [State.loadFrom, if_pos hdie]

/-- What a load does with the 256 bytes of a header once their vaults are free. -/
theorem State.loadFrom_header {hd : List Byte} {bad : Bool} {u v : State} {code : Nat} {im : Image} (hdie : base / 2 ^ 37 = die)
    (hfree : s.vaultsFree die (base % 2 ^ 37) 256 = true)
    (hread : s.stackRead die (base % 2 ^ 37) 256 srcRefill = (hd, bad, u))
    (hv : v = u.fset die SEQ_LOAD_RESULT.REQ_LEVEL (hd.getD 6 0).toNat) (hcheck : v.checkHeader die base hd = (code, im)) :
    s.loadFrom die base =
      if bad then u.endLoad die 6 ⟨base, 0, 0, 0, false, 0⟩ []
      else if code ≠ 0 then v.endLoad die code im []
      else s.loadBundles v die (base % 2 ^ 37 + 256) im hd := by
  subst hv
  rw [State.loadFrom, if_neg (not_not_intro hdie)]
  simp only [hfree, hread, hcheck, Bool.not_true, Bool.false_eq_true, if_false]

/-- What a load does with the bundles of an image once their vaults are free. -/
theorem State.loadBundles_free {t u : State} {o : Nat} {im : Image} {hd bs : List Byte} {bad : Bool}
    (hfree : s.vaultsFree die o (128 * im.length) = true)
    (hread : t.stackRead die o (128 * im.length) srcRefill = (bs, bad, u)) :
    s.loadBundles t die o im hd =
      if bad then u.endLoad die 6 im []
      else if crc32 (bs.map BitVec.toNat) ≠ leNat ((hd.drop 0x18).take 4) then u.endLoad die 5 im []
      else u.endLoad die 0 im bs := by
  simp only [State.loadBundles, hfree, hread, Bool.not_true, Bool.false_eq_true, if_false]

end Load

/-! ## The start of a work item (R32, R75, R94) -/

section Start
variable (s : State) {die : Nat} {im : Image}

/-- A start whose CORE_MAP is no longer admissible only reports code 4. -/
theorem effSeqStart_inadmissible (him : (s.td die).image = some im) (hup : s.dieUp die = true)
    (hst : s.seqState die = seqREADY ∨ s.seqState die = seqSTOPPED) (hadm : s.admissible die im.coreMap im.foldable = false) :
    effSeqStart die s = s.fset die SEQ_LOAD_RESULT.CODE 4 := by
  rcases hst with h | h <;> simp [effSeqStart, him, hup, h, hadm]

/-- A start runs the image from its ENTRY with registers, shadows and tokens 0. -/
theorem effSeqStart_admissible {u : State} (him : (s.td die).image = some im) (hup : s.dieUp die = true)
    (hst : s.seqState die = seqREADY ∨ s.seqState die = seqSTOPPED) (hadm : s.admissible die im.coreMap im.foldable = true)
    (hu : u = (List.range 4).foldl (fun (t : State) i => t.wr die 0 (0x050 + 8 * i) 0) (s.coresReady die)) :
    effSeqStart die s =
      ((u.fsets die [(SEQ_STATUS.STATE, seqRUNNING),
        (SEQ_STATUS.HALF_RATE, b2n (u.halfRate die im.coreMap))]).setCoreStates die 1).updTd die (fun t =>
          { t with regs := .zero, shadow := .zero, bufs := [], abortAt := 0, replayCores := [], stepCycles := 0,
                   dynWrites := [], pc := im.entry, fetched := none, loops := [], ckpt := none, replayable := false,
                   replays := 0, restoring := false, branch := none, ending := false, endCause := none, failCode := 0,
                   failHome := false, failed := false, issued := [], reports := [],
                   refill := if imageRing im then some 0 else none,
                   halves := if imageRing im then [] else t.halves, flights := [], busy := [], start := t.cycle,
                   itemCmd := t.nextCmd, passEnd := [], step2 := false, freezeRefresh := false, freezeFetch := false }) := by
  subst hu
  rcases hst with h | h <;> simp [effSeqStart, him, hup, h, hadm]

end Start

/-! ## The end by ABORT, and tokens -/

theorem effSeqAbort_running (s : State) {die : Nat} (hrun : s.running die = true) :
    effSeqAbort die s = (s.fset die SEQ_CTRL.ABORT 1).endItem die .aborted :=
  if_pos hrun

theorem effSeqTokenAdd_inRange (s : State) {die n inc : Nat} (hc : isC die = true) (hn : n < 16) (hinc : inc < 2 ^ 16) :
    effSeqTokenAdd die n inc s = s.tokenAdd die n inc := by
  rw [effSeqTokenAdd, if_pos hc, Nat.mod_eq_of_lt hn, Nat.mod_eq_of_lt hinc]

/-! ## The commands of a core -/

section Core
variable (s : State) {die core : Nat}

theorem effTcInjectSlabParity_core (hc : isC die = true) (hlt : core < 64) :
    effTcInjectSlabParity die core s = s.fset die (TC_INJECT.SLAB_PARITY.unit core) 1 :=
  if_pos (by simp [hc, hlt])

theorem effTcInjectResidue_core (hc : isC die = true) (hlt : core < 64) :
    effTcInjectResidue die core s = s.fset die (TC_INJECT.RESIDUE.unit core) 1 :=
  if_pos (by simp [hc, hlt])

theorem effTcFaultClear_core (hc : isC die = true) (hlt : core < 64) (w : Word) :
    effTcFaultClear die core w s =
      s.wr die (0x100 + core) 0x008 (clearFirst (setBits (s.rd die (0x100 + core) 0x008) 6 0
        (bits ((s.rd die (0x100 + core) 0x008) &&& ~~~w) 6 0)) 7) :=
  if_pos (by simp [hc, hlt])

/-- What an access that lies within one slab's window does when it arrives: a fenced core refuses it (R50). -/
theorem effDynamicSlabAccess_slab {addr len off : Nat} (hreg : regionOf addr = .slab die core off) (hlen : off + len ≤ 2 ^ 22)
    (agent : Agent) (write : Bool) (data : List Byte) :
    effDynamicSlabAccess agent addr len write data s =
      if s.isFenced die core then s.emit (.refused agent addr)
      else { s with slabWait := s.slabWait ++ [⟨agent, addr, write, len, data.take len⟩] } := by
  have hin : decide (2 ^ 22 < off + len) = false := decide_eq_false (Nat.not_lt.mpr hlen)
  simp only [effDynamicSlabAccess, hreg, hin, Bool.or_false]

theorem effDynamicSlabServed_first {r : DynReq} {rest : List DynReq}
    (htake : takeFirst (s.slabFree die) s.slabWait = some (r, rest)) :
    effDynamicSlabServed die s = ({ s with slabWait := rest } : State).slabServe r := by
  simp only [effDynamicSlabServed, htake]

end Core

/-- Settles O12: each command is the sealed effect, and a load ends by the first check of R91 that fails. -/
theorem sequencerControlCommands : Obligations.SequencerControlCommands := by
  intro s die
  refine ⟨?load, ?otherDie, ?header, ?start, ?abort, ?token⟩
  case load =>
    intro hc hup hst
    rw [exec_seqLoad, effSeqLoad_atRest s hc hup hst]
  case otherDie =>
    intro base hst hbase hdie
    rw [exec_imageLoadDone, effImageLoadDone_loading s hst hbase, s.loadFrom_otherDie hdie]
  case header =>
    intro base hd bad u v code im hst hbase hdie hfree hread hv hcheck
    rw [exec_imageLoadDone, effImageLoadDone_loading s hst hbase, s.loadFrom_header hdie hfree hread hv hcheck]
    refine ⟨fun hbad => ?_, fun hbad hcode => ?_, fun bs bad2 w hbad hcode hfree2 hread2 => ?_⟩
    · rw [if_pos hbad]
    · rw [if_neg (by simp [hbad]), if_pos hcode]
    · rw [if_neg (by simp [hbad]), if_neg (not_not_intro hcode), s.loadBundles_free hfree2 hread2]
  case start =>
    intro im him hup hst
    refine ⟨fun hadm => ?_, fun u hadm hu => ?_⟩
    · rw [exec_seqStart, effSeqStart_inadmissible s him hup hst hadm]
    · rw [exec_seqStart, effSeqStart_admissible s him hup hst hadm hu]
  case abort =>
    intro hrun
    rw [exec_seqAbort, effSeqAbort_running s hrun]
  case token =>
    intro n inc hc hn hinc
    rw [exec_seqTokenAdd, effSeqTokenAdd_inRange s hc hn hinc]

/-- Settles O13: each command is the sealed effect, and an access through the window takes the branch that the core's state names. -/
theorem coreFaultAndSlabWindow : Obligations.CoreFaultAndSlabWindow := by
  intro s die core
  refine ⟨fun hc hlt => ⟨?parity, ?residue, fun w => ?clear⟩, fun agent addr len off write data hreg hlen => ?arrives,
    fun r rest htake => ?served⟩
  case parity => rw [exec_tcInjectSlabParity, effTcInjectSlabParity_core s hc hlt]
  case residue => rw [exec_tcInjectResidue, effTcInjectResidue_core s hc hlt]
  case clear => rw [exec_tcFaultClear, effTcFaultClear_core s hc hlt]
  case arrives =>
    rw [exec_dynamicSlabAccess, effDynamicSlabAccess_slab s hreg hlen]
    exact ⟨fun hf => by rw [if_neg (by simp [hf])], fun hf => by rw [if_pos hf]⟩
  case served => rw [exec_dynamicSlabServed, effDynamicSlabServed_first s htake]

end Sys2Proof.Machine
end

section
/-!
The statements of 03_tideline_stream.md about the sequencer: fetch and issue (R63 to R65, R84), checkpoints and replay (R79, R81),
awaits, branches and loops (R69, R72, R73, R76), and the end of a work item (R72, R83, R94).
-/
namespace Sys2Proof.Machine

/-! ## The commands -/

section Commands
variable (s : State) (die : Nat)

theorem exec_bundleFetch (parity : Bool) :
    exec (.bundleFetch die parity) s = .next (s.sealed (effBundleFetch die parity s)) := rfl

theorem exec_refetchArrival : exec (.refetchArrival die) s = .next (s.sealed (effRefetchArrival die s)) := rfl

theorem exec_bundleIssue : exec (.bundleIssue die) s = .next (s.sealed (effBundleIssue die s)) := rfl

theorem exec_holdBundle : exec (.holdBundle die) s = .next (s.sealed (effHoldBundle die s)) := rfl

theorem exec_chunkRefillComplete :
    exec (.chunkRefillComplete die) s = .next (s.sealed (effChunkRefillComplete die s)) := rfl

theorem exec_checkpointFetch : exec (.checkpointFetch die) s = .next (s.sealed (effCheckpointFetch die s)) := rfl

theorem exec_checkpointIssue : exec (.checkpointIssue die) s = .next (s.sealed (effCheckpointIssue die s)) := rfl

theorem exec_arithmeticFaultReport (silicon : Option (Nat × Nat × Nat)) :
    exec (.arithmeticFaultReport die silicon) s = .next (s.sealed (effArithmeticFaultReport die silicon s)) := rfl

theorem exec_replayRestore : exec (.replayRestore die) s = .next (s.sealed (effReplayRestore die s)) := rfl

theorem exec_awaitFetch : exec (.awaitFetch die) s = .next (s.sealed (effAwaitFetch die s)) := rfl

theorem exec_awaitRelease (wait : Nat) :
    exec (.awaitRelease die wait) s = .next (s.sealed (effAwaitRelease die wait s)) := rfl

theorem exec_awaitTimeout : exec (.awaitTimeout die) s = .next (s.sealed (effAwaitTimeout die s)) := rfl

theorem exec_branchIssue : exec (.branchIssue die) s = .next (s.sealed (effBranchIssue die s)) := rfl

theorem exec_branchResolve : exec (.branchResolve die) s = .next (s.sealed (effBranchResolve die s)) := rfl

theorem exec_loopIssue : exec (.loopIssue die) s = .next (s.sealed (effLoopIssue die s)) := rfl

theorem exec_loopIterationEnd : exec (.loopIterationEnd die) s = .next (s.sealed (effLoopIterationEnd die s)) := rfl

theorem exec_endFetch : exec (.endFetch die) s = .next (s.sealed (effEndFetch die s)) := rfl

theorem exec_workItemComplete : exec (.workItemComplete die) s = .next (s.sealed (effWorkItemComplete die s)) := rfl

theorem exec_drainComplete : exec (.drainComplete die) s = .next (s.sealed (effDrainComplete die s)) := rfl

theorem exec_freezeBegin : exec (.freezeBegin die) s = .next (s.sealed (effFreezeBegin die s)) := rfl

theorem exec_freezeEnd : exec (.freezeEnd die) s = .next (s.sealed (effFreezeEnd die s)) := rfl

end Commands

/-! ## Fetch and issue -/

section Fetch
variable (s : State) {die : Nat} {im : Image} {ws : List Word}

/-- Within an image that the stream buffer holds whole, a fetch takes the bundle, or freezes on a parity error (R65, R84). -/
theorem effBundleFetch_within (him : (s.td die).image = some im) (hcan : s.canFetch die = true) (hlt : (s.td die).pc < im.length)
    (hring : imageRing im = false) (parity : Bool) :
    effBundleFetch die parity s = if parity then s.updTd die (fun t => { t with freezeFetch := true }) else s.takeBundle die im := by
  simp [effBundleFetch, him, hcan, hring, Nat.not_le.mpr hlt]

/-- A fetch past the last bundle ends the item (R84). -/
theorem effBundleFetch_pastEnd (him : (s.td die).image = some im) (hcan : s.canFetch die = true) (hle : im.length ≤ (s.td die).pc)
    (parity : Bool) : effBundleFetch die parity s = s.endItem die .fetch := by
  simp [effBundleFetch, him, hcan, hle]

/-- A refetch reads the bundle at the fetch point from the stack, and the fetch freeze ends (R84, R161). -/
theorem effRefetchArrival_frozen {bs : List Byte} {bad : Bool} {u : State} (him : (s.td die).image = some im)
    (hfreeze : (s.td die).freezeFetch = true) (hlt : (s.td die).pc < im.length) (hrefill : (s.td die).refill = none)
    (hfree : s.vaultsFree die (im.base % 2 ^ 37 + 256 + 128 * (s.td die).pc) 128 = true)
    (hread : s.refillRead die (im.base % 2 ^ 37 + 256 + 128 * (s.td die).pc) 128 = (bs, bad, u)) :
    effRefetchArrival die s =
      ({ u with sbuf := memWriteN u.sbuf (sbufKey die (s.td die).pc) bs } : State).endFetchFreeze die := by
  simp [-Nat.reducePow, effRefetchArrival, him, hfreeze, Nat.not_le.mpr hlt, hrefill, hfree, hread]

theorem effBundleIssue_ready (hready : s.ready die kNORMAL = some ws) :
    effBundleIssue die s = s.issueBundle die ws (bHold ws) := by
  simp only [effBundleIssue, hready]

theorem effHoldBundle_ready (hready : s.ready die kHOLD = some ws) :
    effHoldBundle die s = s.issueBundle die [ws.headD 0] (bits (bSlot ws 15) 27 0 * 4096 + bHold ws) := by
  simp only [effHoldBundle, hready]

/-- A refilled chunk that no fetch waits for only stands in its half (R84, R94). -/
theorem effChunkRefillComplete_unawaited {j : Nat} (him : (s.td die).image = some im) (hrefill : (s.td die).refill = some j)
    (hfreeze : (s.td die).freezeFetch = false) (hfree : s.vaultsFree die (chunkRange im j).1 (chunkRange im j).2 = true) :
    effChunkRefillComplete die s =
      (s.fillChunk die im j).updTd die (fun t => { t with refill := if j = 0 then some 1 else none }) := by
  simp [effChunkRefillComplete, him, hrefill, hfreeze, hfree]

end Fetch

/-- Settles O2: each command is the sealed effect, and a fetch, a refetch or a refill meets none of the conditions that hold it up. -/
theorem sequencerFetchAndIssue : Obligations.SequencerFetchAndIssue := by
  intro s die im ws
  refine ⟨?fetch, ?pastEnd, ?refetch, ?issue, ?hold, ?refill⟩
  case fetch =>
    intro him hcan hlt hring
    simp only [exec_bundleFetch, effBundleFetch_within s him hcan hlt hring]
    exact ⟨rfl, rfl⟩
  case pastEnd =>
    intro him hcan hle
    rw [exec_bundleFetch, effBundleFetch_pastEnd s him hcan hle]
  case refetch =>
    intro him hfreeze hlt hrefill hfree bs bad u hread
    rw [exec_refetchArrival, effRefetchArrival_frozen s him hfreeze hlt hrefill hfree hread]
  case issue =>
    intro hready
    rw [exec_bundleIssue, effBundleIssue_ready s hready]
  case hold =>
    intro hready
    rw [exec_holdBundle, effHoldBundle_ready s hready]
  case refill =>
    intro j him hrefill hfreeze hfree
    rw [exec_chunkRefillComplete, effChunkRefillComplete_unawaited s him hrefill hfreeze hfree]

/-! ## Checkpoints and replay -/

section Checkpoint
variable (s : State) {die : Nat} {im : Image} {ws : List Word}

theorem effCheckpointFetch_ready (hready : s.ready die kCKPT = some ws) :
    effCheckpointFetch die s = (s.drainAs die 0x109).closeStep die := by
  simp only [effCheckpointFetch, hready]

/-- A checkpoint of a first run issues once nothing is in flight and no command of the closed step is unsent: it saves the registers
and the loop state, and the count of replays begins anew (R79, R81, R132). -/
theorem effCheckpointIssue_drained (hready : s.ready die kCKPT = some ws) (him : (s.td die).image = some im)
    (hflights : (s.td die).flights = []) (hhorizon : horizon (s.td die) ≤ (s.td die).cycle)
    (hsent : (s.td die).stepUnsent = false) (hst : s.seqState die ≠ seqREPLAYING) :
    effCheckpointIssue die s =
      (((((s.closeSlots die 0x102).updTd die (fun t => { releaseHeld t with
        shadow := t.regs, ckpt := some ⟨t.pc, t.loops, t.issued, t.nextCmd⟩, replayable := bReplayable ws,
        replays := 0 })).fset die SEQ_STATUS.STEP (bStep ws)).fset die SEQ_STATUS.STATE seqRUNNING).startRefill die
        im).issueBundle die ws (bHold ws) := by
  simp [effCheckpointIssue, hready, him, hflights, Nat.not_lt.mpr hhorizon, hsent, hst]

/-- A report command with no report waiting, and no mismatch of the silicon, does nothing. -/
theorem effArithmeticFaultReport_noReport (hreports : (s.td die).reports = []) :
    effArithmeticFaultReport die none s = s := by
  simp [effArithmeticFaultReport, hreports]

/-- The report of a fault in a REPLAYABLE step begins a replay while SEQ_REPLAY.LIMIT is not reached (R81). -/
theorem effArithmeticFaultReport_replays {u : State} {t : TideDie} (hc : isC die = true) (hrun : s.running die = true)
    (hreports : (s.td die).reports ≠ []) (hu : s.scoreReports die = u) (ht : u.td die = t) (hend : t.endCause = none)
    (hrestoring : t.restoring = false) (hreplayable : t.replayable = true) (hlimit : t.replays < u.fget die SEQ_REPLAY.LIMIT) :
    effArithmeticFaultReport die none s =
      (((u.fset die SEQ_STATUS.STATE seqREPLAYING).finc die SEQ_REPLAY.REPLAY_CNT).updTd die (fun t =>
        { t with restoring := true, replays := t.replays + 1, fetched := none, replayCores := [] })).countReplays die
        (s.td die).reports := by
  subst hu ht
  simp [effArithmeticFaultReport, hc, hrun, hreports, hend, hrestoring, hreplayable, Nat.not_le.mpr hlimit]

/-- A replay restores what its checkpoint saved and discards the held commands (R81, R132). -/
theorem effReplayRestore_checkpoint {u v : State} {k : Ckpt} (hrestoring : (s.td die).restoring = true)
    (hend : (s.td die).endCause = none) (hunfrozen : (s.td die).unfrozen = true)
    (hv : v = (s.drainAs die 0x104).closeSlots die 0x104)
    (hu : u = (v.countReplays die (v.td die).reports).scoreReports die) (hckpt : (u.td die).ckpt = some k)
    (huend : (u.td die).endCause = none) :
    effReplayRestore die s =
      u.updTd die (fun t =>
        { t with regs := t.shadow, loops := k.loops, issued := k.issued, branch := none, pc := k.pc, fetched := none,
                 restoring := false, cmdq := t.cmdq.filter (fun c => !c.held) }) := by
  subst hv hu
  simp [effReplayRestore, hrestoring, hend, hunfrozen, hckpt, huend]

end Checkpoint

/-- Settles O3: each command is the sealed effect, and the state meets what the effect waits for. -/
theorem checkpointAndReplay : Obligations.CheckpointAndReplay := by
  intro s die im ws
  refine ⟨?fetch, ?issue, ?noReport, ?replay, ?restore⟩
  case fetch =>
    intro hready
    rw [exec_checkpointFetch, effCheckpointFetch_ready s hready]
  case issue =>
    intro hready him hflights hhorizon hsent hst
    rw [exec_checkpointIssue, effCheckpointIssue_drained s hready him hflights hhorizon hsent hst]
  case noReport =>
    intro _ _ hreports
    rw [exec_arithmeticFaultReport, effArithmeticFaultReport_noReport s hreports]
  case replay =>
    intro u t hc hrun hreports hu ht hend hrestoring hreplayable hlimit
    rw [exec_arithmeticFaultReport,
      effArithmeticFaultReport_replays s hc hrun hreports hu ht hend hrestoring hreplayable hlimit]
  case restore =>
    intro u v k hrestoring hend hunfrozen hv hu hckpt huend
    rw [exec_replayRestore, effReplayRestore_checkpoint s hrestoring hend hunfrozen hv hu hckpt huend]

/-! ## Awaits -/

section Await
variable (s : State) {die : Nat} {ws : List Word}

theorem effAwaitFetch_ready (hready : s.ready die kAWAIT = some ws) :
    effAwaitFetch die s =
      (((s.updTd die (fun t => { t with
        ballastTop := (t.passEnd.filter (fun p => t.cycle < p.2 + 1024)).length, ballastUp := false,
        step2 := false })).fset die SEQ_STATUS.STATE seqAWAITING).drainAs die 0x107).enterStep2 die := by
  simp only [effAwaitFetch, hready]
  rfl

/-- An await on a token counter whose condition holds is released: the counter falls by the count and the bundle issues (R73, R77). -/
theorem effAwaitRelease_token {u : State} {wait : Nat}
    (hu : u = s.slotCycles die wait (if s.fget die SEQ_BALLAST.LEVEL = 0 then 0x107 else 0x103))
    (hfetched : (s.td die).fetched = some ws) (hst : s.seqState die = seqAWAITING) (hstep2 : (s.td die).step2 = true)
    (hend : (s.td die).endCause = none) (hreports : (s.td die).reports = []) (hunfrozen : (s.td die).unfrozen = true)
    (hmet : s.awaitMet die (bSlot ws 15) = true) (htoken : bits (bSlot ws 15) 63 62 = 0) :
    effAwaitRelease die wait s =
      (((u.tokenSub die (bits (bSlot ws 15) 51 48) (bits (bSlot ws 15) 15 0)).fsets die
        [(SEQ_STATUS.STATE, seqRUNNING), (SEQ_BALLAST.LEVEL, 0)]).updTd die (fun t =>
          { t with cycle := t.cycle + wait, issued := [], step2 := false })).issueBundle die ws (bHold ws) := by
  subst hu
  simp [effAwaitRelease, hfetched, hst, hstep2, hend, hreports, hunfrozen, hmet, htoken]

theorem effAwaitTimeout_enabled (hst : s.seqState die = seqAWAITING) (hstep2 : (s.td die).step2 = true)
    (hfault : (s.td die).takesFault = true) (hlimit : s.fget die SEQ_AWAIT_TIMEOUT.TIMEOUT_US ≠ 0) :
    effAwaitTimeout die s = s.endItem die .awaitTimeout :=
  if_pos (by simp [hst, hstep2, hfault, hlimit])

end Await

/-! ## Branches and loops -/

section Jump
variable (s : State) {die : Nat} {im : Image} {ws : List Word}

/-- A branch within its innermost loop body issues, with its condition read in its issue cycle (R71, R72). -/
theorem effBranchIssue_sameBody (hready : s.ready die kBRANCH = some ws) (him : (s.td die).image = some im)
    (hbody : innermost (s.bodies die im (s.td die).pc) (s.td die).pc =
      innermost (s.bodies die im (s.td die).pc) (bits (bSlot ws 15) 23 0)) :
    effBranchIssue die s =
      (s.updTd die (fun t => { t with branch := some ⟨(s.td die).cycle + 24, (s.td die).pc, bits (bSlot ws 15) 23 0,
        branchCond (bits (bSlot ws 15) 43 42)
          ((s.td die).sreg (s.placeOf die (bits (bSlot ws 15) 53 48)).2 (bits (bSlot ws 15) 47 44))⟩ })).issueBundle die ws
        (bHold ws) := by
  simp only [effBranchIssue, hready, him]
  rw [if_neg (not_not_intro hbody)]
  rfl

/-- What a branch does in its cycle t + 24: the fetch point moves only where it is taken (R72). -/
theorem effBranchResolve_due {src target : Nat} {taken : Bool}
    (hbranch : (s.td die).branch = some ⟨(s.td die).cycle, src, target, taken⟩) (him : (s.td die).image = some im)
    (hcan : s.canIssue die = true) :
    effBranchResolve die s =
      if !taken then s.updTd die (fun t => { t with branch := none })
      else if !jumpOk im src target then s.endItem die .fetch
      else s.updTd die (fun t => { t with branch := none, pc := target }) := by
  simp [effBranchResolve, hbranch, him, hcan]

/-- A first loop whose last bundle lies ahead, with a count of its own that is not 0, becomes the active loop (R69, R70). -/
theorem effLoopIssue_outermost (hready : s.ready die kLOOP = some ws) (hloops : (s.td die).loops = [])
    (hlast : (s.td die).pc < bits (bSlot ws 15) 23 0) (hown : bitAt (bSlot ws 15) 47 = false)
    (hcount : bits (bSlot ws 15) 43 24 ≠ 0) :
    effLoopIssue die s =
      (s.issueBundle die ws (bHold ws)).updTd die (fun t => { t with
        loops := ⟨bits (bSlot ws 15) 49 48, t.pc, bits (bSlot ws 15) 23 0, bits (bSlot ws 15) 43 24⟩ :: t.loops }) := by
  simp [effLoopIssue, hready, hloops, Nat.not_le.mpr hlast, hown, hcount]

/-- What the last bundle of a body does once no branch is due: the last iteration leaves the loop, another returns to its first
bundle (R69). -/
theorem effLoopIterationEnd_due {l : Loop} (hl : (s.td die).iterEnd = some l) (him : (s.td die).image = some im)
    (hcan : s.canIssue die = true) (hbranch : (s.td die).branchDue = false) :
    effLoopIterationEnd die s =
      if l.left ≤ 1 then s.updTd die (fun t => { t with loops := t.loops.drop 1 })
      else if !jumpOk im ((s.td die).pc - 1) l.first then s.endItem die .fetch
      else s.updTd die (fun t => { t with pc := l.first, loops := { l with left := l.left - 1 } :: t.loops.drop 1 }) := by
  simp [effLoopIterationEnd, hl, him, hcan, hbranch]

end Jump

/-- Settles O4: each command is the sealed effect, and the effect takes the branch that the control word and the loop state name. -/
theorem sequencerControlFlow : Obligations.SequencerControlFlow := by
  intro s die im ws
  refine ⟨?await, ?release, ?timeout, ?branch, ?taken, ?notTaken, ?loop, ?iteration⟩
  case await =>
    intro hready
    rw [exec_awaitFetch, effAwaitFetch_ready s hready]
  case release =>
    intro wait u hu hfetched hst hstep2 hend hreports hunfrozen hmet htoken
    rw [exec_awaitRelease, effAwaitRelease_token s hu hfetched hst hstep2 hend hreports hunfrozen hmet htoken]
  case timeout =>
    intro hst hstep2 hfault hlimit
    rw [exec_awaitTimeout, effAwaitTimeout_enabled s hst hstep2 hfault hlimit]
  case branch =>
    intro hready him hbody
    rw [exec_branchIssue, effBranchIssue_sameBody s hready him hbody]
  case taken =>
    intro src target hbranch him hcan hjump
    rw [exec_branchResolve, effBranchResolve_due s hbranch him hcan, hjump]
    rfl
  case notTaken =>
    intro src target hbranch him hcan
    rw [exec_branchResolve, effBranchResolve_due s hbranch him hcan]
    rfl
  case loop =>
    intro hready hloops hlast hown hcount
    rw [exec_loopIssue, effLoopIssue_outermost s hready hloops hlast hown hcount]
  case iteration =>
    intro l hl him hcan hbranch
    rw [exec_loopIterationEnd, effLoopIterationEnd_due s hl him hcan hbranch]
    refine ⟨fun hle => ?_, fun hlt hjump => ?_⟩
    · rw [if_pos hle]
    · rw [if_neg (Nat.not_le.mpr hlt), hjump]
      rfl

/-! ## The end of a work item, and freezes -/

section End
variable (s : State) {die : Nat} {ws : List Word}

/-- An end bundle whose drain brings no fault lets the held commands go, and the item is ending (R72). -/
theorem effEndFetch_clean (hready : s.ready die kEND = some ws) (hreports : ((s.drainAs die 0x109).td die).reports = [])
    (hend : ((s.drainAs die 0x109).td die).endCause = none) :
    effEndFetch die s = (s.drainAs die 0x109).updTd die (fun t => { releaseHeld t with ending := true }) := by
  simp [effEndFetch, hready, hreports, hend]

/-- An ending item with no command outstanding completes, with ABORTED where one of its commands failed (R72, R132). -/
theorem effWorkItemComplete_settled (hrun : s.running die = true) (hending : (s.td die).ending = true) (hinv : s.vwrInv = [])
    (hout : (s.td die).outstanding = false) (hend : (s.td die).endCause = none) :
    effWorkItemComplete die s =
      if (s.td die).failed then (s.foldAll die).finishItem die seqSTOPPED 2 (some .aborted)
      else s.finishItem die seqREADY 0 none := by
  simp [effWorkItemComplete, hrun, hending, hinv, hout, hend]

/-- An aborted item stops once the die has drained, with no record of an error (R93, R94). -/
theorem effDrainComplete_aborted (hend : (s.td die).endCause = some .aborted) (hrun : s.running die = true)
    (hunfrozen : (s.td die).unfrozen = true) (hout : (s.td die).ending = false ∨ (s.td die).outstanding = false) :
    effDrainComplete die s =
      (((s.drainAs die 0x109).scoreReports die).foldAll die).finishItem die seqSTOPPED 2 (some .aborted) := by
  have hwait : ((s.td die).ending && (s.td die).outstanding) = false := by
    rcases hout with h | h <;> simp [h]
  simp [effDrainComplete, hend, hrun, hunfrozen, hwait]

theorem effFreezeBegin_frozen (hfrozen : (s.td die).unfrozen = false) (hrun : s.running die = true) :
    effFreezeBegin die s = s.fset die SEQ_STATUS.FROZEN 1 :=
  if_neg (by simp [hfrozen, hrun])

/-- The end of an inserted refresh counts its 192 cycles; FROZEN falls where a fetch freeze does not go on (R83, R85). -/
theorem effFreezeEnd_refresh {u : State} (hrefresh : (s.td die).freezeRefresh = true)
    (hu : u = (s.freezeCycles die 192 0x108).updTd die (fun t => { t with freezeRefresh := false })) :
    effFreezeEnd die s = if (u.td die).unfrozen then u.fset die SEQ_STATUS.FROZEN 0 else u := by
  subst hu
  simp only [effFreezeEnd, hrefresh, if_true]

end End

/-- Settles O5: each command is the sealed effect, and the effect takes the branch that the item's end or the freeze names. -/
theorem workItemEnds : Obligations.WorkItemEnds := by
  intro s die ws
  refine ⟨?endFetch, ?complete, ?drain, ?freeze, ?unfreeze⟩
  case endFetch =>
    intro hready hreports hend
    rw [exec_endFetch, effEndFetch_clean s hready hreports hend]
  case complete =>
    intro hrun hending hinv hout hend
    rw [exec_workItemComplete, effWorkItemComplete_settled s hrun hending hinv hout hend]
    exact ⟨fun hok => by rw [if_neg (by simp [hok])], fun hfailed => by rw [if_pos hfailed]⟩
  case drain =>
    intro hend hrun hunfrozen hout
    rw [exec_drainComplete, effDrainComplete_aborted s hend hrun hunfrozen hout]
  case freeze =>
    intro hfrozen hrun
    rw [exec_freezeBegin, effFreezeBegin_frozen s hfrozen hrun]
  case unfreeze =>
    intro u hrefresh hu
    rw [exec_freezeEnd, effFreezeEnd_refresh s hrefresh hu]
    exact ⟨fun hun => by rw [if_pos hun], fun hfrozen => by rw [if_neg (by simp [hfrozen])]⟩

end Sys2Proof.Machine
end

section
/-!
The matrix and stack slots of 03_tideline_stream.md (R112 to R116, R127 to R129). A slot that issues on one core is one operation of
that core, after which its cycle passes and the die drains (log entry 7): `State.runSlot_issuesOn` says this once for every slot.
-/
namespace Sys2Proof.Machine

/-! ## The commands -/

section Commands
variable (s : State) (die : Nat) (w : Word)

theorem exec_tload (d : Nat × Nat × Nat) : exec (.tload die w d) s = .next (s.sealed (effTload die w d s)) := rfl

theorem exec_mpass : exec (.mpass die w) s = .next (s.sealed (effMpass die w s)) := rfl

theorem exec_vrd (d : Nat × Nat × Nat) : exec (.vrd die w d) s = .next (s.sealed (effVrd die w d s)) := rfl

theorem exec_vwr : exec (.vwr die w) s = .next (s.sealed (effVwr die w s)) := rfl

theorem exec_refresh : exec (.refresh die w) s = .next (s.sealed (effRefresh die w s)) := rfl

end Commands

/-! ## A slot that issues on one core -/

/-- The die, the logical core and the word of a slot are those that it was made from. -/
theorem Slot.parts_of_slotOn {s : State} {x : Slot} {die c : Nat} {w : Word} {d : Nat × Nat × Nat} (hx : x = s.slotOn die c w d) :
    x.die = die ∧ x.logical = c ∧ x.w = w := by
  subst hx
  exact ⟨rfl, rfl, rfl⟩

section OneCore
variable (s : State) {die code c : Nat} {w : Word}

/-- What a slot that issues on one core has met (R50, R54, R65, R66). -/
theorem State.checks_of_issuesOn (h : s.issuesOn die code w c = true) :
    s.canIssue die = true ∧ slotCode w = code ∧ slotOk (s.coreMap die) (s.td die).replayable w = true ∧
      mappedCores ((s.pmuEvent die 0x10A 1).coreMap die) w = [c] ∧
      (s.pmuEvent die 0x10A 1).fget die (TC_STATUS.STATE.unit ((s.pmuEvent die 0x10A 1).placeOf die c).1) ≠ 3 := by
  simpa only [State.issuesOn, Bool.and_eq_true, decide_eq_true_eq, and_assoc] using h

theorem State.slotCode_of_issuesOn (h : s.issuesOn die code w c = true) : slotCode w = code := by
  obtain ⟨-, hcode, -⟩ := s.checks_of_issuesOn h
  exact hcode

/-- A slot mapped to the one core `c`, which is not fenced, issues there alone (R50, R66). -/
theorem State.issueSlot_single (hcores : mappedCores (s.coreMap die) w = [c])
    (hfence : s.fget die (TC_STATUS.STATE.unit (s.placeOf die c).1) ≠ 3) (d : Nat × Nat × Nat) :
    s.issueSlot die w d = s.issueOn (s.slotOn die c w d) := by
  simp only [State.issueSlot, hcores, List.foldl]
  exact if_neg hfence

/-- What a slot command does where its slot issues on one core. -/
theorem State.runSlot_issuesOn (h : s.issuesOn die code w c = true) (d : Nat × Nat × Nat) :
    s.runSlot die code w d =
      ((s.pmuEvent die 0x10A 1).issueOn ((s.pmuEvent die 0x10A 1).slotOn die c w d)).afterSlot die := by
  obtain ⟨hcan, hcode, hok, hcores, hfence⟩ := s.checks_of_issuesOn h
  simp [State.runSlot, hcan, hcode, hok, State.issueSlot_single _ hcores hfence, State.afterSlot]

end OneCore

/-! ### The operation that a slot code names (R66) -/

section Operation
variable (s : State) {x : Slot}

theorem State.issueOn_tload (h : slotCode x.w = 0x00) : s.issueOn x = s.issueTload x := by simp only [State.issueOn, h]

theorem State.issueOn_mpass (h : slotCode x.w = 0x01) : s.issueOn x = s.issueMpass x := by simp only [State.issueOn, h]

theorem State.issueOn_vrd (h : slotCode x.w = 0x18) : s.issueOn x = s.issueVrd x := by simp only [State.issueOn, h]

theorem State.issueOn_vwr (h : slotCode x.w = 0x19) : s.issueOn x = s.issueVwr x := by simp only [State.issueOn, h]

theorem State.issueOn_refresh (h : slotCode x.w = 0x1A) : s.issueOn x = s.issueRefresh x := by simp only [State.issueOn, h]

end Operation

/-! ## What the operations do -/

@[simp] theorem isNear_near (k : Nat) : isNear (.near k) = true := rfl

/-- A near access crosses no link, so no flit of it can be damaged (R240). -/
@[simp] theorem loadDamage_near (x : Slot) (k v0 t t0 n : Nat) : loadDamage x (.near k) v0 t t0 n = [] := by
  simp [loadDamage]

section Near
variable (s : State) {x : Slot} {u u2 : State} {t o a k len : Nat} {bs : List Busy} {links : List (Nat × Nat)} {img : List Byte}
  {unc poi : Bool}

/-- A load of a tile from the near vault into a buffer half that holds none takes 64 cycles (R112, R113). -/
theorem State.issueTload_near (ht : t = (s.td x.die).cycle)
    (hstack : s.stackOperand x.die x.logical ((s.td x.die).areg x.ctx (bits x.w 44 41)) (tileBytes (bits x.w 47 45)) 512 permR =
      some (o, .near k))
    (hempty : mapFind (s.td x.die).bufs (x.ctx * 2 + bits x.w 48 48) = none)
    (hunits : stackHold x (.near k) t 64 136 136 = (bs, links))
    (hhold : s.hold x.die (⟨uBuf x.ctx (bits x.w 48 48), t, t + 64⟩ :: bs) links = some u)
    (hload : u.streamLoad x (.near k) o ((tileBytes (bits x.w 47 45) + 127) / 128 * 128) = (img, unc, poi, u2)) :
    s.issueTload x = (reportFlights x (t + 64 - 1) unc poi).foldl (fun (y : State) f => y.launch x.die f)
      ((u2.updTd x.die (fun q => { q with
        bufs := mapSet q.bufs (x.ctx * 2 + bits x.w 48 48)
          ⟨t + 64, bits x.w 47 45, img.take (tileBytes (bits x.w 47 45)), 0⟩ })).coreEvent x.die x.core 0x004 1) := by
  subst ht
  simp only [State.issueTload, hstack, hempty, Bool.false_eq_true, if_false, isNear_near, if_true, hunits, hhold, hload,
    loadDamage_near, List.append_nil]

/-- A scaled pass that does not accumulate, through a buffer half whose tile has arrived and is of its format class, takes a cycle a
row (R114 to R116). -/
theorem State.issueMpass_scaled {q : TileBuf} {sc : Nat} (ht : t = (s.td x.die).cycle)
    (hbuf : mapFind (s.td x.die).bufs (x.ctx * 2 + bits x.w 48 48) = some q) (hready : q.ready ≤ t)
    (hclass : fmtClass q.fmt = fmtClass (bits x.w 47 45)) (hscaled : (passShape q.fmt).scaled = true)
    (hacc : bitAt x.w 24 = false) (hlen : len = bits x.w 44 33 + 1)
    (hact : s.slabOperand x.die x.ctx ((s.td x.die).areg x.ctx (bits x.w 32 29)) ((passShape q.fmt).actBytes * len)
      (passShape q.fmt).actBytes permR false = some a)
    (hscale : s.slabOperand x.die x.ctx ((s.td x.die).areg x.ctx (bits x.w 28 25)) (4 * len) 4 permR false = some sc)
    (hout : s.slabOperand x.die x.ctx ((s.td x.die).areg x.ctx (bits x.w 19 16)) ((passShape q.fmt).outBytes * len) 256 permW
      false = some o)
    (hhold : s.hold x.die [⟨uPass x.ctx, t, t + len⟩] [] = some u) :
    s.issueMpass x = ((u.updTd x.die (fun y => { y with
      bufs := mapSet y.bufs (x.ctx * 2 + bits x.w 48 48) { q with useEnd := t + len },
      passEnd := mapSet y.passEnd x.core (t + 140 + len) })).coreCycles x.die x.core
        (if bits x.w 47 45 = 0 then 0x002 else 0x003) 1 len).launch x.die { x.flight .mpass t with
          src := a, dst := o, len := len, bytes := q.image, arg := [q.fmt, bits x.w 47 45, sc, 0, 0] } := by
  subst ht hlen
  simp [State.issueMpass, hbuf, Nat.not_lt.mpr hready, hclass, hscaled, hacc, hact, hscale, hout, hhold, b2n]

/-- A read of the near vault delivers a block a cycle, from 96 cycles after its issue on (R127). -/
theorem State.issueVrd_near (ht : t = (s.td x.die).cycle) (hlen : len = bits x.w 40 29 + 1)
    (hstack : s.stackOperand x.die x.logical ((s.td x.die).areg x.ctx (bits x.w 48 45)) (128 * len) 128 permR =
      some (o, .near k))
    (hslab : s.slabOperand x.die x.ctx ((s.td x.die).areg x.ctx (bits x.w 44 41)) (128 * len) 128 permW false = some a)
    (hunits : stackHold x (.near k) t len (2 * len) (2 * len) = (bs, links))
    (hhold : s.hold x.die (⟨uVcls x.ctx, t, t + len⟩ :: bs) links = some u)
    (hload : u.streamLoad x (.near k) o (128 * len) = (img, unc, poi, u2)) :
    s.issueVrd x = ({ x.flight .vrd t with dst := a, lat := 96, len := len, arg := [128], bytes := img } ::
      reportFlights x (t + 96 + len - 1) unc poi).foldl (fun (y : State) g => y.launch x.die g)
        (u2.coreCycles x.die x.core 0x00A 1 len) := by
  subst ht hlen
  simp only [State.issueVrd, hstack, hslab, isNear_near, if_true, hunits, hhold, hload,
    loadDamage_near, List.append_nil]

/-- A write to the near vault holds the vault for a cycle a block (R128). -/
theorem State.issueVwr_near (ht : t = (s.td x.die).cycle) (hlen : len = bits x.w 40 29 + 1)
    (hstack : s.stackOperand x.die x.logical ((s.td x.die).areg x.ctx (bits x.w 48 45)) (128 * len) 128 permW =
      some (o, .near k))
    (hslab : s.slabOperand x.die x.ctx ((s.td x.die).areg x.ctx (bits x.w 44 41)) (128 * len) 128 permR false = some a)
    (hhold : s.hold x.die [⟨uVcls x.ctx, t, t + len⟩, ⟨uVport x.ctx, t, t + len⟩, ⟨uVault k, t, t + len⟩] [] = some u) :
    s.issueVwr x = (u.coreCycles x.die x.core 0x00B 1 len).launch x.die
      { x.flight .vwr t with src := a, dst := o, len := len } := by
  subst ht hlen
  simp only [State.issueVwr, hstack, hslab, hhold]

/-- A refresh slot that no Glaze command to its vault meets holds the vault for 192 cycles and starts a round (R85, R129). -/
theorem State.issueRefresh_free (ht : t = (s.td x.die).cycle)
    (hglz : busyIn (s.td x.die).busy ⟨uGlzAt x.logical, t, t + 192⟩ = false)
    (hhold : s.hold x.die [⟨uVcls x.ctx, t, t + 192⟩, ⟨uVault x.logical, t, t + 192⟩, ⟨uRefresh x.logical, t, t + 192⟩] [] =
      some u) :
    s.issueRefresh x = u.startRound x.die x.logical := by
  subst ht
  simp only [State.issueRefresh, hglz, hhold, Bool.false_eq_true, if_false]

end Near

/-- Settles O9: each slot issues on its one core, and its operation finds its operands in range and its units free. -/
theorem matrixAndStackSlots : Obligations.MatrixAndStackSlots := by
  rintro s u _ die c t o a w x rfl hx ht
  obtain ⟨rfl, rfl, rfl⟩ := Slot.parts_of_slotOn hx
  refine ⟨?tload, ?mpass, ?vrd, ?vwr, ?refresh⟩
  case tload =>
    intro k bs links img unc poi u2 hissue hstack hempty hunits hhold hload
    rw [exec_tload, effTload, s.runSlot_issuesOn hissue, ← hx, State.issueOn_tload _ (s.slotCode_of_issuesOn hissue),
      State.issueTload_near _ ht hstack hempty hunits hhold hload, List.append_nil]
  case mpass =>
    intro q sc hissue hbuf hready hclass hscaled hacc hact hscale hout hhold
    rw [exec_mpass, effMpass, s.runSlot_issuesOn hissue, ← hx, State.issueOn_mpass _ (s.slotCode_of_issuesOn hissue),
      State.issueMpass_scaled _ ht hbuf hready hclass hscaled hacc rfl hact hscale hout hhold]
  case vrd =>
    intro k bs links dat unc poi u2 hissue hstack hslab hunits hhold hload
    rw [exec_vrd, effVrd, s.runSlot_issuesOn hissue, ← hx, State.issueOn_vrd _ (s.slotCode_of_issuesOn hissue),
      State.issueVrd_near _ ht rfl hstack hslab hunits hhold hload, List.append_nil]
  case vwr =>
    intro k hissue hstack hslab hhold
    rw [exec_vwr, effVwr, s.runSlot_issuesOn hissue, ← hx, State.issueOn_vwr _ (s.slotCode_of_issuesOn hissue),
      State.issueVwr_near _ ht rfl hstack hslab hhold]
  case refresh =>
    intro hissue hglz hhold
    rw [exec_refresh, effRefresh, s.runSlot_issuesOn hissue, ← hx, State.issueOn_refresh _ (s.slotCode_of_issuesOn hissue),
      State.issueRefresh_free _ ht hglz hhold]

end Sys2Proof.Machine
end

section
/-!
The refresh of the vaults (03_tideline_stream.md R85; 06_millefeuille_stack.md R171, R173).
-/
namespace Sys2Proof.Machine

section Commands
variable (s : State) (die v : Nat)

theorem exec_refreshDebtRise : exec (.refreshDebtRise die v) s = .next (s.sealed (effRefreshDebtRise die v s)) := rfl

theorem exec_refreshRoundDone : exec (.refreshRoundDone die v) s = .next (s.sealed (effRefreshRoundDone die v s)) := rfl

theorem exec_selfRefreshExit : exec (.selfRefreshExit die v) s = .next (s.sealed (effSelfRefreshExit die v s)) := rfl

end Commands

section Refresh
variable (s : State) {die v : Nat}

/-- What follows a rise of the debt: a self-paced vault starts a round, and at DEBT_LIMIT a die that is not yet frozen for it takes an
inserted refresh (R85, R171). -/
theorem effRefreshDebtRise_refreshed {d : Nat} {u : State} (hc : isC die = true) (hv : v < 64) (hup : s.dieUp die = true)
    (hrefreshes : s.refreshes die v = true) (hd : d = min 8 (s.fget die (MFS_STATUS.DEBT.unit v) + 1))
    (hu : u = (s.fset die (MFS_STATUS.DEBT.unit v) d).fset die SEQ_REFRESH.PEAK_DEBT
      (max d (s.fget die SEQ_REFRESH.PEAK_DEBT))) :
    effRefreshDebtRise die v s =
      if u.selfPaced die then u.tryRound die v
      else if u.debtLimit die ≤ d && !(u.td die).freezeRefresh then u.insertRefresh die
      else u := by
  subst hd hu
  exact if_neg (by simp [hc, Nat.not_le.mpr hv, hup, hrefreshes])

/-- What the end of a round leaves: a vault that leaves self-refresh is active, and one that paces itself starts its next round
(R171, R173). -/
theorem effRefreshRoundDone_refreshing {t u : State} (hround : (s.vault die v).refreshing = true)
    (ht : t = s.updVault die v (fun x => { x with refreshing := false }))
    (hu : u = if t.vState die v = vSELFREF then t.fset die (MFS_STATUS.STATE.unit v) vACTIVE else t) :
    effRefreshRoundDone die v s = if u.selfPaced die && u.refreshes die v then u.tryRound die v else u := by
  subst ht hu
  exact if_neg (by simp [hround])

theorem effSelfRefreshExit_selfRefreshed (hc : isC die = true) (hv : v < 64) (hup : s.dieUp die = true)
    (hst : s.vState die v = vSELFREF) :
    effSelfRefreshExit die v s =
      (s.fset die (MFS_STATUS.DEBT.unit v) 0).updVault die v (fun x => { x with refreshing := true }) :=
  if_neg (by simp [hc, Nat.not_le.mpr hv, hup, hst])

end Refresh

/-- Settles O14: each command is the sealed effect, and the pace of the vault decides what follows. -/
theorem vaultRefresh : Obligations.VaultRefresh := by
  intro s die v
  refine ⟨?rise, ?done, ?exit⟩
  case rise =>
    intro d u hc hv hup hrefreshes hd hu
    rw [exec_refreshDebtRise, effRefreshDebtRise_refreshed s hc hv hup hrefreshes hd hu]
    refine ⟨fun hpaced => ?_, fun hpaced hlt => ?_, fun hpaced hle hfreeze => ?_⟩
    · rw [if_pos hpaced]
    · rw [if_neg (by simp [hpaced]), if_neg (by simp [Nat.not_le.mpr hlt])]
    · rw [if_neg (by simp [hpaced]), if_pos (by simp [hle, hfreeze])]
  case done =>
    intro t u hround ht hu
    rw [exec_refreshRoundDone, effRefreshRoundDone_refreshing s hround ht hu]
    exact ⟨fun hpaced => by rw [if_neg (by simp [hpaced])],
      fun hpaced hrefreshes => by rw [if_pos (by simp [hpaced, hrefreshes])]⟩
  case exit =>
    intro hc hv hup hst
    rw [exec_selfRefreshExit, effSelfRefreshExit_selfRefreshed s hc hv hup hst]

end Sys2Proof.Machine
end

section
/-!
The scalar slots of 03_tideline_stream.md (R136 to R140). Each takes the scalar unit of its core for one cycle; what it does then is
stated here once for each operation.
-/
namespace Sys2Proof.Machine

section Commands
variable (s : State) (die : Nat) (w : Word)

theorem exec_salu : exec (.salu die w) s = .next (s.sealed (s.runSlot die 0x30 w (0, 0, 0))) := rfl

theorem exec_sli : exec (.sli die w) s = .next (s.sealed (s.runSlot die 0x31 w (0, 0, 0))) := rfl

theorem exec_slds : exec (.slds die w) s = .next (s.sealed (s.runSlot die 0x32 w (0, 0, 0))) := rfl

theorem exec_ssts : exec (.ssts die w) s = .next (s.sealed (s.runSlot die 0x33 w (0, 0, 0))) := rfl

theorem exec_sfromv : exec (.sfromv die w) s = .next (s.sealed (s.runSlot die 0x34 w (0, 0, 0))) := rfl

theorem exec_signal : exec (.signal die w) s = .next (s.sealed (s.runSlot die 0x35 w (0, 0, 0))) := rfl

theorem exec_mark : exec (.mark die w) s = .next (s.sealed (s.runSlot die 0x36 w (0, 0, 0))) := rfl

end Commands

/-! ### The operation that a scalar slot's code names (R66) -/

section Operation
variable (s : State) {x : Slot}

theorem State.issueOn_salu (h : slotCode x.w = 0x30) : s.issueOn x = s.issueSalu x := by simp only [State.issueOn, h]

theorem State.issueOn_sli (h : slotCode x.w = 0x31) : s.issueOn x = s.issueSli x := by simp only [State.issueOn, h]

theorem State.issueOn_slds (h : slotCode x.w = 0x32) : s.issueOn x = s.issueSlds x := by simp only [State.issueOn, h]

theorem State.issueOn_ssts (h : slotCode x.w = 0x33) : s.issueOn x = s.issueSsts x := by simp only [State.issueOn, h]

theorem State.issueOn_sfromv (h : slotCode x.w = 0x34) : s.issueOn x = s.issueSfromv x := by simp only [State.issueOn, h]

theorem State.issueOn_signal (h : slotCode x.w = 0x35) : s.issueOn x = s.issueSignal x := by simp only [State.issueOn, h]

theorem State.issueOn_mark (h : slotCode x.w = 0x36) : s.issueOn x = s.issueMark x := by simp only [State.issueOn, h]

end Operation

/-! ## What the operations do where the scalar unit is free -/

section Free
variable (s : State) {x : Slot} {u : State} {t : Nat} (ht : t = (s.td x.die).cycle)
  (hhold : s.hold x.die [⟨uScalar x.ctx, t, t + 1⟩] [] = some u)
include ht hhold

theorem State.scalarWrite_free (lat d val : Nat) :
    s.scalarWrite x lat d val =
      u.launch x.die (regFlight x.core x.ctx (t + lat) (scalarReg d).1 (scalarReg d).2 val) := by
  subst ht
  simp only [State.scalarWrite, hhold]

/-- SALU writes its result a cycle after its issue; its second operand is a register or the immediate (R136). -/
theorem State.issueSalu_free :
    s.issueSalu x = u.launch x.die (regFlight x.core x.ctx (t + 1) (scalarReg (bits x.w 44 40)).1 (scalarReg (bits x.w 44 40)).2
      (saluOp (bits x.w 48 45) ((s.td x.die).screg x.ctx (bits x.w 39 35)).toNat
        (if bitAt x.w 29 then unsignedN 64 (signedN 29 (bits x.w 28 0))
         else ((s.td x.die).screg x.ctx (bits x.w 34 30)).toNat))) :=
  s.scalarWrite_free ht hhold 1 _ _

/-- SLI with bit 39 clear writes the sign-extended immediate (R137). -/
theorem State.issueSli_signed (hbit : bitAt x.w 39 = false) :
    s.issueSli x = u.launch x.die (regFlight x.core x.ctx (t + 1) (scalarReg (bits x.w 44 40)).1 (scalarReg (bits x.w 44 40)).2
      (unsignedN 64 (signedN 39 (bits x.w 38 0)))) := by
  simp only [State.issueSli, hbit, Bool.false_eq_true, if_false, s.scalarWrite_free ht hhold]

/-- SFROMV with bit 28 clear writes a lane of a v register as it stands (R138). -/
theorem State.issueSfromv_unsigned (hbit : bitAt x.w 28 = false) :
    s.issueSfromv x = u.launch x.die (regFlight x.core x.ctx (t + 3) (scalarReg (bits x.w 44 40)).1
      (scalarReg (bits x.w 44 40)).2 (lane ((s.td x.die).vreg x.ctx (bits x.w 39 35)) (bits x.w 34 29))) := by
  simp only [State.issueSfromv, hbit, Bool.false_eq_true, if_false, s.scalarWrite_free ht hhold]

/-- SLDS reads 8 B of the slab from a window that permits it (R138). -/
theorem State.issueSlds_free {o : Nat}
    (hslab : s.slabOperand x.die x.ctx ((s.td x.die).areg x.ctx (bits x.w 39 36)) 8 8 permR false = some o) :
    s.issueSlds x = u.launch x.die { x.flight .slds t with src := o, len := 8, arg := [bits x.w 44 40] } := by
  subst ht
  simp only [State.issueSlds, hslab, hhold]

/-- SSTS writes 8 B of the slab to a window that permits it (R138). -/
theorem State.issueSsts_free {o : Nat}
    (hslab : s.slabOperand x.die x.ctx ((s.td x.die).areg x.ctx (bits x.w 39 36)) 8 8 permW false = some o) :
    s.issueSsts x = u.launch x.die
      { x.flight .ssts t with dst := o, bytes := leBytes 8 ((s.td x.die).screg x.ctx (bits x.w 44 40)).toNat } := by
  subst ht
  simp only [State.issueSsts, hslab, hhold]

/-- SIGNAL adds to a counter of its own die at once, and sends the increment to another (R139). -/
theorem State.issueSignal_free :
    s.issueSignal x =
      if bits x.w 44 42 = x.die then u.tokenAdd (bits x.w 44 42) (bits x.w 41 38) (bits x.w 37 22)
      else { u with signals := u.signals ++ [(bits x.w 44 42, bits x.w 41 38, bits x.w 37 22, x.die)] } := by
  subst ht
  simp only [State.issueSignal, hhold]

/-- MARK writes a sample record of the step, its payload, the cycle of the work item and the time (R140, R597). -/
theorem State.issueMark_free :
    s.issueMark x = u.sbRecord x.die
      [BitVec.ofNat 64 (0x2 + s.fget x.die SEQ_STATUS.STEP * 2 ^ 16 + bits x.w 44 29 * 2 ^ 32),
       BitVec.ofNat 64 (t - (s.td x.die).start), 0, BitVec.ofNat 64 (s.tmkNs x.die)] := by
  subst ht
  simp only [State.issueMark, hhold]

end Free

/-- Settles O6: each slot issues on its one core, and its operation finds the scalar unit free. -/
theorem scalarSlots : Obligations.ScalarSlots := by
  rintro s u _ die c t w x rfl hx ht hhold
  obtain ⟨rfl, rfl, rfl⟩ := Slot.parts_of_slotOn hx
  refine ⟨?salu, ?sli, ?sfromv, ?slds, ?ssts, ?own, ?other, ?mark⟩
  case salu =>
    intro hissue
    rw [exec_salu, s.runSlot_issuesOn hissue, ← hx, State.issueOn_salu _ (s.slotCode_of_issuesOn hissue),
      State.issueSalu_free _ ht hhold]
  case sli =>
    intro hissue hbit
    rw [exec_sli, s.runSlot_issuesOn hissue, ← hx, State.issueOn_sli _ (s.slotCode_of_issuesOn hissue),
      State.issueSli_signed _ ht hhold hbit]
  case sfromv =>
    intro hissue hbit
    rw [exec_sfromv, s.runSlot_issuesOn hissue, ← hx, State.issueOn_sfromv _ (s.slotCode_of_issuesOn hissue),
      State.issueSfromv_unsigned _ ht hhold hbit]
  case slds =>
    intro o hissue hslab
    rw [exec_slds, s.runSlot_issuesOn hissue, ← hx, State.issueOn_slds _ (s.slotCode_of_issuesOn hissue),
      State.issueSlds_free _ ht hhold hslab]
  case ssts =>
    intro o hissue hslab
    rw [exec_ssts, s.runSlot_issuesOn hissue, ← hx, State.issueOn_ssts _ (s.slotCode_of_issuesOn hissue),
      State.issueSsts_free _ ht hhold hslab]
  case own =>
    intro hissue hdie
    rw [exec_signal, s.runSlot_issuesOn hissue, ← hx, State.issueOn_signal _ (s.slotCode_of_issuesOn hissue),
      State.issueSignal_free _ ht hhold, if_pos hdie]
  case other =>
    intro hissue hdie
    rw [exec_signal, s.runSlot_issuesOn hissue, ← hx, State.issueOn_signal _ (s.slotCode_of_issuesOn hissue),
      State.issueSignal_free _ ht hhold, if_neg hdie]
  case mark =>
    intro hissue
    rw [exec_mark, s.runSlot_issuesOn hissue, ← hx, State.issueOn_mark _ (s.slotCode_of_issuesOn hissue),
      State.issueMark_free _ ht hhold]

end Sys2Proof.Machine
end

section
/-!
The vector slots of 03_tideline_stream.md (R117 to R122). The five codes share one operation of the VPU, which holds an FMA pipe or the
transcendental unit and launches one register write.
-/
namespace Sys2Proof.Machine

section Commands
variable (s : State) (die : Nat) (w : Word)

theorem exec_vfp : exec (.vfp die w) s = .next (s.sealed (s.runSlot die 0x08 w (0, 0, 0))) := rfl

theorem exec_vint : exec (.vint die w) s = .next (s.sealed (s.runSlot die 0x09 w (0, 0, 0))) := rfl

theorem exec_vcmp : exec (.vcmp die w) s = .next (s.sealed (s.runSlot die 0x0A w (0, 0, 0))) := rfl

theorem exec_vcvt : exec (.vcvt die w) s = .next (s.sealed (s.runSlot die 0x0B w (0, 0, 0))) := rfl

theorem exec_vtrn : exec (.vtrn die w) s = .next (s.sealed (s.runSlot die 0x0C w (0, 0, 0))) := rfl

end Commands

section Vpu
variable (s : State) {x : Slot} {u : State} {t code : Nat}

theorem State.issueOn_vpu (hcode : slotCode x.w = code) (hvpu : code ∈ [0x08, 0x09, 0x0A, 0x0B, 0x0C]) :
    s.issueOn x = s.issueVpu x := by
  subst hcode
  simp only [List.mem_cons, List.not_mem_nil, or_false] at hvpu
  obtain h | h | h | h | h := hvpu <;> simp only [State.issueOn, h]

/-- An operation that writes lanes takes a free FMA pipe, and 3 cycles where it is VINT and 6 elsewhere (R118, R119, R121). -/
theorem State.issueVpu_lanes {lat : Nat} (ht : t = (s.td x.die).cycle)
    (hhold : s.hold x.die [⟨uFma x.ctx 0, t, t + 1⟩] [] = some u) (hcode : slotCode x.w = code) (hmask : code ≠ 0x0A)
    (htrn : code ≠ 0x0C) (hlat : lat = if code = 0x09 then 3 else 6) :
    s.issueVpu x = (u.coreEvent x.die x.core 0x006 1).launch x.die
      (regFlight x.core x.ctx (t + lat) 0 (bits x.w 44 40) (vpuResult (s.td x.die) x.ctx code x.w).toNat) := by
  subst ht hlat
  simp [State.issueVpu, hcode, hmask, htrn, hhold]

/-- VCMP writes its mask to a p register 3 cycles after it takes an FMA pipe (R120). -/
theorem State.issueVpu_mask (ht : t = (s.td x.die).cycle)
    (hhold : s.hold x.die [⟨uFma x.ctx 0, t, t + 1⟩] [] = some u) (hcode : slotCode x.w = 0x0A) :
    s.issueVpu x = (u.coreEvent x.die x.core 0x006 1).launch x.die
      (regFlight x.core x.ctx (t + 3) 3 (bits x.w 42 40) (vcmpResult (s.td x.die) x.ctx x.w).toNat) := by
  subst ht
  simp [State.issueVpu, hcode, hhold]

/-- VTRN holds the transcendental unit for 4 cycles and writes its lanes after 16 (R122). -/
theorem State.issueVpu_transcendental (ht : t = (s.td x.die).cycle)
    (hhold : s.hold x.die [⟨uTrn x.ctx, t, t + 4⟩] [] = some u) (hcode : slotCode x.w = 0x0C) :
    s.issueVpu x = (u.coreEvent x.die x.core 0x006 1).launch x.die
      (regFlight x.core x.ctx (t + 16) 0 (bits x.w 44 40) (vpuResult (s.td x.die) x.ctx 0x0C x.w).toNat) := by
  subst ht
  simp [State.issueVpu, hcode, hhold]

end Vpu

/-- Settles O7: each slot issues on its one core, and its operation finds the pipe that its code takes free. -/
theorem vectorSlots : Obligations.VectorSlots := by
  rintro s u _ die c t w x rfl hx ht
  obtain ⟨rfl, rfl, rfl⟩ := Slot.parts_of_slotOn hx
  refine ⟨fun hhold => ⟨?vfp, ?vint, ?vcmp, ?vcvt⟩, ?vtrn⟩
  case vfp =>
    intro hissue
    have hcode := s.slotCode_of_issuesOn hissue
    rw [exec_vfp, s.runSlot_issuesOn hissue, ← hx, State.issueOn_vpu _ hcode (by decide),
      State.issueVpu_lanes (lat := 6) _ ht hhold hcode (by decide) (by decide) rfl]
  case vint =>
    intro hissue
    have hcode := s.slotCode_of_issuesOn hissue
    rw [exec_vint, s.runSlot_issuesOn hissue, ← hx, State.issueOn_vpu _ hcode (by decide),
      State.issueVpu_lanes (lat := 3) _ ht hhold hcode (by decide) (by decide) rfl]
  case vcmp =>
    intro hissue
    have hcode := s.slotCode_of_issuesOn hissue
    rw [exec_vcmp, s.runSlot_issuesOn hissue, ← hx, State.issueOn_vpu _ hcode (by decide), State.issueVpu_mask _ ht hhold hcode]
  case vcvt =>
    intro hissue
    have hcode := s.slotCode_of_issuesOn hissue
    rw [exec_vcvt, s.runSlot_issuesOn hissue, ← hx, State.issueOn_vpu _ hcode (by decide),
      State.issueVpu_lanes (lat := 6) _ ht hhold hcode (by decide) (by decide) rfl]
  case vtrn =>
    intro hhold hissue
    have hcode := s.slotCode_of_issuesOn hissue
    rw [exec_vtrn, s.runSlot_issuesOn hissue, ← hx, State.issueOn_vpu _ hcode (by decide),
      State.issueVpu_transcendental _ ht hhold hcode]

end Sys2Proof.Machine
end

section
/-!
The slab slots of 03_tideline_stream.md (R124 to R126, R131): the moves of bytes between slab and registers, within the slab, and to
the slab of another core.
-/
namespace Sys2Proof.Machine

section Commands
variable (s : State) (die : Nat) (w : Word)

theorem exec_sld : exec (.sld die w) s = .next (s.sealed (s.runSlot die 0x10 w (0, 0, 0))) := rfl

theorem exec_sst : exec (.sst die w) s = .next (s.sealed (s.runSlot die 0x11 w (0, 0, 0))) := rfl

theorem exec_scopy : exec (.scopy die w) s = .next (s.sealed (s.runSlot die 0x12 w (0, 0, 0))) := rfl

theorem exec_sfill : exec (.sfill die w) s = .next (s.sealed (s.runSlot die 0x13 w (0, 0, 0))) := rfl

theorem exec_ssend (d : Nat × Nat × Nat) : exec (.ssend die w d) s = .next (s.sealed (s.runSlot die 0x20 w d)) := rfl

end Commands

/-! ### The operation that a slab slot's code names (R66) -/

section Operation
variable (s : State) {x : Slot}

theorem State.issueOn_sld (h : slotCode x.w = 0x10) : s.issueOn x = s.issueSld x := by simp only [State.issueOn, h]

theorem State.issueOn_sst (h : slotCode x.w = 0x11) : s.issueOn x = s.issueSst x := by simp only [State.issueOn, h]

theorem State.issueOn_scopy (h : slotCode x.w = 0x12) : s.issueOn x = s.issueScopy x := by simp only [State.issueOn, h]

theorem State.issueOn_sfill (h : slotCode x.w = 0x13) : s.issueOn x = s.issueSfill x := by simp only [State.issueOn, h]

theorem State.issueOn_ssend (h : slotCode x.w = 0x20) : s.issueOn x = s.issueSsend x := by simp only [State.issueOn, h]

end Operation

theorem Slot.damage_of_slotOn {s : State} {x : Slot} {die c : Nat} {w : Word} {d : Nat × Nat × Nat}
    (hx : x = s.slotOn die c w d) : x.damage = d := by
  rw [hx, State.slotOn]

/-! ## What the operations do with operands in range and units free -/

section Free
variable (s : State) {x : Slot} {u : State} {t a b len : Nat} (ht : t = (s.td x.die).cycle)
include ht

/-- SLD takes along the old value of its register and its predicate, for the lanes that it does not load (R124, R125). -/
theorem State.issueSld_free {n : Nat} (hn : n = widthBytes (bits x.w 35 34))
    (hslab : s.slabOperand x.die x.ctx ((s.td x.die).areg x.ctx (bits x.w 43 40)) n n permR false = some a)
    (hhold : s.hold x.die [⟨uMove x.ctx, t, t + 1⟩] [] = some u) :
    s.issueSld x = u.launch x.die { x.flight .sld t with
      src := a, len := n,
      arg := [bits x.w 48 44, bits x.w 35 34, bits x.w 36 36, ((s.td x.die).preg x.ctx (bits x.w 39 37)).toNat,
        ((s.td x.die).vreg x.ctx (bits x.w 48 44)).toNat] } := by
  subst ht hn
  simp only [State.issueSld, hslab, hhold]

/-- SST without scales writes its active lanes in their width (R124, R125). -/
theorem State.issueSst_lanes {n : Nat} (hn : n = widthBytes (bits x.w 35 34)) (hscales : bitAt x.w 36 = false)
    (hslab : s.slabOperand x.die x.ctx ((s.td x.die).areg x.ctx (bits x.w 43 40)) n n permW false = some a)
    (hhold : s.hold x.die [⟨uMove x.ctx, t, t + 1⟩] [] = some u) :
    s.issueSst x = u.launch x.die { x.flight .sst t with
      dst := a,
      bytes := (sstBytes ((s.td x.die).vreg x.ctx (bits x.w 48 44)) ((s.td x.die).preg x.ctx (bits x.w 39 37)) x.w).1,
      mask := (sstBytes ((s.td x.die).vreg x.ctx (bits x.w 48 44)) ((s.td x.die).preg x.ctx (bits x.w 39 37)) x.w).2 } := by
  subst ht hn
  simp only [State.issueSst, hscales, Bool.false_eq_true, if_false, hslab, hhold]

/-- SCOPY moves a row of 256 B a cycle (R126). -/
theorem State.issueScopy_free (hlen : len = bits x.w 40 29 + 1)
    (hsrc : s.slabOperand x.die x.ctx ((s.td x.die).areg x.ctx (bits x.w 48 45)) (256 * len) 256 permR false = some a)
    (hdst : s.slabOperand x.die x.ctx ((s.td x.die).areg x.ctx (bits x.w 44 41)) (256 * len) 256 permW false = some b)
    (hhold : s.hold x.die [⟨uMove x.ctx, t, t + len⟩] [] = some u) :
    s.issueScopy x = u.launch x.die { x.flight .scopy t with src := a, dst := b, len := len } := by
  subst ht hlen
  simp only [State.issueScopy, hsrc, hdst, hhold]

/-- SFILL writes a row of 64 copies of a word a cycle (R126). -/
theorem State.issueSfill_free (hlen : len = bits x.w 40 29 + 1)
    (hdst : s.slabOperand x.die x.ctx ((s.td x.die).areg x.ctx (bits x.w 48 45)) (256 * len) 256 permW false = some a)
    (hhold : s.hold x.die [⟨uMove x.ctx, t, t + len⟩] [] = some u) :
    s.issueSfill x = u.launch x.die { x.flight .sfill t with
      dst := a, len := len,
      bytes := (List.range 64).flatMap (fun _ => leBytes 4 ((s.td x.die).sreg x.ctx (bits x.w 44 41)).toNat) } := by
  subst ht hlen
  simp only [State.issueSfill, hdst, hhold]

/-- SSEND holds the local ports of both cores and the links between them, and a flit of it may arrive damaged (R131, R240). -/
theorem State.issueSsend_free {dest rcore rctx : Nat} (hlen : len = bits x.w 32 21 + 1)
    (hdest : ssendTarget x.w x.logical = some dest) (hplace : s.placeOf x.die dest = (rcore, rctx))
    (hsrc : s.slabOperand x.die x.ctx ((s.td x.die).areg x.ctx (bits x.w 48 45)) (64 * len) 64 permR false = some a)
    (hdst : s.slabOperand x.die rctx ((s.td x.die).areg x.ctx (bits x.w 44 41)) (64 * len) 64 permW false = some b)
    (hhold : s.hold x.die (⟨uLocal x.ctx, t, t + len⟩ ::
      ⟨uLocal rctx, t + 4 + 4 * hops x.logical dest, t + 4 + 4 * hops x.logical dest + len⟩ ::
      routeBusy (routeXY x.logical dest) t len) (routeXY x.logical dest) = some u) :
    s.issueSsend x = ({ x.flight .ssend t with
      src := a, dst := b, len := len, lat := 4 + 4 * hops x.logical dest,
      arg := [rcore, b2n (isGuest rctx), x.damage.1, x.damage.2.1, x.damage.2.2] } ::
      damageReport x rcore (t + 4 + 4 * hops x.logical dest) (entryPort (routeXY x.logical dest))).foldl
        (fun (y : State) g => y.launch x.die g) u := by
  subst ht hlen
  simp only [State.issueSsend, hdest, hplace, hsrc, hdst, hhold]

end Free

/-- Settles O8: each slot issues on its one core, and its operation finds its operands in range and its units free. -/
theorem slabSlots : Obligations.SlabSlots := by
  rintro s u _ die c t a b w x rfl hx ht
  obtain ⟨rfl, rfl, rfl⟩ := Slot.parts_of_slotOn hx
  refine ⟨?sld, ?sst, ?scopy, ?sfill, ?ssend⟩
  case sld =>
    intro hissue hslab hhold
    rw [exec_sld, s.runSlot_issuesOn hissue, ← hx, State.issueOn_sld _ (s.slotCode_of_issuesOn hissue),
      State.issueSld_free _ ht rfl hslab hhold]
  case sst =>
    intro hissue hscales hslab hhold
    rw [exec_sst, s.runSlot_issuesOn hissue, ← hx, State.issueOn_sst _ (s.slotCode_of_issuesOn hissue),
      State.issueSst_lanes _ ht rfl hscales hslab hhold]
  case scopy =>
    intro hissue hsrc hdst hhold
    rw [exec_scopy, s.runSlot_issuesOn hissue, ← hx, State.issueOn_scopy _ (s.slotCode_of_issuesOn hissue),
      State.issueScopy_free _ ht rfl hsrc hdst hhold]
  case sfill =>
    intro hissue hdst hhold
    rw [exec_sfill, s.runSlot_issuesOn hissue, ← hx, State.issueOn_sfill _ (s.slotCode_of_issuesOn hissue),
      State.issueSfill_free _ ht rfl hdst hhold]
  case ssend =>
    intro dest rcore rctx hissue hdest hplace hsrc hdst hhold
    rw [exec_ssend, s.runSlot_issuesOn hissue, ← hx, State.issueOn_ssend _ (s.slotCode_of_issuesOn hissue),
      State.issueSsend_free _ ht rfl hdest hplace hsrc hdst hhold, Slot.damage_of_slotOn hx]

end Sys2Proof.Machine
end

section
/-!
The command slots of 03_tideline_stream.md (R132 to R135). Each takes the command port of its core and one of the 32 commands between
awaits (`State.holdCmd`); what it puts into the queue is stated here once for each operation.
-/
namespace Sys2Proof.Machine

section Commands
variable (s : State) (die : Nat) (w : Word)

theorem exec_glz : exec (.glz die w) s = .next (s.sealed (s.runSlot die 0x28 w (0, 0, 0))) := rfl

theorem exec_dma : exec (.dma die w) s = .next (s.sealed (s.runSlot die 0x29 w (0, 0, 0))) := rfl

theorem exec_ratom : exec (.ratom die w) s = .next (s.sealed (s.runSlot die 0x2A w (0, 0, 0))) := rfl

end Commands

/-! ### The operation that a command slot's code names (R66) -/

section Operation
variable (s : State) {x : Slot}

theorem State.issueOn_glz (h : slotCode x.w = 0x28) : s.issueOn x = s.issueGlz x := by simp only [State.issueOn, h]

theorem State.issueOn_dma (h : slotCode x.w = 0x29) : s.issueOn x = s.issueDma x := by simp only [State.issueOn, h]

theorem State.issueOn_ratom (h : slotCode x.w = 0x2A) : s.issueOn x = s.issueRatom x := by simp only [State.issueOn, h]

end Operation

/-! ## What the operations do where the command port takes them -/

section Port
variable (s : State) {x : Slot} {u : State} {t a b len : Nat} (hcmd : s.holdCmd x = some u)
include hcmd

/-- GLZ reads its descriptor in its issue cycle, which no refresh slot of its target's vault may take in (R85, R133). -/
theorem State.issueGlz_taken (ht : t = (s.td x.die).cycle)
    (hdesc : s.slabOperand x.die x.ctx ((s.td x.die).areg x.ctx (bits x.w 44 41)) 64 64 permR false = some a)
    (htarget : s.window x.die ((s.td x.die).areg x.ctx (bits x.w 40 37)) 1 1 permG true = some b)
    (hrefresh : s.inRefresh x.die b = false) :
    s.issueGlz x = (u.markGlz x.die b).launch x.die { x.flight .glz t with
      src := a, len := 64,
      arg := [bits x.w 48 45, b, bits x.w 36 33, bits x.w 32 32, ((s.td x.die).areg x.ctx (bits x.w 40 37)).toNat] ++
        keyArgs (s.streamKey x.die) } := by
  subst ht
  simp only [State.issueGlz, hdesc, htarget, hrefresh, Bool.false_eq_true, if_false, hcmd]

/-- DMA enters the queue with its source, its target and the length that a register gives (R134). -/
theorem State.issueDma_taken (hlen : len = bits ((s.td x.die).sreg x.ctx (bits x.w 40 37)) 31 0)
    (hsrc : s.window x.die ((s.td x.die).areg x.ctx (bits x.w 48 45)) len 1 permRG true = some a)
    (hdst : s.window x.die ((s.td x.die).areg x.ctx (bits x.w 44 41)) len 1 permWG true = some b) :
    s.issueDma x = u.enqueue x { Cmd.blank with
      kind := .dma, source := a, target := b, length := len, token := bits x.w 36 33, tokEn := bitAt x.w 32 } := by
  subst hlen
  simp only [State.issueDma, hsrc, hdst, hcmd]

/-- RATOM with bit 28 clear enters the queue with its operands and returns no old value (R135). -/
theorem State.issueRatom_noReturn {n : Nat} (hn : n = atomBytes (bits x.w 48 45)) (hret : bitAt x.w 28 = false)
    (htarget : s.window x.die ((s.td x.die).areg x.ctx (bits x.w 44 41)) n n permG true = some a)
    (hrefresh : s.inRefresh x.die a = false) :
    s.issueRatom x = (u.markGlz x.die a).enqueue x { Cmd.blank with
      key := s.streamKey x.die, kind := .ratom, op := bits x.w 48 45, target := a,
      operand := ((s.td x.die).sreg x.ctx (bits x.w 40 37)).toNat,
      compare := ((s.td x.die).sreg x.ctx (bits x.w 36 33)).toNat,
      ret := 0, retEn := false, token := bits x.w 27 24, tokEn := bitAt x.w 23 } := by
  subst hn
  simp only [State.issueRatom, hret, Bool.false_eq_true, if_false, htarget, hrefresh, hcmd]

end Port

/-- Settles O10: each slot issues on its one core, and its operation finds its operands in range and room in the command port. -/
theorem commandSlots : Obligations.CommandSlots := by
  rintro s u _ die c t a b w x rfl hx ht hcmd
  obtain ⟨rfl, rfl, rfl⟩ := Slot.parts_of_slotOn hx
  refine ⟨?glz, ?dma, ?ratom⟩
  case glz =>
    intro hissue hdesc htarget hrefresh
    rw [exec_glz, s.runSlot_issuesOn hissue, ← hx, State.issueOn_glz _ (s.slotCode_of_issuesOn hissue),
      State.issueGlz_taken _ hcmd ht hdesc htarget hrefresh]
  case dma =>
    intro hissue hsrc hdst
    rw [exec_dma, s.runSlot_issuesOn hissue, ← hx, State.issueOn_dma _ (s.slotCode_of_issuesOn hissue),
      State.issueDma_taken _ hcmd rfl hsrc hdst]
  case ratom =>
    intro hissue hret htarget hrefresh
    rw [exec_ratom, s.runSlot_issuesOn hissue, ← hx, State.issueOn_ratom _ (s.slotCode_of_issuesOn hissue),
      State.issueRatom_noReturn _ hcmd rfl hret htarget hrefresh]

end Sys2Proof.Machine
end

section
/-!
The commands and increments on their way (03_tideline_stream.md R132, R139): arrival, departure for an engine, completion and failure.
-/
namespace Sys2Proof.Machine

section Commands
variable (s : State) (die : Nat)

theorem exec_signalArrival : exec (.signalArrival die) s = .next (s.sealed (effSignalArrival die s)) := rfl

theorem exec_commandSend (core : Nat) : exec (.commandSend die core) s = .next (s.sealed (effCommandSend die core s)) := rfl

theorem exec_commandComplete : exec (.commandComplete die) s = .next (s.sealed (effCommandComplete die s)) := rfl

theorem exec_commandFailure : exec (.commandFailure die) s = .next (s.sealed (effCommandFailure die s)) := rfl

end Commands

theorem State.dmaAll_of_none (s : State) (h : s.dmas = []) (p : Dma → Bool) : s.dmaAll p = s := by
  simp [State.dmaAll, h]

section Engine
variable (s : State) {die : Nat}

/-- The oldest increment on its way to a die that is up reaches its counter (R139). -/
theorem effSignalArrival_head {n inc src : Nat} {rest : List (Nat × Nat × Nat × Nat)}
    (hsignals : s.signals = (die, n, inc, src) :: rest) (hup : s.dieUp die = true) :
    effSignalArrival die s = ({ s with signals := rest } : State).tokenAdd die n inc := by
  simp [effSignalArrival, hsignals, takeFirst, hup]

/-- The oldest command of a core leaves for an engine that accepts it, unless an open step holds it (R132). -/
theorem effCommandSend_sent {core : Nat} {cmd : Cmd} (hfirst : (s.td die).cmdq.find? (fun c => c.core = core) = some cmd)
    (hheld : cmd.held = false) (hup : s.dieUp die = true) (haccepts : s.accepts die cmd = true) :
    effCommandSend die core s =
      ((s.updTd die (fun t => { t with cmdq := t.cmdq.filter (fun x => x.id ≠ cmd.id), sent := t.sent ++ [cmd] })).sendCmd die
        cmd).enterStep2 die := by
  simp only [effCommandSend, hfirst, hheld, hup, haccepts, Bool.not_true, Bool.or_self, Bool.false_eq_true, if_false]

/-- With no transfer under way, the oldest command that has completed leaves the list of those sent (R132). -/
theorem effCommandComplete_done {e : CmdEnd} {rest : List CmdEnd} {cmd : Cmd} {left : List Cmd} (hc : isC die = true)
    (hup : s.dieUp die = true) (hidle : s.dmas = [])
    (hend : takeFirst (fun e => decide (e.die = die && e.fail = none)) s.cmdEnds = some (e, rest))
    (hsent : takeFirst (fun c => decide (c.id = e.id)) (s.td die).sent = some (cmd, left)) :
    effCommandComplete die s =
      (({ s with cmdEnds := rest } : State).updTd die (fun t => { t with sent := left })).cmdDone die cmd e := by
  have hsent' : takeFirst (fun c => decide (c.id = e.id)) (({ s with cmdEnds := rest } : State).td die).sent =
    some (cmd, left) := hsent
  simp only [effCommandComplete, hc, hup, Bool.not_true, Bool.or_self, Bool.false_eq_true, if_false,
    s.dmaAll_of_none hidle, hend, hsent']

/-- A failed command of the running work item that no engine has recorded yet is recorded, and aborts the item (R132, R542). -/
theorem effCommandFailure_aborts {e : CmdEnd} {rest : List CmdEnd} {cmd : Cmd} {left : List Cmd} {code : Nat} {u : State}
    (hc : isC die = true) (hup : s.dieUp die = true)
    (hend : takeFirst (fun e => decide (e.die = die && e.fail ≠ none)) s.cmdEnds = some (e, rest))
    (hsent : takeFirst (fun c => decide (c.id = e.id)) (s.td die).sent = some (cmd, left))
    (hcode : e.fail = some code) (hrecorded : e.recorded = false)
    (hu : u = (({ s with cmdEnds := rest } : State).updTd die (fun t => { t with sent := left })).logErr die 2
      (if cmd.kind = .dma then 0x10 else 0x04) cmd.core code cmd.target)
    (hitem : (u.td die).itemCmd ≤ cmd.id) (hrunning : u.running die = true) :
    effCommandFailure die s =
      ((u.updTd die (fun t =>
        if t.failed then t else { t with failed := true, failCode := code, failHome := e.home })).fset die SEQ_CTRL.ABORT
          1).endItem die .aborted := by
  have hsent' : takeFirst (fun c => decide (c.id = e.id)) (({ s with cmdEnds := rest } : State).td die).sent =
    some (cmd, left) := hsent
  simp only [effCommandFailure, hc, hup, Bool.not_true, Bool.or_self, Bool.false_eq_true, if_false, hend, hsent', hcode,
    Option.getD_some, hrecorded, ← hu]
  exact if_pos (by simp [hitem, hrunning])

end Engine

/-- Settles O11: each command is the sealed effect, and the effect takes the oldest increment, command or end that the state names. -/
theorem commandEngine : Obligations.CommandEngine := by
  intro s die
  refine ⟨?arrival, ?send, ?complete, ?failure⟩
  case arrival =>
    intro n inc src rest hsignals hup
    rw [exec_signalArrival, effSignalArrival_head s hsignals hup]
  case send =>
    intro core cmd hfirst hheld hup haccepts
    rw [exec_commandSend, effCommandSend_sent s hfirst hheld hup haccepts]
  case complete =>
    intro e rest cmd left hc hup hidle hend hsent
    rw [exec_commandComplete, effCommandComplete_done s hc hup hidle hend hsent]
  case failure =>
    intro e rest cmd left code u hc hup hend hsent hcode hrecorded hu hitem hrunning
    rw [exec_commandFailure, effCommandFailure_aborts s hc hup hend hsent hcode hrecorded hu hitem hrunning]

end Sys2Proof.Machine
end

section
/-!
The bytes of a memory that an operation leaves as they are: a range set back to what nothing has written, and a run of bytes written
apart from those that are read.
-/
namespace Sys2Proof

section Clear
variable {α : Type} (d : α) (m : SMap α) {lo hi k : Nat}

theorem mapGet_mapClear_in (h : lo ≤ k ∧ k < hi) : mapGet d (mapClear m lo hi) k = d := by
  induction m with
  | nil => rfl
  | cons e m ih =>
    obtain ⟨a, w⟩ := e
    simp only [mapClear, List.filter_cons, Bool.or_eq_true, decide_eq_true_eq] at ih ⊢
    split
    · have : a ≠ k := by omega
      simpa [mapGet, this] using ih
    · exact ih

theorem mapGet_mapClear_out (h : k < lo ∨ hi ≤ k) : mapGet d (mapClear m lo hi) k = mapGet d m k := by
  induction m with
  | nil => rfl
  | cons e m ih =>
    obtain ⟨a, w⟩ := e
    simp only [mapClear, List.filter_cons, Bool.or_eq_true, decide_eq_true_eq] at ih ⊢
    split
    · simp only [mapGet, ih]
    · have : a ≠ k := by omega
      simpa [mapGet, this] using ih

end Clear

section Memory
variable (m : Memory)

/-- A cleared byte reads as one that nothing has written. -/
theorem memRead_memClear_in {lo hi a : Nat} (h : lo ≤ a ∧ a < hi) : memRead (memClear m lo hi) a = 0 :=
  mapGet_mapClear_in memDefault m h

theorem memRead_memClear_out {lo hi a : Nat} (h : a < lo ∨ hi ≤ a) : memRead (memClear m lo hi) a = memRead m a :=
  mapGet_mapClear_out memDefault m h

/-- A run of bytes reads as before where the bytes written lie beside it. -/
theorem memReadN_memWriteN_out {a n b : Nat} {bs : List Byte} (h : a + n ≤ b ∨ b + bs.length ≤ a) :
    memReadN (memWriteN m b bs) a n = memReadN m a n := by
  induction n generalizing a with
  | zero => rfl
  | succ n ih =>
    simp only [memReadN]
    rw [memRead_memWriteN_out m b a bs (by omega), ih (by omega)]

end Memory

end Sys2Proof
end

section
/-!
The commands of 06_millefeuille_stack.md on a vault: its accesses (R161, R162, R165, R177), the fence (R179), initialisation (R175),
injection (R185) and the temperature sample (R172). Each is the sealed effect; what an effect does where its command is accepted is
stated here once.
-/
namespace Sys2Proof.Machine

section Commands
variable (s : State) (die v : Nat)

theorem exec_vaultDynamicRequest (agent : Agent) (addr len : Nat) (write : Bool) (data : List Byte) :
    exec (.vaultDynamicRequest agent addr len write data) s =
      .next (s.sealed (effVaultDynamicRequest agent addr len write data s)) := rfl

theorem exec_vaultDynamicServed : exec (.vaultDynamicServed die v) s = .next (s.sealed (effVaultDynamicServed die v s)) := rfl

theorem exec_poisonRewrite : exec (.poisonRewrite die v) s = .next (s.sealed (effPoisonRewrite die v s)) := rfl

theorem exec_scrubRead : exec (.scrubRead die v) s = .next (s.sealed (effScrubRead die v s)) := rfl

theorem exec_vaultFence : exec (.vaultFence die v) s = .next (s.sealed (effVaultFence die v s)) := rfl

theorem exec_vaultFenceWalkDone : exec (.vaultFenceWalkDone die v) s = .next (s.sealed (effVaultFenceWalkDone die v s)) := rfl

theorem exec_vaultInit : exec (.vaultInit die v) s = .next (s.sealed (effVaultInit die v s)) := rfl

theorem exec_vaultInitDone : exec (.vaultInitDone die v) s = .next (s.sealed (effVaultInitDone die v s)) := rfl

theorem exec_vaultInjectArm (channel wire : Nat) :
    exec (.vaultInjectArm die v channel wire) s = .next (s.sealed (effVaultInjectArm die v channel wire s)) := rfl

theorem exec_stackThermSample (temps : List Nat) :
    exec (.stackThermSample die temps) s = .next (s.sealed (effStackThermSample die temps s)) := rfl

end Commands

/-! ## Accesses, rewrites and the patrol -/

section Access
variable (s : State) {die v : Nat}

theorem effVaultDynamicRequest_stack {addr o : Nat} (h : regionOf addr = .stack die o) (agent : Agent) (len : Nat) (write : Bool)
    (data : List Byte) :
    effVaultDynamicRequest agent addr len write data s =
      s.updVault die (stackLoc (s.share die) o).1 (fun x =>
        { x with waiting := x.waiting ++ [⟨agent, addr, write, len, data.take len⟩] }) := by
  simp only [effVaultDynamicRequest, h]

section Served
variable {r : DynReq} {rest : List DynReq} {u : State} (hwaiting : (s.vault die v).waiting = r :: rest)
  (hfree : s.vaultFree die v = true) (hall : s.vaultsFree die (r.addr % 2 ^ 37) r.len = true)
  (hglz : s.glzHoldsAny die (r.addr % 2 ^ 37) r.len = false)
  (hu : u = s.updVault die v (fun x => { x with waiting := rest }))
include hwaiting hfree hall hglz hu

/-- The oldest access of a vault, a write that nothing holds back, is performed and answered (R161, R203). -/
theorem effVaultDynamicServed_write (hwrite : r.write = true) :
    effVaultDynamicServed die v s =
      (u.stackWrite die (r.addr % 2 ^ 37) r.data false srcDynamic).emit (.done r.agent r.addr) := by
  subst hu
  simp only [effVaultDynamicServed, hwaiting, hfree, hall, hglz, hwrite, Bool.not_true, Bool.or_self, Bool.false_eq_true, if_false,
    if_true]

/-- The oldest access of a vault, a read that nothing holds back, is performed and answered with its bytes (R161, R165, R203). -/
theorem effVaultDynamicServed_read {bs : List Byte} {bad : Bool} {t : State} (hwrite : r.write = false)
    (hread : u.stackRead die (r.addr % 2 ^ 37) r.len srcDynamic = (bs, bad, t)) :
    effVaultDynamicServed die v s = t.emit (.data r.agent r.addr bs bad) := by
  subst hu
  simp only [effVaultDynamicServed, hwaiting, hfree, hall, hglz, hwrite, hread, Bool.not_true, Bool.or_self, Bool.false_eq_true,
    if_false]

end Served

/-- A Q-die rewrites the oldest line that is due on one of its Shelf channels (R345). -/
theorem effPoisonRewrite_channel (hq : isQ die = true) (hv : v < 32) (hup : s.dieUp die = true) :
    effPoisonRewrite die v s = s.shelfPoison (32 * (die - 4) + v) := by
  simp [effPoisonRewrite, hq, hv, hup]

/-- A vault rewrites the oldest block that is due, in all its quarters that are (R165). -/
theorem effPoisonRewrite_block {b : Nat} {bs : List Nat} (hq : isQ die = false) (hdue : (s.vault die v).rewrite = b :: bs)
    (hfree : s.vaultFree die v = true) :
    effPoisonRewrite die v s =
      s.poisonBlock die v (b / 4) (((s.vault die v).rewrite.filter (fun x => x / 4 = b / 4)).map (· % 4)) := by
  simp [effPoisonRewrite, hq, hdue, hfree]

/-- The patrol of an active vault reads its next block and moves on by one (R177). -/
theorem effScrubRead_patrol {block : Nat} {b : BlockRead} {u : State} (hc : isC die = true) (hv : v < 64)
    (hen : s.fbit die (MFS_CTRL.SCRUB_EN.unit v) = true) (hst : s.vState die v = vACTIVE) (hfree : s.vaultFree die v = true)
    (hblock : (s.vault die v).scrub = block) (hread : s.readBlock die v block srcScrub = (b, u)) :
    effScrubRead die v s =
      (u.scrubBack die v block b).updVault die v (fun x => { x with scrub := (block + 1) % 0x1000000 }) := by
  have accepted : ¬ (!isC die || decide (64 ≤ v) || !s.fbit die (MFS_CTRL.SCRUB_EN.unit v) || decide (s.vState die v ≠ vACTIVE) ||
      !s.vaultFree die v) = true := by
    simp [hc, Nat.not_le.mpr hv, hen, hst, hfree]
  unfold effScrubRead
  rw [if_neg accepted, hblock]
  extract_lets nextBlock
  subst nextBlock
  rw [hread]

/-- An uncorrectable block is not written back by the patrol. -/
theorem State.scrubBack_uncorr {block : Nat} {b : BlockRead} (h : b.uncorr.any id = true) : s.scrubBack die v block b = s :=
  if_pos (by simp only [h, Bool.true_or])

/-- A block whose corrected encoding differs from what is stored is written back (R177). -/
theorem State.scrubBack_corrected {block : Nat} {b : BlockRead} (h : b.uncorr.any id = false)
    (hdiffers : encodeBlock (s.isCrumb die v block) (b.bytes.map BitVec.toNat) b.poison ≠ (s.rawBlock die v block).take 144) :
    s.scrubBack die v block b = s.writeBlock die v block b.bytes b.poison :=
  if_neg (by simp only [h, Bool.false_or, decide_eq_true_eq]; exact hdiffers)

end Access

/-! ## Fence, initialisation, injection and temperature -/

section Control
variable (s : State) {die v : Nat}

/-- The fence of an initialised vault begins with a walk of its directory (R179). -/
theorem effVaultFence_walks (hc : isC die = true) (hv : v < 64) (hst : s.vState die v = vACTIVE ∨ s.vState die v = vSELFREF)
    (hwalking : (s.vault die v).walking = false) :
    effVaultFence die v s =
      ((s.fset die (MFS_CTRL.FENCE.unit v) 1).updVault die v (fun x => { x with walking := true })).walkDir die v := by
  have initialised : s.vState die v ≠ vUNINIT ∧ s.vState die v ≠ vFENCED := by
    rcases hst with h | h <;> rw [h] <;> decide
  obtain ⟨huninit, hfenced⟩ := initialised
  exact if_neg (by simp [hc, Nat.not_le.mpr hv, huninit, hfenced, hwalking])

/-- With its directory empty and no request under way, the walk ends: the vault is fenced and the commands of its unit fail with code 0xA
(R179, R211, R539). -/
theorem effVaultFenceWalkDone_fences {t u : State} {cs : List GlzCmd} (hc : isC die = true)
    (hwalking : (s.vault die v).walking = true) (htxns : s.txns = []) (hdir : s.dirOf (.vault die v) = [])
    (ht : t = ((s.updVault die v (fun x => { x with walking := false, refreshing := false, initing := false })).fsets die
      [(MFS_STATUS.STATE.unit v, vFENCED), (MFS_STATUS.DEBT.unit v, 0), (MFS_CTRL.INIT.unit v, 0)]).logErr die 3 0x03 v 0x5 0)
    (hu : u = if t.hasArea die v then t.fset die (GLZ_STATUS.STATE.unit v) 2 else t)
    (hcs : cs = (u.glzUnit die v).cmds ++ (u.glzUnit die v).coming) :
    effVaultFenceWalkDone die v s =
      (cs.foldl (fun x c => x.glzFail die v c 0xA) (u.updGlz die v (fun q => { q with cmds := [], coming := [] }))).wake := by
  subst ht hu hcs
  simp only [effVaultFenceWalkDone, hc, hwalking, htxns, hdir, List.any_nil, Bool.not_true, Bool.or_self, Bool.false_eq_true,
    ne_eq, not_true_eq_false, if_false]

/-- Initialisation is accepted while the vault is not initialised, or is active with the sequencer idle (R175). -/
theorem effVaultInit_accepted (hc : isC die = true) (hv : v < 64) (hup : s.dieUp die = true)
    (hst : s.vState die v = vUNINIT ∨ (s.vState die v = vACTIVE ∧ s.seqState die = seqIDLE)) :
    effVaultInit die v s =
      (s.fset die (MFS_CTRL.INIT.unit v) 1).updVault die v (fun x => { x with initing := true }) := by
  have accepted : ¬ (!isC die || decide (64 ≤ v) || !s.dieUp die) = true := by simp [hc, Nat.not_le.mpr hv, hup]
  simp only [effVaultInit, if_neg accepted]
  exact if_pos (by simpa using hst)

/-- The end of initialisation: the vault's blocks are zero (R175), an armed injection strikes one of them (R185; which one is log entry
54), and the records of the Glaze area are gone (log entries 43 and 54). -/
theorem effVaultInitDone_initing (h : (s.vault die v).initing = true) :
    effVaultInitDone die v s =
      (((if s.fbit die (MFS_INJECT.ARM.unit v) then
          (s.clearVault die v).storeRaw die v (s.fget die (MFS_INJECT.CHANNEL.unit v)) (List.replicate rawBytes 0)
        else s.clearVault die v).clearRecords die v).fsets
          die [(MFS_CTRL.INIT.unit v, 0), (MFS_STATUS.STATE.unit v, vACTIVE)]).updVault die v (fun x => { x with initing := false }) :=
  if_neg (by simp [h])

theorem effVaultInjectArm_arms (hc : isC die = true) (hv : v < 64) (channel wire : Nat) :
    effVaultInjectArm die v channel wire s =
      s.fsets die [(MFS_INJECT.CHANNEL.unit v, channel), (MFS_INJECT.WIRE.unit v, wire), (MFS_INJECT.ARM.unit v, 1)] :=
  if_pos (by simp [hc, hv])

/-- A sample that reads 84 °C or more somewhere doubles the refresh rate, and from 95 °C on it trips (R172, R189). -/
theorem effStackThermSample_hot {temps ts : List Nat} {hot : Nat} {u w : State} (hc : isC die = true) (hup : s.dieUp die = true)
    (hts : ts = (List.range 8).map (fun i => temps.getD i 0 % 256)) (hhot : hot = ts.foldl max 0)
    (hu : u = (s.wr die 0x200 0x110 (BitVec.ofNat 64 (ts.foldr (fun b acc => b + 256 * acc) 0))).fsets die
      [(MFS_DIESTAT.MAX_TEMP, hot), (MFS_DIESTAT.HOT_LAYER, (ts.findIdx? (· = hot)).getD 0)])
    (h84 : 84 ≤ hot) (hw : w = (u.updVault die 0 (fun x => { x with coolSince := 0 })).fset die MFS_DIESTAT.REF2X 1) :
    effStackThermSample die temps s =
      if 95 ≤ hot then (w.fset die MFS_DIESTAT.TRIP 1).raise ⟨2, die, 3, hot⟩ else w := by
  have accepted : ¬ (!isC die || !s.dieUp die) = true := by simp [hc, hup]
  have warm : ¬ hot ≤ 81 := by omega
  simp only [effStackThermSample, if_neg accepted, ← hts, ← hhot, ← hu, if_neg warm, if_pos h84, ← hw]

end Control

/-! ## The memories under the operations of a vault and of a Shelf channel -/

section Stored
variable (s t : State) {die v : Nat}

@[simp] theorem State.sealed_stack : (s.sealed t).stack = t.stack := rfl
@[simp] theorem State.sealed_shelf : (s.sealed t).shelf = t.shelf := rfl
@[simp] theorem State.sealed_slab : (s.sealed t).slab = t.slab := rfl

@[simp] theorem State.clearVault_stack :
    (s.clearVault die v).stack = memClear s.stack (rawKey die v 0 0) (rawKey die v 0 0 + 2 ^ 32) := rfl
@[simp] theorem State.clearVault_shelf : (s.clearVault die v).shelf = s.shelf := rfl
@[simp] theorem State.clearVault_slab : (s.clearVault die v).slab = s.slab := rfl

@[simp] theorem State.clearRecords_stack : (s.clearRecords die v).stack = s.stack := by
  simp only [State.clearRecords]
  split
  · rfl
  · simp
@[simp] theorem State.clearRecords_shelf : (s.clearRecords die v).shelf = s.shelf := by
  simp only [State.clearRecords]
  split
  · rfl
  · simp
@[simp] theorem State.clearRecords_slab : (s.clearRecords die v).slab = s.slab := by
  simp only [State.clearRecords]
  split
  · rfl
  · simp

/-- A stored block is written in its own place, with a wire inverted where an injection strikes it (R185). -/
theorem State.storeRaw_stack (block : Nat) (w : List Nat) :
    ∃ bs : List Byte, bs.length = w.length ∧
      (s.storeRaw die v block w).stack = memWriteN s.stack (rawKey die v block 0) bs := by
  refine ⟨_, ?_, by simp only [State.storeRaw, State.updVault_stack, State.setRaw]; split <;> rfl⟩
  split <;> simp

@[simp] theorem State.storeRaw_shelf (block : Nat) (w : List Nat) : (s.storeRaw die v block w).shelf = s.shelf := by
  simp only [State.storeRaw, State.updVault_shelf, State.setRaw]
  split <;> rfl
@[simp] theorem State.storeRaw_slab (block : Nat) (w : List Nat) : (s.storeRaw die v block w).slab = s.slab := by
  simp only [State.storeRaw, State.updVault_slab, State.setRaw]
  split <;> rfl

end Stored

section Initialised
variable (s : State) {die v : Nat} (h : (s.vault die v).initing = true)
include h

/-- Initialisation leaves the stack with the vault's bytes cleared and, where an injection is armed, one block of the vault written. -/
theorem effVaultInitDone_stack :
    ∃ ch < 8, ∃ bs : List Byte, bs.length ≤ 256 ∧
      (effVaultInitDone die v s).stack =
        memWriteN (memClear s.stack (rawKey die v 0 0) (rawKey die v 0 0 + 2 ^ 32)) (rawKey die v ch 0) bs ∧
      (s.fbit die (MFS_INJECT.ARM.unit v) = false → bs = []) := by
  rw [effVaultInitDone_initing s h, State.updVault_stack, State.fsets_stack, State.clearRecords_stack]
  cases s.fbit die (MFS_INJECT.ARM.unit v) with
  | false => exact ⟨0, by decide, [], by decide, by rw [if_neg Bool.false_ne_true, State.clearVault_stack, memWriteN], fun _ => rfl⟩
  | true =>
    obtain ⟨bs, hlen, hstack⟩ := (s.clearVault die v).storeRaw_stack (die := die) (v := v)
      (s.fget die (MFS_INJECT.CHANNEL.unit v)) (List.replicate rawBytes 0)
    refine ⟨s.fget die (MFS_INJECT.CHANNEL.unit v), bits_lt _ _ _, bs, ?_, ?_, nofun⟩
    · rw [hlen, List.length_replicate]
      decide
    · rw [if_pos rfl, hstack, State.clearVault_stack]

theorem effVaultInitDone_shelf : (effVaultInitDone die v s).shelf = s.shelf := by
  rw [effVaultInitDone_initing s h, State.updVault_shelf, State.fsets_shelf, State.clearRecords_shelf]
  split
  · rw [State.storeRaw_shelf, State.clearVault_shelf]
  · rw [State.clearVault_shelf]

theorem effVaultInitDone_slab : (effVaultInitDone die v s).slab = s.slab := by
  rw [effVaultInitDone_initing s h, State.updVault_slab, State.fsets_slab, State.clearRecords_slab]
  split
  · rw [State.storeRaw_slab, State.clearVault_slab]
  · rw [State.clearVault_slab]

end Initialised

/-- The block that an injection strikes lies within its vault. -/
theorem rawKey_within (die v : Nat) {ch n : Nat} (hch : ch < 8) (hn : n ≤ 256) :
    rawKey die v 0 0 ≤ rawKey die v ch 0 ∧ rawKey die v ch 0 + n ≤ rawKey die v 0 0 + 2 ^ 32 := by
  simp only [rawKey]
  omega

/-- Initialisation keeps the canonical form and every byte outside the vault, and without an injection clears every byte within it. -/
theorem vaultInitDone_memories (s : State) {die v : Nat} (h : (s.vault die v).initing = true) {t : State}
    (ht : t = s.sealed (effVaultInitDone die v s)) :
    (Memory.wf s.stack = true → Memory.wf t.stack = true) ∧
    (∀ a, a < rawKey die v 0 0 ∨ rawKey die v 0 0 + 2 ^ 32 ≤ a → memRead t.stack a = memRead s.stack a) ∧
    (s.fbit die (MFS_INJECT.ARM.unit v) = false →
      ∀ a, rawKey die v 0 0 ≤ a → a < rawKey die v 0 0 + 2 ^ 32 → memRead t.stack a = 0) ∧
    t.shelf = s.shelf ∧ t.slab = s.slab := by
  obtain ⟨ch, hch, bs, hlen, hstack, hunarmed⟩ := effVaultInitDone_stack s h
  obtain ⟨hlo, hhi⟩ := rawKey_within die v hch hlen
  subst ht
  rw [State.sealed_stack, State.sealed_shelf, State.sealed_slab, hstack]
  refine ⟨fun hwf => ?wf, fun a ha => ?other, fun harm a hlo hhi => ?cleared, effVaultInitDone_shelf s h, effVaultInitDone_slab s h⟩
  case wf => exact memWriteN_wf _ _ _ (memClear_wf _ _ _ hwf)
  case other => rw [memRead_memWriteN_out _ _ _ _ (by omega), memRead_memClear_out _ ha]
  case cleared =>
    rw [hunarmed harm]
    exact memRead_memClear_in _ ⟨hlo, hhi⟩

/-- A block's wires read back as they were stored, and the bytes outside them stand. -/
theorem State.setRaw_memory (s : State) (die v block : Nat) (w : List Nat) :
    (Memory.wf s.stack = true → Memory.wf (s.setRaw die v block w).stack = true) ∧
    memReadN (s.setRaw die v block w).stack (rawKey die v block 0) w.length = w.map (BitVec.ofNat 8) ∧
    (∀ a, a < rawKey die v block 0 ∨ rawKey die v block 0 + w.length ≤ a →
      memRead (s.setRaw die v block w).stack a = memRead s.stack a) := by
  have hlen : (w.map (BitVec.ofNat 8)).length = w.length := List.length_map _
  refine ⟨fun hwf => memWriteN_wf _ _ _ hwf, ?_, fun a ha => memRead_memWriteN_out _ _ _ _ (by rwa [hlen])⟩
  rw [← hlen]
  exact memReadN_memWriteN_same _ _ _

/-- A stored line is its data and then the 32 bytes of its check burst (R344). -/
theorem State.shelfStore_shelf (s : State) (ch coff : Nat) (dat : List Byte) (poison : Bool) :
    ∃ chk : List Byte, chk.length = 32 ∧
      (s.shelfStore ch coff dat poison).shelf =
        memWriteN (memWriteN s.shelf (shelfKey ch coff) dat) (shelfKey ch (checkOff coff)) chk := by
  simp only [State.shelfStore]
  exact ⟨_, by simp [burstOf], rfl⟩

/-- The data of a channel lies below its check bursts (R343). -/
theorem shelfKey_data_below_check (ch : Nat) {coff n : Nat} (h : coff + n ≤ 2 ^ 34) :
    shelfKey ch coff + n ≤ shelfKey ch (checkOff coff) := by
  simp only [shelfKey, checkOff]
  omega

/-- A line's bytes read back as they were stored, and the bytes outside them and outside its check burst stand. -/
theorem State.shelfStore_memory (s : State) (ch coff : Nat) (dat : List Byte) (poison : Bool) (h : coff + dat.length ≤ 2 ^ 34) :
    (Memory.wf s.shelf = true → Memory.wf (s.shelfStore ch coff dat poison).shelf = true) ∧
    memReadN (s.shelfStore ch coff dat poison).shelf (shelfKey ch coff) dat.length = dat ∧
    (∀ a, a < shelfKey ch coff ∨ shelfKey ch coff + dat.length ≤ a →
      a < shelfKey ch (checkOff coff) ∨ shelfKey ch (checkOff coff) + 32 ≤ a →
      memRead (s.shelfStore ch coff dat poison).shelf a = memRead s.shelf a) := by
  obtain ⟨chk, hchk, hshelf⟩ := s.shelfStore_shelf ch coff dat poison
  rw [hshelf]
  refine ⟨fun hwf => ?wf, ?back, fun a hdat hburst => ?other⟩
  case wf => exact memWriteN_wf _ _ _ (memWriteN_wf _ _ _ hwf)
  case back =>
    rw [memReadN_memWriteN_out _ (.inl (shelfKey_data_below_check ch h))]
    exact memReadN_memWriteN_same _ _ _
  case other => rw [memRead_memWriteN_out _ _ _ _ (by rwa [hchk]), memRead_memWriteN_out _ _ _ _ hdat]

/-- Settles O59: initialisation clears the range of the vault and may then write one block within it; a block and a line are runs of
bytes written in their places, the check burst of a line above all data. -/
theorem memoryKeepsItsOtherBytes : Obligations.MemoryKeepsItsOtherBytes := by
  refine ⟨fun s t die v hiniting hexec => ?_, State.setRaw_memory, State.shelfStore_memory⟩
  rw [exec_vaultInitDone] at hexec
  exact vaultInitDone_memories s hiniting (Host.Outcome.next.inj hexec).symm

/-- Settles O15: each command is the sealed effect, which takes the access, the rewrite or the block that is next. -/
theorem vaultAccess : Obligations.VaultAccess := by
  intro s die v
  refine ⟨?request, ?served, ?channel, ?block, ?patrol⟩
  case request =>
    intro agent addr len write data o hregion
    rw [exec_vaultDynamicRequest, effVaultDynamicRequest_stack s hregion]
  case served =>
    intro r rest u hwaiting hfree hall hglz hu
    rw [exec_vaultDynamicServed]
    refine ⟨fun hwrite => ?_, fun bs bad t hwrite hread => ?_⟩
    · rw [effVaultDynamicServed_write s hwaiting hfree hall hglz hu hwrite]
    · rw [effVaultDynamicServed_read s hwaiting hfree hall hglz hu hwrite hread]
  case channel =>
    intro hq hv hup
    rw [exec_poisonRewrite, effPoisonRewrite_channel s hq hv hup]
  case block =>
    intro b bs hq hdue hfree
    rw [exec_poisonRewrite, effPoisonRewrite_block s hq hdue hfree]
  case patrol =>
    intro block b u hc hv hen hst hfree hblock hread
    rw [exec_scrubRead, effScrubRead_patrol s hc hv hen hst hfree hblock hread]
    exact ⟨fun hbad => by rw [u.scrubBack_uncorr hbad], fun hgood hdiffers => by rw [u.scrubBack_corrected hgood hdiffers]⟩

/-- Settles O16: each command is accepted, and its effect is the one stated. That the end of initialisation also takes the records of the
Glaze area is the model's choice of log entries 43 and 54. -/
theorem vaultControl : Obligations.VaultControl := by
  intro s die v
  refine ⟨?fence, ?fenced, ?init, ?inited, ?inject, ?therm⟩
  case fence =>
    intro hc hv hst hwalking
    rw [exec_vaultFence, effVaultFence_walks s hc hv hst hwalking]
  case fenced =>
    intro t u cs hc hwalking htxns hdir ht hu hcs
    rw [exec_vaultFenceWalkDone, effVaultFenceWalkDone_fences s hc hwalking htxns hdir ht hu hcs]
  case init =>
    intro hc hv hup hst
    rw [exec_vaultInit, effVaultInit_accepted s hc hv hup hst]
  case inited =>
    intro hiniting harm
    rw [exec_vaultInitDone, effVaultInitDone_initing s hiniting, if_neg (by simp [harm])]
  case inject =>
    intro channel wire hc hv
    rw [exec_vaultInjectArm, effVaultInjectArm_arms s hc hv]
  case therm =>
    intro temps u w ts hot hc hup hts hhot hu h84 hw
    rw [exec_stackThermSample, effStackThermSample_hot s hc hup hts hhot hu h84 hw]
    exact ⟨fun hcool => by rw [if_neg (by omega)], fun htrip => by rw [if_pos htrip]⟩

end Sys2Proof.Machine
end

section
/-!
The commands of a Glaze unit (07_glaze_units.md): the strokes of the eight operations (R196 to R201, R203, R206, R208), the way of a
command through its unit (R190, R206, R214), the Glaze area and its scan (R207, R213), and the apply of a journal key (R210, R217). Each
is the sealed effect; what an effect does where its command is accepted is stated here once.
-/
namespace Sys2Proof.Machine

section Commands
variable (s : State) (die v : Nat)

/-- Each of the eight operations is the sealed stroke of its operation code. -/
theorem exec_glzOp {i : Instr} {gop : Nat}
    (h : (i, gop) ∈ [(.fill die v, 0), (.copy die v, 1), (.accum die v, 2), (.scaleAdd die v, 3), (.optStep die v, 4),
      (.kvAppend die v, 5), (.gatherCompact die v, 6), (.topk die v, 7)]) :
    exec i s = .next (s.sealed (s.glzOp die v gop)) := by
  simp only [List.mem_cons, Prod.mk.injEq, List.not_mem_nil, or_false] at h
  rcases h with ⟨rfl, rfl⟩ | ⟨rfl, rfl⟩ | ⟨rfl, rfl⟩ | ⟨rfl, rfl⟩ | ⟨rfl, rfl⟩ | ⟨rfl, rfl⟩ | ⟨rfl, rfl⟩ | ⟨rfl, rfl⟩ <;> rfl

theorem exec_glazeCommandArrival :
    exec (.glazeCommandArrival die v) s = .next (s.sealed (effGlazeCommandArrival die v s)) := rfl

theorem exec_strokeCommit : exec (.strokeCommit die v) s = .next (s.sealed (effStrokeCommit die v s)) := rfl

theorem exec_glazeCommandComplete :
    exec (.glazeCommandComplete die v) s = .next (s.sealed (effGlazeCommandComplete die v s)) := rfl

theorem exec_glzAreaResume (base size : Nat) :
    exec (.glzAreaResume die v base size) s = .next (s.sealed (s.areaWrite die v base size true false)) := rfl

theorem exec_glzAreaDiscard (base size : Nat) :
    exec (.glzAreaDiscard die v base size) s = .next (s.sealed (s.areaWrite die v base size true true)) := rfl

theorem exec_resumeScanDone : exec (.resumeScanDone die v) s = .next (s.sealed (effResumeScanDone die v s)) := rfl

theorem exec_glzApplyCommit (pkg jid : Nat) :
    exec (.glzApplyCommit die pkg jid) s = .next (s.sealed (s.applyStart die 1 pkg jid)) := rfl

theorem exec_glzApplyDiscard (pkg jid : Nat) :
    exec (.glzApplyDiscard die pkg jid) s = .next (s.sealed (s.applyStart die 2 pkg jid)) := rfl

theorem exec_glzApplyDone : exec (.glzApplyDone die) s = .next (s.sealed (s.glzApplyDone die).applyAll) := rfl

end Commands

/-- A command for a unit is taken where a vault number of a C-die names one. -/
theorem glzUnit_accepted {die v : Nat} (hc : isC die = true) (hv : v < 64) : ¬ (!isC die || decide (64 ≤ v)) = true := by
  simp [hc, Nat.not_le.mpr hv]

/-! ## The stroke of an operation -/

/-- An operation computes the next stroke of the front command where the command is of its kind. -/
theorem State.glzOp_stroke (s : State) {die v : Nat} {c : GlzCmd} (hc : isC die = true) (hv : v < 64)
    (hfront : s.glzFront die v = some c) (hready : c.ready = false) (hstroke : c.stroke < c.strokes) :
    s.glzOp die v c.gop = s.glzStroke die v c := by
  simp only [State.glzOp, if_neg (glzUnit_accepted hc hv), hfront]
  exact if_pos (by simp [hready, hstroke])

section Stroke
variable (s : State) {t : State} {die v : Nat} {c d : GlzCmd} {ws : List GlzWrite} {old : Nat}
  (hsources : (s.glzReads c).flatMap (fun p => c.lacks p.1 p.2) = []) (hcompute : s.glzCompute die v c = (.ok ws old, t))
  (hclean : ws.any (fun w => w.2.2) = false) (hd : d = if c.gop = 6 then { c with total := old } else c)
  (hwrites : t.writeWait die v d.key ws = none) (hrows : t.rowWait die (t.rowPieces die v d) = none)
include hsources hcompute hclean hd hwrites hrows

/-- A staged stroke keeps its bytes for its staging records (R208). -/
theorem State.glzStroke_staged (hkey : d.key ≠ none) :
    s.glzStroke die v c =
      t.setFront die v { d with ready := true, writes := ws.map (fun w => (w.1, w.2.1)), old := old } := by
  simp only [State.glzStroke, hsources, hcompute, ← hd, hclean, hwrites, hrows, ne_eq, not_true_eq_false, decide_false,
    Bool.false_and, Bool.false_eq_true, if_false, hkey, not_false_eq_true, if_true]

section Unstaged
variable (hkey : d.key = none) (hclash : (t.rowPieces die v d).any (fun r => t.stageClash die v none r.1 rowPiece) = false)
include hkey hclash

/-- A shadowed stroke takes its target lines at their home and holds them for the commit (R203, R206). -/
theorem State.glzStroke_shadowed (hshadow : glzShadowed d.gop = true) :
    s.glzStroke die v c =
      (ws.foldl (fun (u : State) w => u.engSnoop (engOf die) true (linesOf w.1 w.2.1.length)) t).setFront die v
        { d with ready := true, writes := ws.map (fun w => (w.1, w.2.1)), old := old, held := true } := by
  rw [hkey] at hwrites
  simp only [State.glzStroke, hsources, hcompute, ← hd, hkey, hclean, hwrites, hrows, hclash, hshadow, ne_eq,
    not_true_eq_false, decide_false, Bool.false_and, Bool.false_eq_true, if_false, if_true]

/-- A direct stroke writes its target, with the 16 KiB pieces of a COPY moved row by row (R174, R203; log entry 43). -/
theorem State.glzStroke_direct {u : State} (hdirect : glzShadowed d.gop = false) (hput : t.glzWrites die v none ws = (u, none)) :
    s.glzStroke die v c =
      (u.rowCopies die v (t.rowPieces die v d)).setFront die v
        { d with ready := true, writes := ws.map (fun w => (w.1, w.2.1)), old := old } := by
  rw [hkey] at hwrites
  simp only [State.glzStroke, hsources, hcompute, ← hd, hkey, hclean, hwrites, hrows, hclash, hdirect, hput, ne_eq,
    not_true_eq_false, decide_false, Bool.false_and, Bool.false_eq_true, if_false]

end Unstaged
end Stroke

/-! ## The way of a command through its unit -/

section Progress
variable (s : State) {die v : Nat}

/-- The oldest command of each port arrives, in the order of the ports, while no scan runs (R190, R204). -/
theorem effGlazeCommandArrival_ports (hc : isC die = true) (hv : v < 64) (hup : s.dieUp die = true)
    (hscan : s.resuming die v = false) :
    effGlazeCommandArrival die v s = (List.range 5).foldl (fun (t : State) p => t.glzPort die v p) s :=
  if_neg (by simp [hc, Nat.not_le.mpr hv, hup, hscan])

/-- A command that passes the checks of its unit gets a progress record (R206). -/
theorem State.glzAccept_record {c : GlzCmd} (h : s.glzCheck die v c = none) :
    s.glzAccept die v c = s.updGlz die v (fun x => { x with cmds := x.cmds ++ [c] }) := by
  simp only [State.glzAccept, h]

/-- With room in the input queue, the oldest command of a port goes to the checks of the unit (R190, R204). -/
theorem State.glzPort_oldest {p : Nat} {c : GlzCmd} {rest : List GlzCmd} (hroom : (s.glzUnit die v).cmds.length < 64)
    (hfirst : takeFirst (fun c => decide (c.port = p)) (s.glzUnit die v).coming = some (c, rest)) :
    s.glzPort die v p = (s.updGlz die v (fun x => { x with coming := rest })).glzAccept die v c := by
  simp only [State.glzPort, if_neg (Nat.not_le.mpr hroom), hfirst]

section Front
variable {c : GlzCmd} (hc : isC die = true) (hv : v < 64) (hfront : s.glzFront die v = some c)
include hc hv hfront

section Commit
variable {d : GlzCmd} (hready : c.ready = true) (hgop : c.gop ≠ 8) (hfree : s.vaultFree die v = true)
  (hd : d = { c with stroke := c.stroke + 1, ready := false, writes := [], held := false })
include hready hgop hfree hd

/-- The commit of a direct stroke, whose bytes stand in the target, writes its number (R206). -/
theorem effStrokeCommit_direct (hkey : c.key = none) (hdirect : glzShadowed c.gop = false) :
    effStrokeCommit die v s = s.setFront die v d := by
  have direct : (decide (c.key = none) && !glzShadowed c.gop) = true := by simp [hkey, hdirect]
  simp only [effStrokeCommit, if_neg (glzUnit_accepted hc hv), hfront, hgop, hready, hfree, if_pos direct, ← hd, decide_false, ne_eq,
    not_true_eq_false, Bool.not_true, Bool.false_and, Bool.or_self, Bool.false_eq_true, if_false]

/-- The commit of a staged or shadowed stroke writes the bytes that it kept, and then its number (R203, R206, R208). -/
theorem effStrokeCommit_kept {t : State} (hkept : c.key ≠ none ∨ glzShadowed c.gop = true)
    (hlines : c.held = true ∨ s.writeWait die v c.key (cleanWrites c.writes) = none)
    (hput : s.glzWrites die v c.key (cleanWrites c.writes) = (t, none)) :
    effStrokeCommit die v s = t.setFront die v d := by
  have kept : ¬ (decide (c.key = none) && !glzShadowed c.gop) = true := by
    rcases hkept with h | h <;> simp [h]
  have lines : (if c.held = true then none else s.writeWait die v c.key (cleanWrites c.writes)) = none := by
    rcases hlines with h | h <;> simp [h]
  simp only [effStrokeCommit, if_neg (glzUnit_accepted hc hv), hfront, hgop, hready, hfree, if_neg kept, lines, hput, ← hd,
    decide_false, ne_eq, not_true_eq_false, Bool.not_true, Bool.false_and, Bool.or_self, Bool.false_eq_true, if_false]

end Commit

/-- After the last stroke the record is freed, the command counted and its source told (R203, R206, R214). -/
theorem effGlazeCommandComplete_last (hready : c.ready = false) (hlast : c.strokes ≤ c.stroke) :
    effGlazeCommandComplete die v s =
      (((s.dropFront die v).finc die (GLZ_CNT.CMD_CNT.unit v)).pmuEvent die 0x115 1).glzEnd c none c.old := by
  simp only [effGlazeCommandComplete, if_neg (glzUnit_accepted hc hv), hfront]
  exact if_neg (by simp [hready, hlast])

end Front
end Progress

/-! ## The Glaze area and its scan -/

section Area
variable (s : State) {die v base size : Nat} {discard : Bool} {u w : State} (hc : isC die = true) (hv : v < 64)
  (hheld : s.fget die (GLZ_STATUS.HELD.unit v) = 0) (hstage : s.fget die (GLZ_STATUS.STAGE_USED.unit v) = 0)
  (hmin : 2 ≤ size) (hmax : size ≤ 256) (hend : base + size ≤ 2048)
  (hu : u = (s.updVault die v (fun x => { x with dirOn := false })).fsets die [(GLZ_AREA.VALID.unit v, 1),
    (GLZ_AREA.MODE.unit v, b2n discard), (GLZ_AREA.SIZE.unit v, size), (GLZ_AREA.BASE.unit v, base)])
  (hw : w = u.fset die (GLZ_STATUS.STATE.unit v) (if u.vState die v = vFENCED then 2 else 1))
include hc hv hheld hstage hmin hmax hend hu hw

/-- VALID written 1 with a legal range while no record is counted: the area is recorded; its records are dropped where MODE asks for
it or where the range is a new one (log entry 43), and are scanned otherwise (R207, R213). -/
theorem State.areaWrite_valid :
    s.areaWrite die v base size true discard =
      if discard || !decide ((w.glzUnit die v).area = some (base, size)) then
        ({ w with glz := mapSet w.glz (vaultKey die v) { w.glzUnit die v with area := some (base, size) } } : State).updGlz die v
          (fun x => { x with cmds := [], staging := [], apply := [], kept := [], keptStage := [] })
      else
        ({ w with glz := mapSet w.glz (vaultKey die v) { w.glzUnit die v with area := some (base, size) } } : State).fset die
          (GLZ_STATUS.RESUMING.unit v) 1 := by
  subst hw hu
  exact if_neg (by simp [hc, hv, hheld, hstage, Nat.not_lt.mpr hmin, hmax, hend])

end Area

/-- The end of a scan: the surviving commands continue before any new one and are counted, the staged ones fail with code 0xC, and the
staging records stay (R207, R211, R214). -/
theorem effResumeScanDone_ends (s : State) {die v : Nat} {u : State} {cs stay : List GlzCmd} (hc : isC die = true) (hv : v < 64)
    (hup : s.dieUp die = true) (hscan : s.resuming die v = true) (hawake : s.vState die v ≠ vSELFREF)
    (hu : u = s.fset die (GLZ_STATUS.RESUMING.unit v) 0) (hcs : cs = (u.glzUnit die v).kept)
    (hstay : stay = (cs.filter (fun c => c.key = none)).map (fun c => { c with asked := [] })) :
    effResumeScanDone die v s =
      (cs.filter (fun c => c.key ≠ none)).foldl (fun t c => t.glzFail die v c 0xC)
        ((u.updGlz die v (fun x => { x with
          cmds := stay ++ x.cmds, staging := x.keptStage ++ x.staging, kept := [], keptStage := [] })).fadd die
          (GLZ_CNT.RESUME_CNT.unit v) stay.length) := by
  subst hstay hcs hu
  exact if_neg (by simp [hc, Nat.not_le.mpr hv, hup, hscan, hawake])

/-! ## The apply of a journal key -/

section Apply
variable (s : State) {die : Nat} (hc : isC die = true)
include hc

/-- An apply begins on a die that has none under way (R217). -/
theorem State.applyStart_idle (hbusy : s.fbit die GLZ_APPLY.BUSY = false) (op pkg jid : Nat) :
    s.applyStart die op pkg jid = s.applyBegin die op pkg jid :=
  if_neg (by simp [hc, hbusy])

/-- Once every unit has finished, BUSY clears and RESULT says whether a vault of the die is fenced (R217). -/
theorem State.glzApplyDone_finished {u : State} (hup : s.dieUp die = true) (hbusy : s.fbit die GLZ_APPLY.BUSY = true)
    (hunits : s.applyUnits die = (u, false)) :
    s.glzApplyDone die = u.fsets die [(GLZ_APPLY.BUSY, 0),
      (GLZ_APPLY.RESULT, b2n ((List.range 64).any (fun v => s.vState die v = vFENCED)))] := by
  simp only [State.glzApplyDone, hc, hup, hbusy, hunits, Bool.not_true, Bool.or_self, Bool.false_eq_true, if_false]

end Apply

/-- Settles O17: each operation is the sealed stroke of the front command; a staged stroke keeps its bytes, and an unstaged one is
shadowed or direct by its operation. The rows that a direct COPY moves (R174) follow log entry 43. -/
theorem glazeOperations : Obligations.GlazeOperations := by
  intro s t die v c d ws old i hc hv hfront hready hstroke hi hsources hcompute hclean hd hwrites hrows
  have hkey : d.key = c.key := by rw [hd]; split <;> rfl
  have hgop : d.gop = c.gop := by rw [hd]; split <;> rfl
  rw [exec_glzOp s die v hi, s.glzOp_stroke hc hv hfront hready hstroke]
  rw [← hkey] at hwrites ⊢
  rw [← hgop]
  refine ⟨fun hstaged => ?staged, fun hunstaged hclash => ⟨fun hshadow => ?shadowed, fun hdirect u hput => ?direct⟩⟩
  case staged => rw [s.glzStroke_staged hsources hcompute hclean hd hwrites hrows hstaged]
  case shadowed => rw [s.glzStroke_shadowed hsources hcompute hclean hd hwrites hrows hunstaged hclash hshadow]
  case direct => rw [s.glzStroke_direct hsources hcompute hclean hd hwrites hrows hunstaged hclash hdirect hput]

/-- Settles O18: each command is the sealed effect on the unit's queue or on its front command. -/
theorem glazeProgress : Obligations.GlazeProgress := by
  intro s die v
  refine ⟨?arrival, ?port, ?commit, ?complete⟩
  case arrival =>
    intro hc hv hup hscan
    rw [exec_glazeCommandArrival, effGlazeCommandArrival_ports s hc hv hup hscan]
  case port =>
    intro p c rest u hroom hfirst hu hcheck
    rw [s.glzPort_oldest hroom hfirst, ← hu, u.glzAccept_record hcheck]
  case commit =>
    intro c d hc hv hfront hready hgop hfree hd
    rw [exec_strokeCommit]
    refine ⟨fun hkey hdirect => ?_, fun t hkept hlines hput => ?_⟩
    · rw [effStrokeCommit_direct s hc hv hfront hready hgop hfree hd hkey hdirect]
    · rw [effStrokeCommit_kept s hc hv hfront hready hgop hfree hd hkept hlines hput]
  case complete =>
    intro c hc hv hfront hready hlast
    rw [exec_glazeCommandComplete, effGlazeCommandComplete_last s hc hv hfront hready hlast]

/-- Settles O19: each command is accepted, and its effect is the one stated; a resumed area is the one that the unit has recorded. -/
theorem glazeAreaAndApply : Obligations.GlazeAreaAndApply := by
  intro s die v
  refine ⟨?area, ?scan, ?start, ?done⟩
  case area =>
    intro base size u w hc hv hheld hstage hmin hmax hend discard hu hw
    have written := s.areaWrite_valid hc hv hheld hstage hmin hmax hend hu hw
    refine ⟨?discarded, ?resumed⟩
    case discarded =>
      rintro rfl
      rw [exec_glzAreaDiscard, written, Bool.true_or, if_pos rfl]
    case resumed =>
      rintro rfl hsame
      rw [exec_glzAreaResume, written, if_neg (by simp [hsame])]
  case scan =>
    intro u hc hv hup hscan hawake hu cs stay hcs hstay
    rw [exec_resumeScanDone, effResumeScanDone_ends s hc hv hup hscan hawake hu hcs hstay]
  case start =>
    intro pkg jid hc hbusy
    rw [exec_glzApplyCommit, exec_glzApplyDiscard, s.applyStart_idle hc hbusy, s.applyStart_idle hc hbusy]
    exact ⟨rfl, rfl⟩
  case done =>
    intro hc hup hbusy u hunits
    rw [exec_glzApplyDone, s.glzApplyDone_finished hc hup hbusy hunits]

end Sys2Proof.Machine
end

section
/-!
The way of a request to its home (08_address_map.md R228, R232, R235; R453 for companions), which serves it by R281 to R283: each of the
five commands is the sealed `siteReq`, which gives the line to the home, or takes a companion's address through the IOMMU first.
-/
namespace Sys2Proof.Machine

/-- A request that no message on its way stands for, as it reaches its home: its data, and the attribute of its issuer's table (R228). -/
def State.freshReq (s : State) (k : MsgKind) (agent line : Nat) (d : List Byte) (mk : Nat) (p : Bool) : Msg :=
  s.withClass (agentTable agent) { mkMsg k agent line with data := d, mask := mk, poison := p }

/-- The five requests, each with its kind, whether it asks the IOMMU for write permission, and the data, mask and poison it carries. -/
def homeRequests (agent line : Nat) (data : List Byte) (mask : Nat) (poison : Bool) :
    List (Instr × MsgKind × Bool × List Byte × Nat × Bool) :=
  [(.rdS agent line, .rdS, false, List.replicate 64 0, 0, false),
   (.rdE agent line, .rdE, true, List.replicate 64 0, 0, false),
   (.rdNc agent line, .rdNc, false, List.replicate 64 0, 0, false),
   (.wrInv agent line data mask poison, .wrInv, true, data, mask, poison),
   (.wrWt agent line data mask poison, .wrWt, true, data, mask, poison)]

/-! ## What a home takes -/

section Home
variable (s : State) {k : MsgKind} {agent line mask : Nat} {data : List Byte} {poison : Bool}

theorem State.takeReq_fresh (hnone : s.anyMsg k agent line = none) (data : List Byte) (mask : Nat) (poison : Bool) :
    s.takeReq k agent line data mask poison =
      s.recvReq (s.freshReq k agent line ((data ++ List.replicate 64 0).take 64) (mask % 2 ^ 64) poison) := by
  simp [State.takeReq, State.request, State.freshReq, hnone]

/-- A read carries no data, which stands as zeros under an empty mask. -/
theorem State.takeReq_freshRead (hnone : s.anyMsg k agent line = none) :
    s.takeReq k agent line [] 0 false = s.recvReq (s.freshReq k agent line (List.replicate 64 0) 0 false) := by
  simp [s.takeReq_fresh hnone]

/-- A write carries its line and mask as given. -/
theorem State.takeReq_freshWrite (hlen : data.length = 64) (hmask : mask < 2 ^ 64) (hnone : s.anyMsg k agent line = none) :
    s.takeReq k agent line data mask poison = s.recvReq (s.freshReq k agent line data mask poison) := by
  rw [s.takeReq_fresh hnone, List.take_left' hlen, Nat.mod_eq_of_lt hmask]

/-- A request on its way that nothing holds back is taken up as it stands (R279, R280). -/
theorem State.takeReq_onItsWay {m : Msg} {t : State} (hfree : s.heldBack k agent line = false)
    (hmsg : s.anyMsg k agent line = some (m, t)) (data : List Byte) (mask : Nat) (poison : Bool) :
    s.takeReq k agent line data mask poison = t.recvReq m := by
  simp [State.takeReq, State.request, State.takeMsg, hfree, hmsg]

/-- Where no stream VWR awaits its invalidation, WR_INV is a request as the others are (R128). -/
theorem effWrInv_noStream (h : s.vwrInv = []) :
    effWrInv agent line data mask poison s = s.takeReq .wrInv agent line data mask poison := by
  simp [effWrInv, h]

end Home

/-! ## The way to the home -/

section Way
variable (s : State) {agent line : Nat} {write : Bool} {m : FabMsg} {f : State → Nat → State}

/-- The request of any agent but a companion names its line. -/
theorem State.siteReq_direct (h : agent < 7 ∨ 8 < agent) : s.siteReq agent line write m f = f s line := by
  simp [State.siteReq, h]

theorem companion_notDirect (h : agent = 7 ∨ agent = 8) : (decide (agent < 7) || decide (8 < agent)) = false := by
  rcases h with rfl | rfl <;> rfl

section Companion
variable (hcomp : agent = 7 ∨ agent = 8) (hadm : s.admitted (agent - 7) = true)
  (hproto : s.fbit (4 + (agent - 7)) UCI_STATUS.PROTO = true)
include hcomp hadm hproto

/-- A companion's request goes to the line of its translated address (R232, R453). -/
theorem State.siteReq_translated {a : Nat} {t : State} (haddr : s.siteAddr (agent - 7) (line * 64) write = (some (some a), t))
    (hlocal : a < 2 ^ 44) : s.siteReq agent line write m f = f t (a / 64) := by
  simp only [State.siteReq, companion_notDirect hcomp, hadm, hproto, haddr, if_pos hlocal]
  rfl

/-- A companion's request that does not translate is answered with completer abort (R235). -/
theorem State.siteReq_untranslated {t : State} (haddr : s.siteAddr (agent - 7) (line * 64) write = (some none, t)) :
    s.siteReq agent line write m f = t.emit (.abort agent (line * 64)) := by
  simp [State.siteReq, companion_notDirect hcomp, hadm, hproto, haddr]

end Companion
end Way

/-! ## The commands -/

section Commands
variable (s : State) {agent line : Nat}

theorem exec_rdS : exec (.rdS agent line) s =
    .next (s.sealed (s.siteReq agent line false (siteRead agent line) (fun t l => effRdS agent l t))) := rfl

theorem exec_rdE : exec (.rdE agent line) s =
    .next (s.sealed (s.siteReq agent line true (siteRead agent line) (fun t l => effRdE agent l t))) := rfl

theorem exec_rdNc : exec (.rdNc agent line) s =
    .next (s.sealed (s.siteReq agent line false (siteRead agent line) (fun t l => effRdNc agent l t))) := rfl

variable {data : List Byte} {mask : Nat} {poison : Bool}

theorem exec_wrInv : exec (.wrInv agent line data mask poison) s =
    .next (s.sealed (s.siteReq agent line true (siteWrite agent line data mask)
      (fun t l => effWrInv agent l data mask poison t))) := rfl

theorem exec_wrWt : exec (.wrWt agent line data mask poison) s =
    .next (s.sealed (s.siteReq agent line true (siteWrite agent line data mask)
      (fun t l => effWrWt agent l data mask poison t))) := rfl

/-- What the five have in common: each goes its way to the home, where with no message of it on its way the request is taken up. -/
theorem exec_homeRequest (hlen : data.length = 64) (hmask : mask < 2 ^ 64) {i : Instr} {k : MsgKind} {write : Bool} {d : List Byte}
    {mk : Nat} {p : Bool} (h : (i, k, write, d, mk, p) ∈ homeRequests agent line data mask poison) :
    ∃ (m : FabMsg) (f : State → Nat → State),
      (∀ s, exec i s = .next (s.sealed (s.siteReq agent line write m f))) ∧
      ∀ (t : State) (l : Nat), t.vwrInv = [] → t.anyMsg k agent l = none →
        f t l = t.recvReq (t.freshReq k agent l d mk p) := by
  simp only [homeRequests, List.mem_cons, Prod.mk.injEq, List.not_mem_nil, or_false] at h
  rcases h with ⟨rfl, rfl, rfl, rfl, rfl, rfl⟩ | ⟨rfl, rfl, rfl, rfl, rfl, rfl⟩ | ⟨rfl, rfl, rfl, rfl, rfl, rfl⟩ |
    ⟨rfl, rfl, rfl, rfl, rfl, rfl⟩ | ⟨rfl, rfl, rfl, rfl, rfl, rfl⟩
  · exact ⟨_, _, fun s => exec_rdS s, fun t _ _ hnone => t.takeReq_freshRead hnone⟩
  · exact ⟨_, _, fun s => exec_rdE s, fun t _ _ hnone => t.takeReq_freshRead hnone⟩
  · exact ⟨_, _, fun s => exec_rdNc s, fun t _ _ hnone => t.takeReq_freshRead hnone⟩
  · exact ⟨_, _, fun s => exec_wrInv s, fun t _ hv hnone =>
      (effWrInv_noStream t hv).trans (t.takeReq_freshWrite hlen hmask hnone)⟩
  · exact ⟨_, _, fun s => exec_wrWt s, fun t _ _ hnone => t.takeReq_freshWrite hlen hmask hnone⟩

end Commands

/-- Settles O20: the five requests share one way to the home, and what they carry there is what the command gives. -/
theorem requestsReachTheirHome : Obligations.RequestsReachTheirHome := by
  intro s agent line data mask poison hlen hmask
  refine ⟨fun i k write d mk p hmem => ?fresh, fun k m t _ hfree hmsg => s.takeReq_onItsWay hfree hmsg data mask poison⟩
  obtain ⟨m, f, hexec, htakes⟩ := exec_homeRequest hlen hmask hmem
  rw [hexec]
  refine ⟨?direct, ?translated, ?untranslated⟩
  case direct =>
    intro hagent hv hnone
    rw [s.siteReq_direct hagent, htakes s line hv hnone, State.freshReq]
  case translated =>
    intro a t hcomp hadm hproto haddr hlocal hv hnone
    rw [s.siteReq_translated hcomp hadm hproto haddr hlocal, htakes t (a / 64) hv hnone, State.freshReq]
  case untranslated =>
    intro t hcomp hadm hproto haddr
    rw [s.siteReq_untranslated hcomp hadm hproto haddr]

end Sys2Proof.Machine
end

section
/-!
The commit of the region attribute tables and the invalidation of translations (08_address_map.md R228, R234), and the replay and link-up of
the links (09_swell_and_jetty.md R244, R245, R248, R250, R264).
-/
namespace Sys2Proof.Machine

/-! ## The commands -/

section Commands
variable (s : State)

theorem exec_ratCommit : exec .ratCommit s = .next (s.sealed (effRatCommit s)) := rfl

theorem exec_ratCommitDone : exec .ratCommitDone s = .next (s.sealed (effRatCommitDone s)) := rfl

theorem exec_iommuInvalidation (q : Nat) : exec (.iommuInvalidation q) s = .next (s.sealed (effIommuInvalidation q s)) := rfl

theorem exec_dynamicFlitNak (die router port cls word : Nat) (again : Bool) :
    exec (.dynamicFlitNak die router port cls word again) s =
      .next (s.sealed (effDynamicFlitNak die router port cls word again s)) := rfl

theorem exec_jettyFlitNak (a b sub word : Nat) (again : Bool) :
    exec (.jettyFlitNak a b sub word again) s = .next (s.sealed (effJettyFlitNak a b sub word again s)) := rfl

theorem exec_linkUpReceived (die peer : Nat) :
    exec (.linkUpReceived die peer) s = .next (s.sealed (effLinkUpReceived die peer s)) := rfl

theorem exec_jtyRejoin (die link : Nat) : exec (.jtyRejoin die link) s = .next (s.sealed (effJtyRejoin die link s)) := rfl

end Commands

/-! ## Tables and translations -/

section Tables
variable (s : State)

theorem effRatCommit_idle (h : s.fbit shDie PKG_RAT_CTRL.BUSY = false) :
    effRatCommit s = ({ s with rat := mapSet s.rat ratCommitted s.ratStaged } : State).fset shDie PKG_RAT_CTRL.BUSY 1 := by
  simp [effRatCommit, h]

/-- The running dies take the table together, at the end of the commit. -/
theorem effRatCommitDone_busy (h : s.fbit shDie PKG_RAT_CTRL.BUSY = true) :
    effRatCommitDone s = (foldN 6 (fun t d => if t.dieUp d then t.takeRat d else t) s).fset shDie PKG_RAT_CTRL.BUSY 0 := by
  simp [effRatCommitDone, h]

/-- Every translation of the Q-die is forgotten, and an invalidation at the head of its command queue is then done (R234). -/
theorem effIommuInvalidation_running {q : Nat} (hq : isQ q = true) (hup : s.dieUp q = true) {t : State}
    (ht : t = ({ s with iommuGen := mapSet s.iommuGen q (s.iommuAt q + 1) } : State).updIommu q (fun x => { x with kept := [] })) :
    effIommuInvalidation q s = if t.iomHeadInv q then
        (t.fset q IOM_CQHT.HEAD ((t.fget q IOM_CQHT.HEAD + 1) % 2 ^ (t.fget q IOM_CQB.LOG2SZ + 1))).iomRun q
      else t := by
  simp [effIommuInvalidation, hq, hup, ← ht]

end Tables

/-! ## Hop replay (R244, R245) -/

section Hop
variable (s : State) {die router port key n : Nat} {again : Bool} {u : State}
  (hc : isC die = true) (hup : s.dieUp die = true) (hlink : allLinks.contains (router, port) = true)
  (hlinkUp : s.linkDown die (router, port) = false) (hkey : key = die * 256 + router * 4 + port) (hn : n = s.nakCount key again)
  (hu : u = ((s.setNak key n).finc die SWL_CNT.REPLAY_CNT).pmuEvent die 0x10C 1)
include hc hup hlink hlinkUp hkey hn hu

/-- A NAKed flit is counted, and captured at the router that received it. -/
theorem effDynamicFlitNak_replayed (h : n < 16) (cls word : Nat) :
    effDynamicFlitNak die router port cls word again s =
      u.swlCapture die false (nextRouter router port) ((port + 2) % 4) word cls := by
  subst hkey hn hu
  simp only [effDynamicFlitNak, hc, hup, hlink, hlinkUp, if_pos h]
  rfl

/-- The sixteenth NAK in a row takes the direction down, which is then what is captured and recorded. -/
theorem effDynamicFlitNak_takesDown (h : 16 ≤ n) (cls word : Nat) :
    effDynamicFlitNak die router port cls word again s =
      (((u.wr die 0x280 (0x020 + 8 * (router / 16)) (setBits (u.rd die 0x280 (0x020 + 8 * (router / 16)))
        (router % 16 * 4 + port) (router % 16 * 4 + port) 1)).swlCapture die true router port word cls).finc die
        SWL_CNT.REROUTE_CNT).logErr die 3 0x05 router 0x2 port := by
  subst hkey hn hu
  simp only [effDynamicFlitNak, hc, hup, hlink, hlinkUp, if_neg (Nat.not_lt.mpr h)]
  rfl

end Hop

/-! ## Replay on a die link (R248) -/

section Jetty
variable (s : State) {a b sub key n : Nat} {again : Bool} {u : State}
  (hblks : linkBlks a b ≠ []) (hstate : s.linkState a b = jUP) (hupA : s.dieUp a = true) (hupB : s.dieUp b = true)
  (hkey : key = 2 ^ 16 + (a * 8 + b) * 8 + sub % 8) (hn : n = s.nakCount key again)
  (hu : u = (s.setNak key n).linkAll a b (fun t d k _ => t.finc d (JTY_CNT.REPLAY_CNT.inBlk k)))
include hblks hstate hupA hupB hkey hn hu

/-- A NAKed flit is counted and captured in every block of the link. -/
theorem effJettyFlitNak_replayed (h : n < 32) (word : Nat) :
    effJettyFlitNak a b sub word again s =
      u.linkAll a b (fun t d k _ => t.jtyCapture d k false (decide (d = b)) sub word) := by
  subst hkey hn hu
  simp only [effJettyFlitNak, hblks, hstate, hupA, hupB, if_pos h]
  rfl

/-- The thirty-second NAK in a row fails the link, and both dies record it. -/
theorem effJettyFlitNak_fails {q k : Nat} (h : 32 ≤ n) (hhome : linkHome a b = some (q, k)) (word : Nat) :
    effJettyFlitNak a b sub word again s =
      ((u.linkAll a b (fun t d k _ =>
        (t.jtyCapture d k true (decide (d = b)) sub word).fset d (JTY_STATUS.STATE.inBlk k) jFAILED)).logErr a 3 0x06
        (k - 0x290) 0x1 b).logErr b 3 0x06 (k - 0x290) 0x1 a := by
  subst hkey hn hu
  simp only [effJettyFlitNak, hblks, hstate, hupA, hupB, if_neg (Nat.not_lt.mpr h), hhome]
  rfl

end Jetty

/-! ## Link-up (R250, R264) -/

section LinkUp
variable (s : State) {die peer k : Nat} {u : State}

section Aligning
variable (hblk : jtyBlk die peer = some k) (hstate : s.linkState die peer = jALIGNING) (hblks : linkBlks die peer ≠ [])
  (hup : s.dieUp die = true) (hpeer : s.dieUp peer = true)
  (hu : u = s.fsets die [(JTY_STATUS.PEER_LEVEL.inBlk k, (Config.revlevel peer).toNat), (JTY_STATUS.PEER_DIE.inBlk k, peer)])
include hblk hstate hblks hup hpeer hu

/-- The first end to receive the other's LINK_UP notes it. -/
theorem effLinkUpReceived_first (h : u.links.ups.contains (peer, die) = false) :
    effLinkUpReceived die peer s =
      { u with links := { u.links with ups := (die, peer) :: u.links.ups.filter (· ≠ (die, peer)) } } := by
  simp only [effLinkUpReceived, hblk, hstate, hblks, hup, hpeer, ← hu, h]
  rfl

/-- With the second, the link is up at the rate of the end that drives it (R251). -/
theorem effLinkUpReceived_second (h : u.links.ups.contains (peer, die) = true) {d j : Nat} (hrate : rateEnd die peer = some (d, j)) :
    effLinkUpReceived die peer s =
      (({ u with links := { u.links with ups := u.links.ups.filter (fun x => x ≠ (peer, die) && x ≠ (die, peer)) } } :
        State).linkAll die peer (fun t e k _ => t.fsets e [(JTY_STATUS.STATE.inBlk k, jUP),
          (JTY_STATUS.RATE.inBlk k, u.fget d (JTY_CTRL.RATE.inBlk j)), (JTY_CTRL.REJOIN.inBlk k, 0)])).linkReturned die peer := by
  simp only [effLinkUpReceived, hblk, hstate, hblks, hup, hpeer, ← hu, h, hrate]
  rfl

end Aligning

theorem effJtyRejoin_failed {link p : Nat} (hp : linkPeer die link = some p) (hc : isC die = true) (hup : s.dieUp die = true)
    (hlink : link < 3) (hstate : s.linkState die p = jFAILED) :
    effJtyRejoin die link s = (s.alignLink die p).fset die (JTY_CTRL.REJOIN.inBlk (0x290 + link)) 1 := by
  simp [effJtyRejoin, hp, hc, hup, hlink, hstate]

end LinkUp

/-- Settles O25: each command is the sealed effect, which takes the branch that its hypotheses name. That an invalidation
forgets every translation (log entry 59, PRESUMED), that all running dies take a table together (48, DEDUCED), and that a NAK is counted
with no replay buffer (57, DESIGN CHOICE) are not stated by the cited rules. -/
theorem tablesAndLinks : Obligations.TablesAndLinks := by
  intro s
  refine ⟨?commit, ?commitDone, ?invalidation, ?hop, ?jetty, ?linkUp, ?rejoin⟩
  case commit =>
    intro hidle
    rw [exec_ratCommit, effRatCommit_idle s hidle]
  case commitDone =>
    intro hbusy
    rw [exec_ratCommitDone, effRatCommitDone_busy s hbusy]
  case invalidation =>
    intro q hq hup t ht
    rw [exec_iommuInvalidation, effIommuInvalidation_running s hq hup ht]
    exact ⟨fun hnot => by rw [if_neg (by simp [hnot])], fun hhead => by rw [if_pos hhead]⟩
  case hop =>
    intro die router port cls word again key n u hc hup hlink hlinkUp hkey hn hu
    rw [exec_dynamicFlitNak]
    refine ⟨fun h => ?_, fun h => ?_⟩
    · rw [effDynamicFlitNak_replayed s hc hup hlink hlinkUp hkey hn hu h]
    · rw [effDynamicFlitNak_takesDown s hc hup hlink hlinkUp hkey hn hu h]
  case jetty =>
    intro a b sub word again key n u hblks hstate hupA hupB hkey hn hu
    rw [exec_jettyFlitNak]
    refine ⟨fun h => ?_, fun q k h hhome => ?_⟩
    · rw [effJettyFlitNak_replayed s hblks hstate hupA hupB hkey hn hu h]
    · rw [effJettyFlitNak_fails s hblks hstate hupA hupB hkey hn hu h hhome]
  case linkUp =>
    intro die peer k u hblk hstate hblks hup hpeer hu
    rw [exec_linkUpReceived]
    refine ⟨fun h => ?_, fun d j h hrate => ?_⟩
    · rw [effLinkUpReceived_first s hblk hstate hblks hup hpeer hu h]
    · rw [effLinkUpReceived_second s hblk hstate hblks hup hpeer hu h hrate]
  case rejoin =>
    intro die link p hp hc hup hlink hstate
    rw [exec_jtyRejoin, effJtyRejoin_failed s hp hc hup hlink hstate]

end Sys2Proof.Machine
end

section
/-!
The home of a line (10_coherence_and_caches.md R280, R282, R284): how it serves a request whose snoops are done, by the table of R282, and
what it does with the write-backs, evictions and responses that agents send it.
-/
namespace Sys2Proof.Machine

/-! ## Service by the table (R282) -/

/-- The agents other than the requester that the entry of the line names. -/
def State.otherHolders (s : State) (m : Msg) : List Nat := (agentsOf (entryOf s m.line).sharers).filter (· ≠ m.agent)

/-- The answer of kind `k` to a request, with the data and the poison flag that the home read. -/
def Msg.dataAnswer (m : Msg) (k : MsgKind) (d : List Byte) (p : Bool) : Msg :=
  { mkMsg k m.agent m.line with data := d, poison := p, tag := m.tag }

/-- The answer of kind `k` to a request that brings no data. -/
def Msg.bareAnswer (m : Msg) (k : MsgKind) : Msg := { mkMsg k m.agent m.line with tag := m.tag }

/-- A home grants caching to no request that asks for none. -/
theorem State.nc_of_caches {s : State} {m : Msg} (h : s.caches_ m = true) : m.nc = false := by
  simp only [State.caches_, Bool.and_eq_true, Bool.not_eq_true'] at h
  exact h.1.1

theorem State.otherHolders_noEntry {s : State} {m : Msg} (h : entryOf s m.line = ⟨false, 0, 0⟩) : s.otherHolders m = [] := by
  simp [State.otherHolders, h, agentsOf, bitOf]

section Serve
variable (s : State) {t : Txn}

section Read
variable {d : List Byte} {p : Bool} {u : State} (hread : s.memLine t.req.line srcDynamic = (d, p, u))
include hread

/-- RD_NC of a line that nobody owns leaves the entry alone. -/
theorem State.serveReq_rdNc (hkind : t.req.kind = .rdNc) (howned : (entryOf s t.req.line).owned = false) :
    s.serveReq t = u.answer (t.req.dataAnswer .datNc d p) := by
  simp [State.serveReq, Msg.dataAnswer, hkind, hread, howned]

variable (hcache : s.caches_ t.req = true)
include hcache

/-- RD_S grants E where no other agent is left holding the line, and adds the requester to those that share it otherwise. -/
theorem State.serveReq_rdS (hkind : t.req.kind = .rdS) :
    s.serveReq t =
      if s.otherHolders t.req = [] ∨ ((entryOf s t.req.line).owned = true ∧ t.kept = false) then
        (u.answer (t.req.dataAnswer .datE d p)).setDir t.req.line true (2 ^ t.req.agent)
      else (u.answer (t.req.dataAnswer .datS d p)).setDir t.req.line false
        (setBit (entryOf s t.req.line).sharers t.req.agent) := by
  simp [State.serveReq, State.otherHolders, Msg.dataAnswer, hkind, hcache, hread]

/-- RD_E makes the requester the owner; it is sent no data where it shares the line. -/
theorem State.serveReq_rdE (hkind : t.req.kind = .rdE) :
    s.serveReq t =
      if bitOf (entryOf s t.req.line).sharers t.req.agent && !(entryOf s t.req.line).owned then
        (u.answer (t.req.bareAnswer .grantE)).setDir t.req.line true (2 ^ t.req.agent)
      else (u.answer (t.req.dataAnswer .datE d p)).setDir t.req.line true (2 ^ t.req.agent) := by
  simp only [State.serveReq, Msg.dataAnswer, Msg.bareAnswer, hkind, hcache, hread, reduceCtorEq, decide_false, Bool.not_true,
    Bool.or_self, Bool.false_eq_true, if_false]
  split <;> rfl

end Read

/-- A write by an agent that the entry does not name leaves the line with no holder and no reservation that it breaks. -/
theorem State.serveReq_write (hcache : s.caches_ t.req = true) (hkind : t.req.kind = .wrWt ∨ t.req.kind = .wrInv)
    (hnamed : bitOf (entryOf s t.req.line).sharers t.req.agent = false) :
    s.serveReq t = (((s.memPut t.req.line t.req.data t.req.mask t.req.poison srcDynamic).answer
      (t.req.bareAnswer .cmp)).loseResv t.req.line
      (fun x => x / 32 ≠ t.req.agent || t.req.kind = .wrInv)).setDir t.req.line false 0 := by
  rcases hkind with hkind | hkind <;>
    simp [State.serveReq, Msg.bareAnswer, hkind, State.nc_of_caches hcache, hnamed]

end Serve

/-- Settles O21: the row of the table that each kind of request meets, by who else the entry names. -/
theorem homeServesByTheTable : Obligations.HomeServesByTheTable := by
  intro s u t line a d p hagent hline _ hcache hread
  subst hagent hline
  refine ⟨?unheld, ?shared, ?owned, s.serveReq_rdE hread hcache, s.serveReq_rdNc hread,
    s.serveReq_write hcache⟩
  case unheld =>
    intro hkind hentry
    rw [s.serveReq_rdS hread hcache hkind, if_pos (.inl (State.otherHolders_noEntry hentry)), Msg.dataAnswer]
  case shared =>
    intro hkind howned hothers
    have hheld : s.otherHolders t.req ≠ [] := hothers
    rw [s.serveReq_rdS hread hcache hkind, if_neg (by simp [hheld, howned]), Msg.dataAnswer]
  case owned =>
    intro hkind howned hothers
    have hheld : s.otherHolders t.req ≠ [] := hothers
    rw [s.serveReq_rdS hread hcache hkind]
    cases hkept : t.kept with
    | true => rw [if_neg (by simp [hheld]), if_pos rfl, Msg.dataAnswer]
    | false => rw [if_pos (.inr ⟨howned, rfl⟩), if_neg Bool.false_ne_true, Msg.dataAnswer]

/-! ## What agents send to a home (R280, R282, R284) -/

section Commands
variable (s : State) (agent line : Nat)

theorem exec_wb (data : List Byte) (poison : Bool) :
    exec (.wb agent line data poison) s = .next (s.sealed (effWb agent line data poison s)) := rfl

theorem exec_wbSnp (data : List Byte) (poison keepS : Bool) :
    exec (.wbSnp agent line data poison keepS) s = .next (s.sealed (effWbSnp agent line data poison keepS s)) := rfl

theorem exec_evict : exec (.evict agent line) s = .next (s.sealed (effEvict agent line s)) := rfl

theorem exec_rspI : exec (.rspI agent line) s = .next (s.sealed (effRspI agent line s)) := rfl

theorem exec_rspS : exec (.rspS agent line) s = .next (s.sealed (effRspS agent line s)) := rfl

theorem exec_rspIWbpend : exec (.rspIWbpend agent line) s = .next (s.sealed (effRspIWbpend agent line s)) := rfl

end Commands

section Received
variable {s t : State} {agent line : Nat} {m : Msg}

/-- A message on its way is what a command of its kind brings, whatever the command itself carries. -/
theorem State.brought_onItsWay {k : MsgKind} (h : s.takeMsg k agent line = some (m, t)) (data : List Byte) (poison keepS : Bool) :
    s.brought k agent line data poison keepS = some (m, t) := by
  have hany : s.anyMsg k agent line = some (m, t) := by
    rw [State.takeMsg] at h
    split at h
    · cases h
    · exact h
  simp [State.brought, hany, h]

theorem effWb_onItsWay (h : s.takeMsg .wb agent line = some (m, t)) (hup : t.dieUp (t.homeOf line).die = true)
    (data : List Byte) (poison : Bool) : effWb agent line data poison s = t.recvWb m := by
  simp [effWb, State.brought_onItsWay h, hup]

theorem effWbSnp_onItsWay (h : s.takeMsg .wbSnp agent line = some (m, t)) (hup : t.dieUp (t.homeOf line).die = true)
    (data : List Byte) (poison keepS : Bool) : effWbSnp agent line data poison keepS s = t.recvWb m := by
  simp [effWbSnp, State.brought_onItsWay h, hup]

theorem effEvict_onItsWay (h : s.takeMsg .evict agent line = some (m, t)) (hup : t.dieUp (t.homeOf line).die = true) :
    effEvict agent line s = (t.dropSharer m.line m.agent).hostSettle m.line := by
  simp [effEvict, State.brought_onItsWay h, hup]

theorem effRspI_onItsWay (h : s.takeMsg .rspI agent line = some (m, t)) : effRspI agent line s = t.recvRsp .rspI agent line := by
  simp [effRspI, State.brought_onItsWay h]

theorem effRspS_onItsWay (h : s.takeMsg .rspS agent line = some (m, t)) : effRspS agent line s = t.recvRsp .rspS agent line := by
  simp [effRspS, State.brought_onItsWay h]

theorem effRspIWbpend_onItsWay (h : s.takeMsg .rspIWb agent line = some (m, t)) :
    effRspIWbpend agent line s = t.recvRsp .rspIWb agent line := by
  simp [effRspIWbpend, State.brought_onItsWay h]

end Received

/-- Settles O22: each command is the sealed effect, which finds its message on its way and gives it to the home. -/
theorem homeReceives : Obligations.HomeReceives := by
  intro s t agent line data poison keepS m
  refine ⟨fun h hup => ?wb, fun h hup => ?wbSnp, fun h hup => ?evict, fun h => ?rspI, fun h => ?rspS, fun h => ?rspIWb⟩
  case wb => rw [exec_wb, effWb_onItsWay h hup]
  case wbSnp => rw [exec_wbSnp, effWbSnp_onItsWay h hup]
  case evict => rw [exec_evict, effEvict_onItsWay h hup]
  case rspI => rw [exec_rspI, effRspI_onItsWay h]
  case rspS => rw [exec_rspS, effRspS_onItsWay h]
  case rspIWb => rw [exec_rspIWbpend, effRspIWbpend_onItsWay h]

end Sys2Proof.Machine
end

section
/-!
What a cache does (10_coherence_and_caches.md): with the messages that homes send it (R279, R281, R283, R284), with its merging buffer,
prefetcher and range engine (R291 to R293), and when it is disabled or enabled (R295).
-/
namespace Sys2Proof.Machine

/-! ## What a cache receives (R279, R281, R283, R284) -/

section Commands
variable (s : State) (agent line : Nat)

theorem exec_snpDown : exec (.snpDown agent line) s = .next (s.sealed (s.recvSnoop agent line false)) := rfl

theorem exec_snpInv : exec (.snpInv agent line) s = .next (s.sealed (s.recvSnoop agent line true)) := rfl

theorem exec_datS : exec (.datS agent line) s = .next (s.sealed (effDatS agent line s)) := rfl

theorem exec_datE : exec (.datE agent line) s = .next (s.sealed (effDatE agent line s)) := rfl

theorem exec_datNc : exec (.datNc agent line) s = .next (s.sealed (effDatNc agent line s)) := rfl

theorem exec_rspGrantE : exec (.rspGrantE agent line) s = .next (s.sealed (effRspGrantE agent line s)) := rfl

theorem exec_rspCmp : exec (.rspCmp agent line) s = .next (s.sealed (effRspCmp agent line s)) := rfl

theorem exec_rspWback : exec (.rspWback agent line) s = .next (s.sealed (effRspWback agent line s)) := rfl

end Commands

section Received
variable {s t : State} {agent line : Nat} {m : Msg} (hagent : isCacheAgent agent = true)
include hagent

section Snoop
variable (hup : t.dieUp (cacheDie agent) = true)
include hup

/-- No hart defers a downgrade (R312). -/
theorem State.recvSnoop_down (h : s.takeMsg .snpDown agent line = some (m, t)) :
    s.recvSnoop agent line false = t.answerSnoop agent line false := by
  simp [State.recvSnoop, h, hagent, hup]

/-- An invalidation stays on its way while a hart defers it (R312). -/
theorem State.recvSnoop_inv (h : s.takeMsg .snpInv agent line = some (m, t)) :
    s.recvSnoop agent line true = if t.deferred agent line then s else t.answerSnoop agent line true := by
  simp [State.recvSnoop, h, hagent, hup]

end Snoop

theorem effDatS_received (h : s.takeMsg .datS agent line = some (m, t)) :
    effDatS agent line s = (t.granted agent line .s m.data m.poison).rangeLate agent line := by
  simp [effDatS, h, hagent]

theorem effDatE_received (h : s.takeMsg .datE agent line = some (m, t)) :
    effDatE agent line s = (t.granted agent line .e m.data m.poison).rangeLate agent line := by
  simp [effDatE, h, hagent]

/-- Data that grant nothing serve the one request that bypasses the cache and waits for them. -/
theorem effDatNc_oneWaits (h : s.takeMsg .datNc agent line = some (m, t)) {r : Mshr} (hmshrs : t.mshrs = [r])
    (hr : r.agent = agent ∧ r.line = line ∧ r.sent = true) (hnc : r.nc = true) :
    effDatNc agent line s =
      (({ t with mshrs := [] } : State).serveOnce agent line m.data m.poison [r]).rangeLate agent line := by
  obtain ⟨hra, hrl, hsent⟩ := hr
  simp [effDatNc, h, hagent, hmshrs, takeFirst, hra, hrl, hsent, hnc]

/-- A grant without data makes the copy that the cache still holds exclusive. -/
theorem effRspGrantE_held (h : s.takeMsg .grantE agent line = some (m, t)) {l : CLine} (hheld : t.held agent line = some l) :
    effRspGrantE agent line s = (t.granted agent line .e l.data l.poison).rangeLate agent line := by
  simp [effRspGrantE, h, hagent, hheld]

theorem effRspCmp_received (h : s.takeMsg .cmp agent line = some (m, t)) : effRspCmp agent line s = t.writeDone agent line := by
  simp [effRspCmp, h, hagent]

/-- With no request that waited for the write-back (R281), its acknowledgement only frees the entry and the harts that watch it. -/
theorem effRspWback_noneWait (h : s.takeMsg .wback agent line = some (m, t)) {u : State}
    (hu : u = (t.updCache agent (fun c => Cache.rangeAck { c with wb := mapErase c.wb line } line)).drainMerge agent
      (fun e => e.line = line && e.due)) (hnone : u.mshrs = []) :
    effRspWback agent line s =
      { u with harts := u.harts.map (fun h => (h.1, { h.2 with wbWait := h.2.wbWait.filter (· ≠ line) })) } := by
  simp [effRspWback, h, hagent, ← hu, hnone]

end Received

/-- Settles O23: each command is the sealed effect, which finds its message on its way to a cache. -/
theorem cacheReceives : Obligations.CacheReceives := by
  intro s t agent line m hagent
  refine ⟨fun h hup => ?snpDown, fun h hup => ?snpInv, fun h => ?datS, fun h => ?datE,
    fun r h hmshrs hra hrl hsent hnc => ?datNc, fun l h hheld => ?grantE, fun h => ?cmp, fun u h hu hnone => ?wback⟩
  case snpDown => rw [exec_snpDown, State.recvSnoop_down hagent hup h]
  case snpInv => rw [exec_snpInv, State.recvSnoop_inv hagent hup h]
  case datS => rw [exec_datS, effDatS_received hagent h]
  case datE => rw [exec_datE, effDatE_received hagent h]
  case datNc => rw [exec_datNc, effDatNc_oneWaits hagent h hmshrs ⟨hra, hrl, hsent⟩ hnc]
  case grantE => rw [exec_rspGrantE, effRspGrantE_held hagent h hheld]
  case cmp => rw [exec_rspCmp, effRspCmp_received hagent h]
  case wback => rw [exec_rspWback, effRspWback_noneWait hagent h hu hnone]

/-! ## Merging, prefetching, ranges, and the cache as a whole (R291 to R293, R295) -/

section Commands
variable (s : State) (agent : Nat)

theorem exec_mergeTimeout : exec (.mergeTimeout agent) s = .next (s.sealed (effMergeTimeout agent s)) := rfl

theorem exec_stridePrefetch : exec (.stridePrefetch agent) s = .next (s.sealed (effStridePrefetch agent s)) := rfl

theorem exec_zicbopPrefetch (hart addr : Nat) (write : Bool) :
    exec (.zicbopPrefetch hart addr write) s = .next (s.sealed (effZicbopPrefetch hart addr write s)) := rfl

theorem exec_rngClean : exec (.rngClean agent) s = .next (s.sealed (s.rangeStart agent 1)) := rfl

theorem exec_rngInvalidate : exec (.rngInvalidate agent) s = .next (s.sealed (s.rangeStart agent 2)) := rfl

theorem exec_rngCleanInvalidate : exec (.rngCleanInvalidate agent) s = .next (s.sealed (s.rangeStart agent 3)) := rfl

theorem exec_rangeOpDone : exec (.rangeOpDone agent) s = .next (s.sealed (effRangeOpDone agent s)) := rfl

theorem exec_cacheDisable : exec (.cacheDisable agent) s = .next (s.sealed (effCacheDisable agent s)) := rfl

theorem exec_cacheEnable : exec (.cacheEnable agent) s = .next (s.sealed (effCacheEnable agent s)) := rfl

end Commands

section Control
variable (s : State) {agent : Nat}

theorem effMergeTimeout_oldest {e : MergeEnt} {es : List MergeEnt} (h : (s.cache agent).merge = e :: es) :
    effMergeTimeout agent s = s.drainMerge agent (fun x => x.line = e.line) := by
  simp [effMergeTimeout, h]

/-- A confident upward stream asks for the line `DIST` beyond its last. -/
theorem effStridePrefetch_confident {p : PfStream} {l : Nat} (hagent : isCacheAgent agent = true)
    (hen : s.fbit (cacheDie agent) (s.cacheRef agent CACHE_PF_CTRL.STRIDE_EN) = true) (hone : (s.cache agent).streams = [p])
    (hcount : 3 ≤ p.count) (hup : 0 < p.stride)
    (hl : l = ((p.last : Int) + (max 1 (s.fget (cacheDie agent) (s.cacheRef agent CACHE_PF_CTRL.DIST)) : Nat)).toNat)
    (hfetch : s.prefetchable agent l = true) : effStridePrefetch agent s = s.prefetchLine agent l false := by
  have hconfident : [p].filter (fun q => 3 ≤ q.count && q.stride ≠ 0) = [p] := by simp [hcount, hup.ne']
  simp only [effStridePrefetch, hagent, hen, hone, hconfident, List.map_cons, List.map_nil, if_neg (not_lt.mpr hup.le), ← hl,
    List.find?_cons, hfetch]
  rfl

theorem effZicbopPrefetch_enabled {hart addr : Nat} (hhart : hart < 64) (haddr : addr < 2 ^ 44)
    (hen : s.fbit (cacheDie (hart / 32)) (s.cacheRef (hart / 32) CACHE_PF_CTRL.ZICBOP_EN) = true) (write : Bool) :
    effZicbopPrefetch hart addr write s = s.prefetchLine (hart / 32) (addr / 64) write := by
  simp only [effZicbopPrefetch, hen, decide_eq_false (not_le.mpr hhart), decide_eq_false (not_le.mpr haddr)]
  rfl

theorem State.rangeStart_idle (hagent : isCacheAgent agent = true)
    (hidle : s.fbit (cacheDie agent) (s.cacheRef agent CACHE_RNG_OP.BUSY) = false) (op : Nat) :
    s.rangeStart agent op = s.rangeRun agent op := by
  simp [State.rangeStart, hagent, hidle]

/-- A range operation ends once none of its write-backs is out and none of its lines was on its way. -/
theorem effRangeOpDone_finished {r : RangeOp} (hrng : (s.cache agent).rng = some r) (hwaits : r.waits = []) (hlater : r.later = []) :
    effRangeOpDone agent s =
      (s.updCache agent (fun c => { c with rng := none })).fset (cacheDie agent) (s.cacheRef agent CACHE_RNG_OP.BUSY) 0 := by
  simp [effRangeOpDone, hrng, hwaits, hlater]

/-- A cache that holds no dirty line once its buffers are empty is disabled with nothing lost (R295). -/
theorem effCacheDisable_clean {u v : State} (hagent : isCacheAgent agent = true) (hon : s.cacheOn agent = true)
    (hu : u = (((s.drainMerge agent (fun _ => true)).cache agent).side.map (·.1)).foldl (fun (t : State) l => t.dropLine agent l)
      (s.drainMerge agent (fun _ => true)))
    (hclean : (u.cache agent).lines.filter (fun e => e.2.st = .m) = [])
    (hv : v = (u.fset (cacheDie agent) (u.cacheRef agent CACHE_CTRL.ENABLE) 0).fset (cacheDie agent)
      (u.cacheRef agent CACHE_STATUS.DIRTY_CNT) 0) :
    effCacheDisable agent s = ((v.cache agent).lines.map (·.1)).foldl (fun (t : State) l => t.dropL1 agent l) v := by
  simp only [effCacheDisable, hagent, hon, ← hu, hclean, List.length_nil, ← hv]
  rfl

theorem effCacheEnable_cache (hagent : isCacheAgent agent = true) :
    effCacheEnable agent s = s.fset (cacheDie agent) (s.cacheRef agent CACHE_CTRL.ENABLE) 1 := by
  simp [effCacheEnable, hagent]

end Control

/-- Settles O24: each command is the sealed effect, which takes the branch that its hypotheses name. -/
theorem cacheCommands : Obligations.CacheCommands := by
  intro s agent
  refine ⟨?merge, ?stride, ?hint, ?start, ?done, ?disable, ?enable⟩
  case merge =>
    intro e es hmerge
    rw [exec_mergeTimeout, effMergeTimeout_oldest s hmerge]
  case stride =>
    intro p l hagent hen hone hcount hup hl hfetch
    rw [exec_stridePrefetch, effStridePrefetch_confident s hagent hen hone hcount hup hl hfetch]
  case hint =>
    intro hart addr write hhart haddr hen
    rw [exec_zicbopPrefetch, effZicbopPrefetch_enabled s hhart haddr hen]
  case start =>
    intro hagent hidle
    rw [exec_rngClean, exec_rngInvalidate, exec_rngCleanInvalidate]
    simp only [s.rangeStart_idle hagent hidle, and_self]
  case done =>
    intro r hrng hwaits hlater
    rw [exec_rangeOpDone, effRangeOpDone_finished s hrng hwaits hlater]
  case disable =>
    intro u v hagent hon hu hclean hv
    rw [exec_cacheDisable, effCacheDisable_clean s hagent hon hu hclean hv]
  case enable =>
    intro hagent
    rw [exec_cacheEnable, effCacheEnable_cache s hagent]

end Sys2Proof.Machine
end

section
/-!
The cache-block operations of a hart (12_headland_cores.md R330) and the control registers that drain it and take it offline
(10_coherence_and_caches.md R291, 11_memory_ordering.md R315, 12_headland_cores.md R333, R334).
-/
namespace Sys2Proof.Machine

section Commands
variable (s : State) (hart : Nat)

theorem exec_cboClean (addr : Nat) : exec (.cboClean hart addr) s = .next (s.sealed (effCboClean hart addr s)) := rfl

theorem exec_cboFlush (addr : Nat) : exec (.cboFlush hart addr) s = .next (s.sealed (effCboFlush hart addr s)) := rfl

theorem exec_cboInval (addr : Nat) (flush : Bool) :
    exec (.cboInval hart addr flush) s = .next (s.sealed (effCboInval hart addr flush s)) := rfl

theorem exec_cboZero (addr : Nat) : exec (.cboZero hart addr) s = .next (s.sealed (effCboZero hart addr s)) := rfl

theorem exec_mdrainWrite (num priv : Nat) (virt : Bool) :
    exec (.mdrainWrite hart num priv virt) s = .next (s.sealed (effMdrainWrite hart num priv virt s)) := rfl

theorem exec_mfence (priv : Nat) (virt : Bool) (key : Word) :
    exec (.mfence hart priv virt key) s = .next (s.sealed (effMfence hart priv virt key s)) := rfl

end Commands

section Block
variable (s : State) {hart addr : Nat} (hruns : s.hartRuns hart = true) (hfree : s.fenced hart addr true = false)
include hruns hfree

section Coherent
variable (hway : s.cboWay hart addr = some true)
include hway

/-- On a line of coherent memory that the cache holds and no store of the hart's own awaits, an operation acts on the held copy, after the
bytes that were waiting to be written to the line. -/
theorem State.cbo_held {u : State} {l : CLine}
    (hu : u = (s.drainNtLine hart addr).drainMerge (hart / 32) (fun e => e.line = addr / 64))
    (hheld : u.held (hart / 32) (addr / 64) = some l) (hown : u.ownStores hart addr = false) (f : State → CLine → State) :
    s.cbo hart addr f = f u l := by
  simp [State.cbo, hruns, hfree, hway, ← hu, hheld, hown]

/-- A zero of a line of coherent memory is a request of the hart to its cache. -/
theorem effCboZero_coherent {u : State} (hu : u = s.drainNtLine hart addr) (hown : u.ownStores hart addr = false) :
    effCboZero hart addr s = u.tryLine (s.hartReq hart (addr / 64 * 64) 64 .zero (List.replicate 64 0) 0) := by
  simp [effCboZero, hruns, hfree, hway, ← hu, hown]

end Coherent

/-- Elsewhere a zero is a store of 64 zero bytes. -/
theorem effCboZero_noncoherent (hway : s.cboWay hart addr = some false) :
    effCboZero hart addr s =
      (s.drainNtLine hart addr).retireAs hart (addr / 64 * 64) (List.replicate 64 0) fullLine 0 := by
  simp [effCboZero, hruns, hfree, hway]

end Block

section Register
variable (s : State) {hart : Nat} (hruns : s.hartRuns hart = true)
include hruns

/-- A drain starts the stores that leave the package, and every merging entry that the hart has written to (R291, R315). -/
theorem effMdrainWrite_starts {num priv : Nat} {virt : Bool} (hidle : (s.hart hart).mdrain = false)
    (hallowed : csrTrap num priv virt = none) :
    effMdrainWrite hart num priv virt s =
      ((s.drainNt hart (fun e => 2 ^ 44 ≤ e.line * 64)).updHart hart
        (fun x => Hart.drained { x with mdrain := true })).drainMerge (hart / 32) (fun e => e.harts.contains hart) := by
  simp only [effMdrainWrite, hruns, hidle, hallowed]
  rfl

theorem effMfence_key {priv : Nat} {virt : Bool} {key : Word} (hallowed : csrTrap 0x7C1 priv virt = none)
    (hkey : bits key 15 0 = 0x0FF1) : effMfence hart priv virt key s = s.offline hart 2 := by
  simp [effMfence, hruns, hallowed, hkey]

end Register

/-- Settles O29: each operation acts on the held copy or is the hart's own request, and each register takes the branch that its
hypotheses name. -/
theorem cacheBlocksAndDrain : Obligations.CacheBlocksAndDrain := by
  intro s hart addr
  refine ⟨?held, ?zero, ?zeroElsewhere, ?drain, ?fence⟩
  case held =>
    intro u l hruns hfree hway hu hheld hown
    rw [exec_cboClean, exec_cboFlush, exec_cboInval, exec_cboInval, effCboClean, effCboFlush, effCboInval, effCboInval]
    simp only [s.cbo_held hruns hfree hway hu hheld hown]
    exact ⟨fun hdirty => by simp [hdirty], fun hclean => by simp [hclean], by simp⟩
  case zero =>
    intro u hruns hfree hway hu hown
    rw [exec_cboZero, effCboZero_coherent s hruns hfree hway hu hown]
  case zeroElsewhere =>
    intro hruns hfree hway
    rw [exec_cboZero, effCboZero_noncoherent s hruns hfree hway]
  case drain =>
    intro num priv virt hruns hidle hallowed
    rw [exec_mdrainWrite, effMdrainWrite_starts s hruns hidle hallowed]
  case fence =>
    intro priv virt key hruns hallowed hkey
    rw [exec_mfence, effMfence_key s hruns hallowed hkey]

end Sys2Proof.Machine
end

section
/-!
The memory and cache commands of a host port (10_coherence_and_caches.md R286; 16_host_port_and_companions.md R436, R438, R439, R441 to
R445): what each effect does on a link that is up.
-/
namespace Sys2Proof.Machine

/-! ## The commands -/

section Commands
variable (s : State) (port : Nat)

theorem exec_memRd (line snp : Nat) : exec (.memRd port line snp) s = .next (s.sealed (effMemRd port line snp s)) := rfl

theorem exec_memWr (line : Nat) (data : List Byte) (mask : Nat) (poison keepS : Bool) :
    exec (.memWr port line data mask poison keepS) s = .next (s.sealed (effMemWr port line data mask poison keepS s)) := rfl

theorem exec_h2dSnpInv (line : Nat) : exec (.h2dSnpInv port line) s = .next (s.sealed (effH2dSnpInv port line s)) := rfl

theorem exec_h2dSnpData (line : Nat) : exec (.h2dSnpData port line) s = .next (s.sealed (effH2dSnpData port line s)) := rfl

theorem exec_h2dSnpCur (line : Nat) : exec (.h2dSnpCur port line) s = .next (s.sealed (effH2dSnpCur port line s)) := rfl

theorem exec_hostGo (addr : Nat) (data : List Byte) (poison : Bool) :
    exec (.hostGo port addr data poison) s = .next (s.sealed (effHostGo port addr data poison s)) := rfl

theorem exec_birsp (line : Nat) (keepS : Bool) :
    exec (.birsp port line keepS) s = .next (s.sealed (effBirsp port line keepS s)) := rfl

theorem exec_hdmCommit (dec base size : Nat) :
    exec (.hdmCommit port dec base size) s = .next (s.sealed (effHdmCommit port dec base size s)) := rfl

theorem exec_dportWrite (off : Nat) (data : List Byte) :
    exec (.dportWrite port off data) s = .next (s.sealed (effDportWrite port off data s)) := rfl

theorem exec_dportRead (off len : Nat) : exec (.dportRead port off len) s = .next (s.sealed (effDportRead port off len s)) := rfl

theorem exec_dportStatusRead (ap : Nat) :
    exec (.dportStatusRead port ap) s = .next (s.sealed (effDportStatusRead port ap s)) := rfl

theorem exec_p2pRequest (agent : Agent) (addr len : Nat) (write : Bool) (data : List Byte) :
    exec (.p2pRequest agent addr len write data) s = .next (s.sealed (effP2pRequest agent addr len write data s)) := rfl

theorem exec_p2pTimeout (addr : Nat) : exec (.p2pTimeout port addr) s = .next (s.sealed (effP2pTimeout port addr s)) := rfl

theorem exec_drainReadCompletion (queue : Nat) (timeout : Bool) :
    exec (.drainReadCompletion queue timeout) s = .next (s.sealed (effDrainReadCompletion queue timeout s)) := rfl

end Commands

/-! ## The host's commands on a link that is up -/

section Link
variable (s : State) {port line : Nat} (hlink : s.linkUp port = true)
include hlink

/-! ### Its reads and writes of package memory (R286, R436) -/

section Memory
variable (hok : s.memOk port line = true) (hhome : s.lostHome line = false)
include hok hhome

/-- A read is a request of the host's agent number, of the kind that its snoop type gives. -/
theorem effMemRd_served (snp : Nat) :
    effMemRd port line snp s =
      s.recvReq (s.withClass homeTable (mkMsg (if snp = 0 then .rdS else if snp = 1 then .rdE else .rdNc) 6 line)) := by
  simp [effMemRd, hlink, hok, hhome]

/-- A whole line from a host that the entry names is its write-back (R286). -/
theorem effMemWr_writeBack {mask : Nat} (hnamed : bitOf (entryOf s line).sharers 6 = true) (hmask : mask % 2 ^ 64 = fullLine)
    (hup : s.dieUp (s.homeOf line).die = true) (data : List Byte) (poison keepS : Bool) :
    effMemWr port line data mask poison keepS s =
      s.recvWb { mkMsg .wb 6 line with
        data := (data ++ List.replicate 64 (0 : Byte)).take 64, mask := fullLine, poison := poison, keepS := keepS } := by
  simp only [effMemWr, hlink, hok, hhome, hnamed, hmask, hup]
  rfl

/-- A write of a host that the entry does not name is an invalidating write. -/
theorem effMemWr_invalidating (hnot : bitOf (entryOf s line).sharers 6 = false) (data : List Byte) (mask : Nat)
    (poison keepS : Bool) :
    effMemWr port line data mask poison keepS s =
      s.recvReq (s.withClass homeTable { mkMsg .wrInv 6 line with
        data := (data ++ List.replicate 64 (0 : Byte)).take 64, mask := mask % 2 ^ 64, poison := poison }) := by
  simp only [effMemWr, hlink, hok, hhome, hnot]
  rfl

end Memory

/-! ### The caching of host lines (R438, R439) -/

theorem effH2dSnpInv_up (line : Nat) : effH2dSnpInv port line s = s.h2d port line true := if_pos hlink

theorem effH2dSnpData_up (line : Nat) : effH2dSnpData port line s = s.h2d port line false := if_pos hlink

theorem effH2dSnpCur_up (line : Nat) : effH2dSnpCur port line s = s.h2d port line false := if_pos hlink

/-- GO for a line that is leaving the proxy lets it go. -/
theorem effHostGo_leaving {h : HostLine} (hfind : mapFind s.hostLines line = some h) (hleaving : h.leaving = true)
    (data : List Byte) (poison : Bool) : effHostGo port (line * 64) data poison s = s.goLeaving line h := by
  simp [effHostGo, hlink, hfind, hleaving]

/-- GO for a line that a request waits for brings it to the proxy, in the state that the request needs. -/
theorem effHostGo_filled {t : Txn} (hnone : mapFind s.hostLines line = none) (htxn : mapFind s.txns line = some t)
    (hwait : t.hostWait = true) (data : List Byte) (poison : Bool) :
    effHostGo port (line * 64) data poison s = s.goFilled line
      { data := (data ++ List.replicate 64 (0 : Byte)).take 64, poison := poison, owned := s.wantsOwn t, dirty := false,
        lent := !(s.hostOp t).2, leaving := false } t := by
  simp [effHostGo, hlink, hnone, htxn, hwait]

/-- BIRsp is the host's response to the snoop that its port exposes the line to (R286). -/
theorem effBirsp_awaited {t : Txn} (htxn : mapFind s.txns line = some t) (hsnoop : t.snoops.contains 6 = true)
    (hport : s.exposedBy (line * 64) = some port) (keepS : Bool) :
    effBirsp port line keepS s = s.recvRsp (if keepS then .rspS else .rspI) 6 line := by
  simp only [effBirsp, hlink, htxn, hsnoop, hport]
  rfl

/-! ### The apertures (R441 to R443) -/

/-- A write within one aperture. -/
theorem effDportWrite_aperture {off : Nat} {data : List Byte} (hend : off + data.length ≤ 0x400000)
    (hone : off / 2 ^ 20 = (off + data.length - 1) / 2 ^ 20) :
    effDportWrite port off data s = s.dport port (.write (off / 2 ^ 20) data) := by
  simp only [effDportWrite, hlink, decide_eq_true hend, decide_eq_true hone]
  rfl

/-- A read within one aperture. -/
theorem effDportRead_aperture {off len : Nat} (hend : off + len ≤ 0x400000) (hone : off / 2 ^ 20 = (off + len - 1) / 2 ^ 20) :
    effDportRead port off len s = s.dport port (.read (off / 2 ^ 20) len) := by
  simp only [effDportRead, hlink, decide_eq_true hend, decide_eq_true hone]
  rfl

theorem effDportStatusRead_aperture {ap : Nat} (hap : ap < 4) : effDportStatusRead port ap s = s.dport port (.status ap) := by
  simp [effDportStatusRead, hlink, hap]

end Link

/-! ## Decoders, and the package's own CXL.io requests -/

/-- A decoder commits where its range is device memory and the other port has committed none that it could overlap (R436). -/
theorem effHdmCommit_commits (s : State) {port dec base size : Nat} (hport : isPort port = true) (hdec : dec < 4)
    (hup : s.dieUp (4 + port) = true) (hdpa : dpaOk base size = true) (hother : (s.hostPort (1 - port)).hdm = []) :
    effHdmCommit port dec base size s = s.updHost port (fun p =>
      { p with hdm := p.hdm.filter (fun d => d.1 ≠ dec) ++ [(dec, base, size)], hdmErr := p.hdmErr.filter (· ≠ dec) }) := by
  simp [effHdmCommit, hport, hdec, hup, hdpa, hother]

section Io
variable (s : State) {port addr : Nat}

section Request
variable {o : Nat} (hreg : regionOf addr = .host port o) (hp2p : (s.p2pOf port addr).isSome = true) (hup : s.ioUp port = true)
include hreg hp2p hup

/-- A write to the host is posted: it is done once it has gone out (R444). -/
theorem effP2pRequest_write {data : List Byte} (hpop : s.populated addr data.length = true) (agent : Agent) (len : Nat) :
    effP2pRequest agent addr len true data s =
      (s.emit (.hostIo port addr data.length true data)).emit (.done agent addr) := by
  simp [effP2pRequest, hreg, Option.isNone_eq_false_iff.mpr hp2p, hup, hpop]

/-- An engine's read of the host is asked for and awaited. -/
theorem effP2pRequest_engineRead {len : Nat} (hpop : s.populated addr len = true) (data : List Byte) :
    effP2pRequest .engine addr len false data s = s.ioAsk port .engine addr len := by
  simp [effP2pRequest, hreg, Option.isNone_eq_false_iff.mpr hp2p, hup, hpop]

end Request

/-- A read that the host does not answer in time ends without data (R444). -/
theorem effP2pTimeout_awaited {r : IoRead}
    (hfind : s.ios.find? (fun r => r.port = port && r.addr = addr && r.answer = none && r.len ≠ 0) = some r) :
    effP2pTimeout port addr s = s.ioAnswer r none := by
  simp only [effP2pTimeout, hfind]

/-- A drain read of a queue ends, and the front entry of the queue awaits one fewer. -/
theorem effDrainReadCompletion_awaited {queue : Nat} {x : IoRead} {rest : List IoRead} {r : JRec}
    (htake : takeFirst (fun (r : IoRead) => decide (r.who = .drain queue)) s.ios = some (x, rest))
    (hfront : s.frontRec queue = some r) (timeout : Bool) :
    effDrainReadCompletion queue timeout s =
      ({ s with ios := rest } : State).setRec { r with drains := r.drains - 1, late := r.late || timeout } := by
  simp only [effDrainReadCompletion, htake, hfront]

end Io

/-- Settles O38: each command is the sealed effect, which takes the branch that its hypotheses name. That a MEM_WR of a line that the
host does not hold is served as WR_INV (log entry 27, DEDUCED), and that a CXL.io write is done at once (28, DEDUCED), are not stated by
the cited rules. -/
theorem hostMemory : Obligations.HostMemory := by
  intro s port line data hlink
  refine ⟨?read, ?write, ⟨?snpInv, ?snpData, ?snpCur⟩, ?leaving, ?filled, ?birsp, ?decoder, ?apWrite, ?apRead, ?apStatus, ?p2p,
    ?timeout, ?drain⟩
  case read =>
    intro hok hhome snp
    rw [exec_memRd, effMemRd_served s hlink hok hhome]
    exact ⟨fun h => by simp [h], fun h => by simp [h], fun h => by rw [if_neg (by omega), if_neg (by omega)]⟩
  case write =>
    intro mask poison keepS d hok hhome hd
    subst hd
    rw [exec_memWr]
    refine ⟨fun hnamed hmask hup => ?_, fun hnot => ?_⟩
    · rw [effMemWr_writeBack s hlink hok hhome hnamed hmask hup]
    · rw [effMemWr_invalidating s hlink hok hhome hnot]
  case snpInv => rw [exec_h2dSnpInv, effH2dSnpInv_up s hlink]
  case snpData => rw [exec_h2dSnpData, effH2dSnpData_up s hlink]
  case snpCur => rw [exec_h2dSnpCur, effH2dSnpCur_up s hlink]
  case leaving =>
    intro h poison hfind hleaving
    rw [exec_hostGo, effHostGo_leaving s hlink hfind hleaving]
  case filled =>
    intro t poison hnone htxn hwait
    rw [exec_hostGo, effHostGo_filled s hlink hnone htxn hwait]
  case birsp =>
    intro t htxn hsnoop hport
    rw [exec_birsp, exec_birsp, effBirsp_awaited s hlink htxn hsnoop hport, effBirsp_awaited s hlink htxn hsnoop hport]
    exact ⟨rfl, rfl⟩
  case decoder =>
    intro dec base size hport hdec hup hdpa hother
    rw [exec_hdmCommit, effHdmCommit_commits s hport hdec hup hdpa hother]
  case apWrite =>
    intro off hend hone
    rw [exec_dportWrite, effDportWrite_aperture s hlink hend hone]
  case apRead =>
    intro off len hend hone
    rw [exec_dportRead, effDportRead_aperture s hlink hend hone]
  case apStatus =>
    intro ap hap
    rw [exec_dportStatusRead, effDportStatusRead_aperture s hlink hap]
  case p2p =>
    intro agent addr len o hreg hp2p hup
    rw [exec_p2pRequest, exec_p2pRequest]
    refine ⟨fun hpop => ?_, fun hagent hpop => ?_⟩
    · rw [effP2pRequest_write s hreg hp2p hup hpop]
    · rw [hagent, effP2pRequest_engineRead s hreg hp2p hup hpop]
  case timeout =>
    intro addr r hfind
    rw [exec_p2pTimeout, effP2pTimeout_awaited s hfind]
  case drain =>
    intro queue timeout x rest r htake hfront
    rw [exec_drainReadCompletion, effDrainReadCompletion_awaited s htake hfront]

end Sys2Proof.Machine
end

section
/-!
The loads, stores and non-temporal stores of a hart (11_memory_ordering.md R307, R308, R311, R314): what each effect does for a
hart that runs and that no FENCE holds back.
-/
namespace Sys2Proof.Machine

/-! ## The commands -/

section Commands
variable (s : State) (hart addr : Nat) (data : List Byte)

theorem exec_hartLoad (len pbmt err : Nat) :
    exec (.hartLoad hart addr len pbmt err) s = .next (s.sealed (effHartLoad hart addr len pbmt err s)) := rfl

theorem exec_hartStore (pbmt : Nat) :
    exec (.hartStore hart addr data pbmt) s = .next (s.sealed (effHartStore hart addr data pbmt s)) := rfl

theorem exec_storePerformed (id : Nat) (bad : Bool) :
    exec (.storePerformed hart id bad) s = .next (s.sealed (effStorePerformed hart id bad s)) := rfl

theorem exec_remoteStoreFailure :
    exec (.remoteStoreFailure hart) s = .next (s.sealed (effRemoteStoreFailure hart s)) := rfl

theorem exec_ntStore : exec (.ntStore hart addr data) s = .next (s.sealed (effNtStore hart addr data s)) := rfl

theorem exec_ntIdleDrain : exec (.ntIdleDrain hart) s = .next (s.sealed (effNtIdleDrain hart s)) := rfl

end Commands

/-! ## Loads (R308, R309) -/

/-- Error 0 of a load names no error. -/
@[simp] theorem State.hartError_none (s : State) (hart addr : Nat) : s.hartError hart addr 0 = s := rfl

section Load
variable (s : State) {hart addr pbmt : Nat} (hruns : s.hartRuns hart = true)
  (hfree : s.fencedKind hart (isMemKind addr && pbmt ≠ 2) false = false)
include hruns hfree

/-- A load that no line boundary cuts is one access. -/
theorem effHartLoad_oneLine {len : Nat} (hpos : 0 < len) (hlen : len ≤ 64)
    (hreg : (addr < 2 ^ 44 && isRegRange addr) = false) (hissue : s.issuable addr len = true) (hline : addr % 64 + len ≤ 64) :
    effHartLoad hart addr len pbmt 0 s = s.loadPart hart addr len pbmt := by
  have hwhole : min len (64 - addr % 64) = len := by omega
  simp only [ne_eq, decide_not] at hfree
  simp [effHartLoad, -Nat.reducePow, hruns, hfree, hreg, hissue, hwhole, hpos.ne', hlen.not_gt]

/-- A load of a register reads it once the hart's own stores to that die's registers are performed (R309). -/
theorem effHartLoad_register (hrange : isRegRange addr = true) (hlocal : addr < 2 ^ 44) (haligned : addr % 8 = 0)
    (hstores : s.regStores hart addr = false) :
    effHartLoad hart addr 8 pbmt 0 s = s.regGet (.hart hart) addr 8 := by
  simp only [ne_eq, decide_not] at hfree
  simp [effHartLoad, -Nat.reducePow, hruns, hfree, hrange, hlocal, haligned, hstores]

end Load

/-! ## Stores (R308) -/

/-- A store that may be issued retires into the store buffer, after the non-temporal entry of its line has drained. -/
theorem effHartStore_retires (s : State) {hart addr pbmt : Nat} {data : List Byte} (hruns : s.hartRuns hart = true)
    (hfree : s.fencedKind hart (isMemKind addr && pbmt ≠ 2) true = false) (hpos : 0 < data.length) (hlen : data.length ≤ 64)
    (hreg : (addr < 2 ^ 44 && isRegRange addr) = false) (hissue : s.issuable addr data.length = true)
    (hslab : (addr < 2 ^ 44 && s.fencedSlab addr) = false) :
    effHartStore hart addr data pbmt s = (s.drainNtLine hart addr).retireAll hart addr data (min pbmt 2) := by
  simp only [ne_eq, decide_not] at hfree
  simp [effHartStore, -Nat.reducePow, hruns, hfree, hreg, hissue, hslab, List.ne_nil_of_length_pos hpos, hlen.not_gt]

section Performed
variable (s : State) {hart id : Nat} {e : SbEnt} (hfind : (s.hart hart).stores.find? (fun e => e.id = id) = some e)
  (hsent : e.sent = false) (hturn : s.storeWaits hart e = false) (hfailing : (s.hart hart).failing = [])
  (hup : s.dieUp (hartDie hart) = true)
include hfind hsent hturn hfailing hup

/-- A store whose turn has come is performed at a register, if it names one. -/
theorem effStorePerformed_register (hlocal : e.addr < 2 ^ 44) (hrange : isRegRange e.addr = true) :
    effStorePerformed hart id false s = s.storeReg hart e := by
  simp [effStorePerformed, -Nat.reducePow, hfind, hsent, hturn, hfailing, hup, hlocal, hrange]

section Near
variable (hreg : (e.addr < 2 ^ 44 && isRegRange e.addr) = false)
  (hplace : (e.addr < 2 ^ 44 && (!s.populated e.addr e.data.length || s.fencedSlab e.addr)) = false)
  (hnear : s.farOf e.addr = none) (hnoHost : s.ioPort (hartDie hart) e.addr = none)
include hreg hplace hnear hnoHost

/-- One to a slab whose port is free writes its bytes there. -/
theorem effStorePerformed_slab {die core off : Nat} (hregion : regionOf e.addr = .slab die core off)
    (hdie : s.dieUp die = true) (hport : s.slabPortBusy die core off e.data.length true = false) :
    effStorePerformed hart id false s =
      (s.dynSlabPut die core off e.data (maskBytes e.mask e.data.length)).storeDone hart id := by
  simp only [effStorePerformed, hfind, hsent, hturn, hfailing, hup, hreg, hplace, hnear, hnoHost, hregion, hdie, hport]
  rfl

/-- One to a stack goes to the SLC or to its home. -/
theorem effStorePerformed_stack {die off : Nat} (hregion : regionOf e.addr = .stack die off) :
    effStorePerformed hart id false s = s.storeLocal hart e := by
  simp only [effStorePerformed, hfind, hsent, hturn, hfailing, hup, hreg, hplace, hnear, hnoHost, hregion]
  rfl

end Near
end Performed

/-- The first failed store of a hart is recorded where HL_REMOTE_ERR holds none (R314, R326). -/
theorem effRemoteStoreFailure_recorded (s : State) {hart id kind at_ : Nat} {rest : List (Nat × Nat × Nat)}
    (hfailing : (s.hart hart).failing = (id, kind, at_) :: rest)
    (hvalid : s.fbit (hartDie hart) (hlRef hart HL_REMOTE_ERR.VALID) = false) :
    effRemoteStoreFailure hart s =
      ((s.fsets (hartDie hart)
        [(hlRef hart HL_REMOTE_ERR.VALID, 1), (hlRef hart HL_REMOTE_ERR.KIND, kind),
         (hlRef hart HL_REMOTE_ERR.PKG, at_ / 2 ^ 44), (hlRef hart HL_REMOTE_ERR.LINE, at_ % 2 ^ 44 / 64)]).updHart hart
        (fun x => { x with failing := rest, failed := (x.failed + 1) % 2 ^ 32, irq16 := true })).storeDone hart id := by
  simp [effRemoteStoreFailure, hfailing, hvalid]

/-! ## Non-temporal stores (R311) -/

section Entry
variable (s : State) {hart addr : Nat} (howned : s.l1Owned hart (addr / 64) = false) (data : List Byte)
include howned

/-- Bytes for a line that has an entry merge into it. -/
theorem State.ntPut_merges (hentry : (s.hart hart).nt.any (fun e => e.line = addr / 64) = true) :
    s.ntPut hart addr data = s.updHart hart (fun x =>
      { x with nt := x.nt.map (fun e => if e.line = addr / 64 then e.put (addr % 64) data else e) }) := by
  simp only [State.ntPut, howned, hentry]
  rfl

/-- Bytes for a line take a new entry of an empty buffer. -/
theorem State.ntPut_fresh (hempty : (s.hart hart).nt = []) :
    s.ntPut hart addr data = s.updHart hart (fun x =>
      { x with nt := x.nt ++ [NtEnt.put ⟨addr / 64, List.replicate 64 0, 0⟩ (addr % 64) data] }) := by
  simp only [State.ntPut, howned, hempty]
  rfl

end Entry

section NonTemporal
variable (s : State) {hart addr : Nat} {data : List Byte} (hruns : s.hartRuns hart = true)
  (hfree : s.fenced hart addr true = false) (hissue : s.issuable addr data.length = true) (hmem : isMemKind addr = true)
include hruns hfree hissue hmem

/-- A non-temporal store that no line boundary cuts goes to one entry. -/
theorem effNtStore_oneLine (hline : addr % 64 + data.length ≤ 64) : effNtStore hart addr data s = s.ntPut hart addr data := by
  have hwhole : min data.length (64 - addr % 64) = data.length := by omega
  simp [effNtStore, hruns, hfree, hissue, hmem, hwhole]

/-- One that crosses a line boundary goes to the entries of both lines. -/
theorem effNtStore_twoLines (hcross : 64 < addr % 64 + data.length) :
    effNtStore hart addr data s = (s.ntPut hart addr (data.take (64 - addr % 64))).ntPut hart (addr + (64 - addr % 64))
      (data.drop (64 - addr % 64)) := by
  have hfirst : min data.length (64 - addr % 64) = 64 - addr % 64 := by omega
  have hmore : 64 - addr % 64 < data.length := by omega
  simp [effNtStore, hruns, hfree, hissue, hmem, hfirst, hmore]

end NonTemporal

theorem effNtIdleDrain_up (s : State) {hart : Nat} (hhart : hart < 64) (hup : s.dieUp (hartDie hart) = true) :
    effNtIdleDrain hart s = s.drainNt hart (fun _ => true) := by
  simp [effNtIdleDrain, hhart, hup]

/-- Settles O27: each command is the sealed effect, and an access that may be issued goes where its address and its line say. -/
theorem hartAccesses : Obligations.HartAccesses := by
  intro s hart addr pbmt data
  refine ⟨?load, ?register, ?store, ?performed, ?failure, ?nonTemporal, ?twoLines, ?idle⟩
  case load =>
    intro len hruns hfree hpos hlen hreg hissue hline
    rw [exec_hartLoad, effHartLoad_oneLine s hruns hfree hpos hlen hreg hissue hline]
  case register =>
    intro hruns hfree hrange hlocal haligned hstores
    rw [exec_hartLoad, effHartLoad_register s hruns hfree hrange hlocal haligned hstores]
  case store =>
    intro hruns hfree hpos hlen hreg hissue hslab
    rw [exec_hartStore, effHartStore_retires s hruns hfree hpos hlen hreg hissue hslab]
  case performed =>
    intro id e hfind hsent hturn hfailing hup
    rw [exec_storePerformed]
    refine ⟨fun hlocal hrange => ?_, fun hreg hplace hnear hnoHost =>
      ⟨fun die core off hregion hdie hport => ?_, fun die off hregion => ?_⟩⟩
    · rw [effStorePerformed_register s hfind hsent hturn hfailing hup hlocal hrange]
    · rw [effStorePerformed_slab s hfind hsent hturn hfailing hup hreg hplace hnear hnoHost hregion hdie hport]
    · rw [effStorePerformed_stack s hfind hsent hturn hfailing hup hreg hplace hnear hnoHost hregion]
  case failure =>
    intro id kind at_ rest hfailing hvalid
    rw [exec_remoteStoreFailure, effRemoteStoreFailure_recorded s hfailing hvalid]
  case nonTemporal =>
    intro hruns hfree hissue hmem hline howned
    rw [exec_ntStore, effNtStore_oneLine s hruns hfree hissue hmem hline]
    refine ⟨fun hentry => ?_, fun hempty => ?_⟩
    · rw [s.ntPut_merges howned data hentry]
    · rw [s.ntPut_fresh howned data hempty]
  case twoLines =>
    intro hruns hfree hissue hmem _ hcross
    rw [exec_ntStore, effNtStore_twoLines s hruns hfree hissue hmem hcross]
  case idle =>
    intro hhart hup
    rw [exec_ntIdleDrain, effNtIdleDrain_up s hhart hup]

end Sys2Proof.Machine
end

section
/-!
The fences, reservations and atomics of a hart (11_memory_ordering.md R310, R312, R313): what each effect does in the state that
the statement names.
-/
namespace Sys2Proof.Machine

/-! ## The commands -/

section Commands
variable (s : State) (hart addr : Nat) (data : List Byte)

theorem exec_fence (pred succ : Nat) : exec (.fence hart pred succ) s = .next (s.sealed (effFence hart pred succ s)) := rfl

theorem exec_fenceComplete : exec (.fenceComplete hart) s = .next (s.sealed (effFenceComplete hart s)) := rfl

theorem exec_lr (len : Nat) (constrained : Bool) :
    exec (.lr hart addr len constrained) s = .next (s.sealed (effLr hart addr len constrained s)) := rfl

theorem exec_sc : exec (.sc hart addr data) s = .next (s.sealed (effSc hart addr data s)) := rfl

theorem exec_amo (code : Nat) : exec (.amo hart addr code data) s = .next (s.sealed (effAmo hart addr code data s)) := rfl

theorem exec_snoopDeferralExpiry :
    exec (.snoopDeferralExpiry hart) s = .next (s.sealed (effSnoopDeferralExpiry hart s)) := rfl

end Commands

/-! ## Fences (R310) -/

/-- A FENCE stands until its predecessors are performed; with w among them it drains what the hart has not yet sent. -/
theorem effFence_begins (s : State) {hart : Nat} (pred succ : Nat) (hruns : s.hartRuns hart = true)
    (hnone : (s.hart hart).fence = none) (hidle : (s.hart hart).mdrain = false) {u : State}
    (hu : u = s.updHart hart (fun x => { x with fence := some (pred % 16 + 16 * (succ % 16)) })) :
    effFence hart pred succ s =
      if pred / 2 % 2 = 1 then (u.drainNt hart (fun _ => true)).fenceMerge hart else u := by
  simp [effFence, hruns, hnone, hidle, hu]

theorem effFenceComplete_met (s : State) {hart f : Nat} (hfence : (s.hart hart).fence = some f)
    (hmet : s.fenceMet hart (f % 16) = true) :
    effFenceComplete hart s = s.updHart hart (fun x => { x with fence := none }) := by
  simp [effFenceComplete, hfence, hmet]

/-! ## Reservations and atomics (R312, R313) -/

section Atomic
variable (s : State) {u : State} {hart addr : Nat} (hruns : s.hartRuns hart = true) (hu : u = s.drainNtLine hart addr)
  (hown : u.ownStores hart addr = false)
include hruns hu hown

/-- LR obtains its line, once the hart has no store to it in its buffers. -/
theorem effLr_obtains {len : Nat} (hfree : s.fenced hart addr false = false) (hpos : 0 < len) (haligned : addr % len = 0)
    (hok : s.atomicOk hart addr len = true) (constrained : Bool) :
    effLr hart addr len constrained s = u.tryLine (s.hartReq hart addr len .lr [] (b2n constrained)) := by
  simp [effLr, hruns, hfree, hpos.ne', haligned, hok, ← hu, hown]

section Data
variable {data : List Byte} (hfree : s.fenced hart addr true = false) (hdata : data ≠ []) (haligned : addr % data.length = 0)
include hfree hdata haligned

/-- SC goes on where the hart holds its reservation on the granule, and fails at once elsewhere. -/
theorem effSc_byReservation (hok : s.atomicOk hart addr data.length = true) :
    effSc hart addr data s =
      if (u.hart hart).resv = some (addr / 64) then u.tryLine (s.hartReq hart addr data.length .sc data 0)
      else ((u.updHart hart (fun x => { x with resv := none, deferring := false })).hartEvent hart 0x17 1).emit
        (.data (.hart hart) addr [1] false) := by
  simp [effSc, hruns, hfree, hdata, haligned, hok, ← hu, hown]

/-- An AMO of this package's memory obtains its line; it reads and it writes. -/
theorem effAmo_obtains (hfreeRead : s.fenced hart addr false = false) (hnear : u.remoteOf addr = none)
    (hok : u.atomicOk hart addr data.length = true) (code : Nat) :
    effAmo hart addr code data s = u.tryLine (s.hartReq hart addr data.length .amo data code) := by
  simp [effAmo, hruns, hfree, hfreeRead, hdata, haligned, ← hu, hnear, hok, hown]

end Data
end Atomic

/-- The deferred snoop is answered, where no other hart of the cache defers it (R312). -/
theorem effSnoopDeferralExpiry_answers (s : State) {u t : State} {hart line : Nat} {m : Msg}
    (hresv : (s.hart hart).resv = some line) (hdefers : (s.hart hart).deferring = true)
    (hu : u = s.updHart hart (fun x => { x with deferring := false })) (hlast : u.deferred (hart / 32) line = false)
    (htake : u.takeMsg .snpInv (hart / 32) line = some (m, t)) :
    effSnoopDeferralExpiry hart s = t.answerSnoop (hart / 32) line true := by
  simp [effSnoopDeferralExpiry, hresv, hdefers, ← hu, hlast, htake]

/-- Settles O28: each command is the sealed effect, and an atomic works on its line once the hart's own bytes for it have left its
buffers. -/
theorem hartOrderAndAtomics : Obligations.HartOrderAndAtomics := by
  intro s hart addr data
  refine ⟨?fence, ?complete, ?lr, ?sc, ?amo, ?expiry⟩
  case fence =>
    intro pred succ u hruns hnone hidle hu
    rw [exec_fence, effFence_begins s pred succ hruns hnone hidle hu]
    exact ⟨fun hw => by rw [if_pos hw], fun hw => by rw [if_neg (by omega)]⟩
  case complete =>
    intro f hfence hmet
    rw [exec_fenceComplete, effFenceComplete_met s hfence hmet]
  case lr =>
    intro len u constrained hruns hfree hpos haligned hok hu hown
    rw [exec_lr, effLr_obtains s hruns hu hown hfree hpos haligned hok]
  case sc =>
    intro u hruns hfree hdata haligned hok hu hown
    rw [exec_sc, effSc_byReservation s hruns hu hown hfree hdata haligned hok]
    exact ⟨fun hheld => by rw [if_pos hheld], fun hlost => by rw [if_neg hlost]⟩
  case amo =>
    intro code u hruns hfree hfreeRead hdata haligned hu hnear hok hown
    rw [exec_amo, effAmo_obtains s hruns hu hown hfree hdata haligned hfreeRead hnear hok]
  case expiry =>
    intro line u m t hresv hdefers hu hlast htake
    rw [exec_snoopDeferralExpiry, effSnoopDeferralExpiry_answers s hresv hdefers hu hlast htake]

end Sys2Proof.Machine
end

section
/-!
The commands that take a hart offline, interrupt it, check its timer and debug it (12_headland_cores.md R335 to R340): what each effect
does in the state that the statement names.
-/
namespace Sys2Proof.Machine

section Commands
variable (s : State) (hart : Nat)

theorem exec_hartOffline : exec (.hartOffline hart) s = .next (s.sealed (effHartOffline hart s)) := rfl

theorem exec_hartOfflineDone : exec (.hartOfflineDone hart) s = .next (s.sealed (effHartOfflineDone hart s)) := rfl

theorem exec_msiWrite (file eiid : Nat) :
    exec (.msiWrite hart file eiid) s = .next (s.sealed (effMsiWrite hart file eiid s)) := rfl

theorem exec_machineTimer : exec (.machineTimer hart) s = .next (s.sealed (effMachineTimer hart s)) := rfl

theorem exec_debugHalt : exec (.debugHalt hart) s = .next (s.sealed (effDebugHalt hart s)) := rfl

theorem exec_debugResume : exec (.debugResume hart) s = .next (s.sealed (effDebugResume hart s)) := rfl

end Commands

section Hart
variable (s : State) {hart : Nat} (hhart : hart < 64)
include hhart

/-- A write of HL_CTRL.OFFLINE begins the offlining, with the cause of such a write, 0x3 (R337, R340). -/
theorem effHartOffline_begins :
    effHartOffline hart s = (s.fset (hartDie hart) (hlRef hart HL_CTRL.OFFLINE) 1).offline hart 3 :=
  if_neg hhart.not_ge

/-- A hart that goes offline and has no store left leaves the caches, records its cause and sends its notice (R337). -/
theorem effHartOfflineDone_drained (hgoing : s.hlState hart = 2) (hstores : (s.hart hart).stores = [])
    (hnt : (s.hart hart).nt = []) (hfailing : (s.hart hart).failing = []) {u : State}
    (hu : u = ({ s with
      l1 := (s.l1.map (fun (e : Nat × List (Nat × Bool)) => (e.1, e.2.filter (fun (p : Nat × Bool) => decide (p.1 ≠ hart))))).filter
        (fun e => decide (e.2 ≠ [])),
      mshrs := s.mshrs.filter (fun r => r.hart ≠ some hart) } : State).fsets (hartDie hart)
        [(hlRef hart HL_CTRL.STATE, 3), (hlRef hart HL_CTRL.CAUSE, (s.hart hart).stopping)]) :
    effHartOfflineDone hart s =
      (u.logErr (hartDie hart) 3 0x08 hart 0x3 (s.hart hart).stopping).notify (u.rd (hartDie hart) (hart % 32) 0x008) := by
  rw [hu]
  exact if_neg (by simp [hhart.not_ge, hgoing, hstores, hnt, hfailing])

section Msi
variable {file eiid : Nat} (hfile : file < 6) (hpos : 0 < eiid) (hident : eiid < 256)
include hfile hpos hident

/-- An MSI to an offline hart is discarded and counted (R338). -/
theorem effMsiWrite_dropped (hoff : s.hlState hart = 3) :
    effMsiWrite hart file eiid s =
      ({ s with msis := s.msis.erase ⟨hart, file, eiid⟩ } : State).finc (hartDie hart) (hlRef hart HL_CTRL.MSI_DROP) := by
  simp [effMsiWrite, hhart.not_ge, hfile.not_ge, hpos.ne', hident.not_ge, hoff]

/-- An MSI whose identity is not yet pending makes it pending in its file (R335). -/
theorem effMsiWrite_pending (hon : s.hlState hart ≠ 3) (hclear : mapGet 0 s.imsic (hart * 8 + file) / 2 ^ eiid % 2 = 0) :
    effMsiWrite hart file eiid s =
      { s with
        msis := s.msis.erase ⟨hart, file, eiid⟩,
        imsic := mapSet s.imsic (hart * 8 + file) (mapGet 0 s.imsic (hart * 8 + file) + 2 ^ eiid) } := by
  simp [effMsiWrite, hhart.not_ge, hfile.not_ge, hpos.ne', hident.not_ge, hon, hclear]

end Msi

theorem effMachineTimer_checks : effMachineTimer hart s = s.timerCheck hart := if_pos hhart

/-- A debug module that is authenticated resumes a hart that it has halted (R339). -/
theorem effDebugResume_halted (hhalted : s.hlState hart = 1) (hdebug : s.debugOn.contains (hartDie hart) = true) :
    effDebugResume hart s = s.fset (hartDie hart) (hlRef hart HL_CTRL.STATE) 0 := by
  simp only [effDebugResume, hhart, hhalted, hdebug]
  rfl

end Hart

/-- A debug module that is authenticated halts a running hart (R339). -/
theorem effDebugHalt_running (s : State) {hart : Nat} (hruns : s.hartRuns hart = true)
    (hdebug : s.debugOn.contains (hartDie hart) = true) :
    effDebugHalt hart s = s.fset (hartDie hart) (hlRef hart HL_CTRL.STATE) 1 := by
  simp only [effDebugHalt, hruns, hdebug]
  rfl

/-- Settles O30: each command is the sealed effect, which takes the branch that the state of the hart names. -/
theorem hartControl : Obligations.HartControl := by
  intro s hart hhart
  refine ⟨?offline, ?done, ?msi, ?timer, ?halt, ?resume⟩
  case offline => rw [exec_hartOffline, effHartOffline_begins s hhart]
  case done =>
    intro u hgoing hstores hnt hfailing hu
    rw [exec_hartOfflineDone, effHartOfflineDone_drained s hhart hgoing hstores hnt hfailing hu]
  case msi =>
    intro file eiid hfile hpos hident
    rw [exec_msiWrite]
    refine ⟨fun hoff => ?_, fun hon hclear => ?_⟩
    · rw [effMsiWrite_dropped s hhart hfile hpos hident hoff]
    · rw [effMsiWrite_pending s hhart hfile hpos hident hon hclear]
  case timer => rw [exec_machineTimer, effMachineTimer_checks s hhart]
  case halt =>
    intro hruns hdebug
    rw [exec_debugHalt, effDebugHalt_running s hruns hdebug]
  case resume =>
    intro hhalted hdebug
    rw [exec_debugResume, effDebugResume_halted s hhart hhalted hdebug]

end Sys2Proof.Machine
end

section
/-!
The I3C target and the system bus of a debug module (12_headland_cores.md R339; 22_package_signals.md R611, R614): what each effect
does with an access that may be made.
-/
namespace Sys2Proof.Machine

section Commands
variable (s : State)

theorem exec_i3cAddressWrite (addr : Word) :
    exec (.i3cAddressWrite addr) s = .next (s.sealed (effI3cAddressWrite addr s)) := rfl

theorem exec_i3cRegisterWrite (addr w : Word) :
    exec (.i3cRegisterWrite addr w) s = .next (s.sealed (effI3cRegisterWrite addr w s)) := rfl

theorem exec_i3cPrivateRead : exec .i3cPrivateRead s = .next (s.sealed (effI3cPrivateRead s)) := rfl

theorem exec_systemBusAccess (q addr len : Nat) (write : Bool) (data : List Byte) :
    exec (.systemBusAccess q addr len write data) s = .next (s.sealed (effSystemBusAccess q addr len write data s)) := rfl

end Commands

/-! ## The I3C target (R611) -/

/-- The target is served from the moment the package has power, through resets and stops. -/
theorem State.mayAccess_i3c (s : State) (hpower : s.power.phase ≠ .off) : s.mayAccess .i3c = true := decide_eq_true hpower

section I3c
variable (s : State) (hmay : s.mayAccess .i3c = true)
include hmay

theorem effI3cAddressWrite_held (addr : Word) : effI3cAddressWrite addr s = { s with i3c := some addr.toNat } := if_pos hmay

theorem effI3cRegisterWrite_open {addr : Word} (hopen : i3cOpen addr.toNat = true) (w : Word) :
    effI3cRegisterWrite addr w s = s.regPut .i3c addr.toNat 8 w := by
  simp [effI3cRegisterWrite, hmay, hopen]

/-- A read takes the address that is held, which the target then forgets. -/
theorem effI3cPrivateRead_held {a : Nat} (hheld : s.i3c = some a) (hopen : i3cOpen a = true) :
    effI3cPrivateRead s = ({ s with i3c := none } : State).regGet .i3c a 8 := by
  simp [effI3cPrivateRead, hmay, hheld, hopen]

end I3c

/-! ## The system bus of a debug module (R339, R614) -/

/-- An access of 1, 2, 4, 8 or 16 bytes passes the check of its size. -/
theorem busSize_accepted {n : Nat} (hsize : n = 1 ∨ n = 2 ∨ n = 4 ∨ n = 8 ∨ n = 16) :
    (n ≠ 1 && n ≠ 2 && n ≠ 4 && n ≠ 8 && n ≠ 16) = false := by
  simp only [ne_eq, decide_not, Bool.and_eq_false_iff, Bool.not_eq_false', decide_eq_true_eq]
  omega

section SystemBus
variable (s : State) {q addr : Nat} (hq : q < 2) (hmay : s.mayAccess (.debug q) = true)
include hq hmay

section Register
variable (hreg : isRegAddr addr = true) (haligned : addr % 8 = 0)
include hreg haligned

theorem effSystemBusAccess_registerWrite (len : Nat) {data : List Byte} (hdata : data.length = 8) :
    effSystemBusAccess q addr len true data s = s.regPut (.debug q) addr 8 (BitVec.ofNat 64 (leNat data)) := by
  simp [effSystemBusAccess, hq.not_ge, hmay, hreg, haligned, hdata]

theorem effSystemBusAccess_registerRead (data : List Byte) :
    effSystemBusAccess q addr 8 false data s = s.regGet (.debug q) addr 8 := by
  simp [effSystemBusAccess, hq.not_ge, hmay, hreg, haligned]

end Register

section Memory
variable (hmem : isRegAddr addr = false)
include hmem

/-- Memory is not accessed while the package is stopped or in reset (R614). -/
theorem effSystemBusAccess_closed (hclosed : s.closed = true) (len : Nat) (write : Bool) (data : List Byte) :
    effSystemBusAccess q addr len write data s =
      ({ s with sberr := mapSet s.sberr q 7 } : State).emit (.refused (.debug q) addr) := by
  simp [effSystemBusAccess, hq.not_ge, hmay, hmem, hclosed]

variable (hrunning : s.closed = false) {data : List Byte} {t : State}
include hrunning

theorem effSystemBusAccess_memoryWrite (len : Nat)
    (hsize : data.length = 1 ∨ data.length = 2 ∨ data.length = 4 ∨ data.length = 8 ∨ data.length = 16)
    (haligned : addr % data.length = 0) (hwrite : s.anyWrite (engOf (4 + q)) addr data false = some (true, t)) :
    effSystemBusAccess q addr len true data s = t.emit (.done (.debug q) addr) := by
  simp only [effSystemBusAccess, hmay, hmem, hrunning, Bool.false_eq_true, ↓reduceIte, busSize_accepted hsize, haligned, hwrite]
  exact if_neg (by simp [hq])

theorem effSystemBusAccess_memoryRead {len : Nat} {d : List Byte} {p : Bool}
    (hsize : len = 1 ∨ len = 2 ∨ len = 4 ∨ len = 8 ∨ len = 16)
    (haligned : addr % len = 0) (hread : s.anyRead (engOf (4 + q)) addr len = (.got d p, t)) :
    effSystemBusAccess q addr len false data s = t.emit (.data (.debug q) addr d p) := by
  simp only [effSystemBusAccess, hmay, hmem, hrunning, Bool.false_eq_true, ↓reduceIte, busSize_accepted hsize, haligned, hread]
  exact if_neg (by simp [hq])

end Memory
end SystemBus

/-- Settles O49: each command is the sealed effect, and an access that may be made goes where its address says. -/
theorem managementBuses : Obligations.ManagementBuses := by
  intro s
  refine ⟨fun hpower => ?i3c, fun q addr len data hq hmay => ⟨?register, ?closed, ?memory⟩⟩
  case i3c =>
    have hmay := s.mayAccess_i3c hpower
    refine ⟨fun addr => ?_, fun addr w hopen => ?_, fun a hheld hopen => ?_⟩
    · rw [exec_i3cAddressWrite, effI3cAddressWrite_held s hmay]
    · rw [exec_i3cRegisterWrite, effI3cRegisterWrite_open s hmay hopen]
    · rw [exec_i3cPrivateRead, effI3cPrivateRead_held s hmay hheld hopen]
  case register =>
    intro hreg haligned
    rw [exec_systemBusAccess, exec_systemBusAccess, effSystemBusAccess_registerRead s hq hmay hreg haligned]
    exact ⟨fun hdata => by rw [effSystemBusAccess_registerWrite s hq hmay hreg haligned len hdata], rfl⟩
  case closed =>
    intro hmem hclosed write
    rw [exec_systemBusAccess, effSystemBusAccess_closed s hq hmay hmem hclosed]
  case memory =>
    intro hmem hrunning
    refine ⟨fun t hsize haligned hwrite => ?_, fun d p t hsize haligned hread => ?_⟩
    · rw [exec_systemBusAccess, effSystemBusAccess_memoryWrite s hq hmay hmem hrunning len hsize haligned hwrite]
    · rw [exec_systemBusAccess, effSystemBusAccess_memoryRead s hq hmay hmem hrunning hsize haligned hread]

end Sys2Proof.Machine
end

section
/-!
What every step keeps (95_what_each_step_holds.md): each command is the sealed effect, so the queue is the step's alone and THERM_ALERT_N
follows its condition (R508, R609; log entry 35), the queue drains in order (log entry 50), and a reset leaves the pin high.
-/
namespace Sys2Proof.Machine

/-! ## The seal of a command -/

section Sealed
variable (s t : State)

@[simp] theorem State.sealed_pending : (s.sealed t).pending = s.pending := rfl

@[simp] theorem State.sealed_alertN : (s.sealed t).alertN = !t.thermAlert := rfl

/-- The condition of THERM_ALERT_N reads nothing that the seal sets. -/
@[simp] theorem State.sealed_thermAlert : (s.sealed t).thermAlert = t.thermAlert := rfl

/-- The pin of a sealed state is low exactly while its own condition holds. -/
theorem State.sealed_alertN_eq : (s.sealed t).alertN = !(s.sealed t).thermAlert := rfl

end Sealed

/-- No command stops the block: each of the 327 rows answers its effect, sealed. -/
theorem exec_eq_sealed (i : Instr) (s : State) : ∃ e, exec i s = .next (s.sealed e) := by
  cases i <;> exact ⟨_, rfl⟩

/-- A command completes with its effect. What the effect is follows from the command's row, by the dispatch alone. -/
theorem exec_of_effect {i : Instr} {s e t : State} (heffect : e = t) (hrow : exec i s = .next (s.sealed e) := by rfl) :
    exec i s = .next (s.sealed t) := by
  rw [hrow, heffect]

/-! ## Steps -/

theorem step_idle {s : State} (hnone : s.pending = []) : step s = .next s := by
  simp only [step, hnone]

theorem step_front {c : Instr} {rest : List Instr} {s : State} (hfront : s.pending = c :: rest) :
    step s = exec c { s with pending := rest } := by
  simp only [step, hfront]

/-- A step takes the command at the front and leaves a sealed state with the rest of the queue. -/
theorem step_front_sealed {c : Instr} {rest : List Instr} {s : State} (hfront : s.pending = c :: rest) :
    ∃ e, step s = .next (({ s with pending := rest } : State).sealed e) := by
  rw [step_front hfront]
  exact exec_eq_sealed c _

theorem runSteps_succ {s t : State} (hstep : step s = .next t) (n : Nat) : runSteps (n + 1) s = runSteps n t := by
  simp only [runSteps, hstep]

/-- Settles O50: the step looks at nothing but the front of the queue. -/
theorem stepRunsTheFrontCommand : Obligations.StepRunsTheFrontCommand := fun _ _ _ hfront => step_front hfront

/-- Settles O51: the empty queue is the other case of a step. -/
theorem idleStep : Obligations.IdleStep := fun _ hnone => step_idle hnone

/-- Settles O54: an idle step changes nothing; a step with a command ends in a sealed state, whose pin follows its condition and whose
queue is a tail of the well-formed queue before. -/
theorem everyStepKeepsInv : Obligations.EveryStepKeepsInv := by
  intro s t hinv hstep
  obtain ⟨halert, hwf⟩ := hinv
  cases hqueue : s.pending with
  | nil =>
    obtain rfl : s = t := by simpa [step_idle hqueue] using hstep
    exact ⟨halert, hwf⟩
  | cons c rest =>
    obtain ⟨e, he⟩ := step_front_sealed hqueue
    obtain rfl : ({ s with pending := rest } : State).sealed e = t := by simpa [he] using hstep
    rw [hqueue, List.all_cons, Bool.and_eq_true] at hwf
    exact ⟨State.sealed_alertN_eq _ e, hwf.2⟩

/-- Settles O55: each step answers and drops the front command, by induction on the number of steps. -/
theorem queueDrainsInOrder : Obligations.QueueDrainsInOrder := by
  intro s n
  induction n generalizing s with
  | zero => exact fun _ => ⟨s, rfl, rfl⟩
  | succ n ih =>
    intro hn
    cases hqueue : s.pending with
    | nil => simp [hqueue] at hn
    | cons c rest =>
      obtain ⟨e, he⟩ := step_front_sealed hqueue
      rw [runSteps_succ he]
      exact ih _ (by simpa [hqueue] using hn)

/-! ## THERM_ALERT_N -/

/-- The condition of THERM_ALERT_N, spelled out (R508). -/
theorem State.thermAlert_iff (s : State) :
    s.thermAlert = true ↔
      (∃ d, d < 6 ∧ ((s.dieP d).therm < 15 ∨ (s.dieP d).neigh < 15)) ∨ s.fget shDie PKG_CAPSTAT.OVER_CAP = 1 ∨
      (s.fget s.arb EVT_STATUS.STOPPED = 1 ∧ 4 ≤ s.fget s.arb EVT_STATUS.STOP_SRC) := by
  simp [State.thermAlert, State.isStopped, State.fbit, or_assoc]

/-- A map whose entries keep their keys where they stay lists nothing at a key of which every entry goes. -/
theorem mapGet_filterMap_dropped {α : Type} (d : α) (m : SMap α) (k : Nat) (f : Nat × α → Option (Nat × α))
    (hkeeps : ∀ e e', f e = some e' → e'.1 = e.1) (hdrops : ∀ v, f (k, v) = none) : mapGet d (m.filterMap f) k = d := by
  induction m with
  | nil => rfl
  | cons e m ih =>
    cases hf : f e with
    | none => rw [List.filterMap_cons_none hf, ih]
    | some e' =>
      have hne : e'.1 ≠ k := by
        rintro rfl
        rw [hkeeps e e' hf, ← Prod.mk.eta (p := e)] at hdrops
        simpa [hf] using hdrops e.2
      rw [List.filterMap_cons_some hf, mapGet, if_neg hne, ih]

/-- A register that a package reset does not keep reads its reset word after it (R509, R510). -/
theorem State.rd_packageReset (s : State) {die blk off : Nat} (hfuse : regKey die blk off ≠ regKey shDie 0x180 0x008)
    (hstl : regKey die blk off ≠ regKey 4 0x1A0 0x000) (hseq : regKey die blk off ≠ regKey 4 0x1A0 0x008)
    (hdie : isC (regKey die blk off / 2 ^ 32) = false) :
    s.packageReset.rd die blk off = resetWord die blk off := by
  apply mapGet_filterMap_dropped
  · intro e e' he
    simp only at he
    split_ifs at he <;> simp_all
    all_goals cases he; rfl
  · intro v
    simp [-Nat.reducePow, hfuse, hstl, hseq, hdie]

/-- After a package reset the arbiter is Q0's, which has not lost its peer. -/
theorem State.arb_packageReset (s : State) : s.packageReset.arb = 4 := by
  have hlost : s.packageReset.rd 5 0x1C0 ERR_STATUS.PEER_LOST.off = resetWord 5 0x1C0 ERR_STATUS.PEER_LOST.off :=
    s.rd_packageReset (by decide) (by decide) (by decide) (by decide)
  simp only [State.arb, State.fbit, State.fget, FieldRef.inBlk, hlost]
  decide +kernel

/-- After a package reset no ceiling stands, no cap is exceeded and nothing has stopped the package. -/
theorem State.thermAlert_packageReset (s : State) : s.packageReset.thermAlert = false := by
  have hcool : ∀ d, s.packageReset.dieP d = DiePower.reset := fun _ => rfl
  have hcap : s.packageReset.rd shDie 0x180 0x88 = resetWord shDie 0x180 0x88 :=
    s.rd_packageReset (by decide) (by decide) (by decide) (by decide)
  have hstop : s.packageReset.rd 4 0x190 0x0 = resetWord 4 0x190 0x0 :=
    s.rd_packageReset (by decide) (by decide) (by decide) (by decide)
  simp only [State.thermAlert, State.isStopped, State.fbit, State.fget, State.arb_packageReset, hcool, PKG_CAPSTAT.OVER_CAP,
    EVT_STATUS.STOPPED, EVT_STATUS.STOP_SRC, hcap, hstop]
  decide +kernel

/-- Settles O56: every command ends in a sealed state, whose pin reads the condition (log entry 35); a package reset leaves the
condition false. -/
theorem thermAlertAfterEveryCommand : Obligations.ThermAlertAfterEveryCommand := by
  refine ⟨fun i s => ?_, rfl, fun s => ?_⟩
  · obtain ⟨e, he⟩ := exec_eq_sealed i s
    refine ⟨_, he, rfl, ?_⟩
    rw [State.sealed_alertN_eq, Bool.not_eq_false', State.thermAlert_iff]
  · rw [State.sealed_alertN, s.thermAlert_packageReset]
    rfl

/-- At reset no register has been written, so the condition of THERM_ALERT_N reads reset words alone. -/
theorem State.thermAlert_reset : State.reset.thermAlert = false := by decide +kernel

/-- Settles O53: at reset the pin is high, nothing waits, and the memories list no byte. -/
theorem resetMeetsInv : Obligations.ResetMeetsInv := by
  refine ⟨⟨?_, rfl⟩, rfl, rfl, rfl⟩
  rw [State.thermAlert_reset]
  rfl

end Sys2Proof.Machine
end

section
/-!
The Shelf's initialisation and the tidal engine (13_shelf_and_tidal_range.md R352, R353, R356, R361): what each effect does where the
engine is idle and the page allows the command, and how a migration goes on.
-/
namespace Sys2Proof.Machine

theorem effShelfInitDone_initialising (s : State) (hinit : s.fbit shDie SHF_SPLIT.INIT = true) :
    effShelfInitDone s = (foldN 64 (fun (t : State) ch => t.shelfZero ch) s).fset shDie SHF_SPLIT.INIT 0 :=
  if_neg (by simp [hinit])

/-! ## The commands of an idle engine (R352) -/

section Command
variable (s : State) (hidle : s.fbit shDie TDL_CMD.BUSY = false) {page : Nat} {p : Page} {t u : State}
include hidle

/-- An idle engine takes the command that is written (R364). -/
theorem State.tdlCmd_idle (op page account : Nat) (f : State → State) : s.tdlCmd op page account f = f (s.tdlStart op page account) :=
  if_neg (by simp [hidle])

/-- A page that is not yet allocated gets a zeroed pool slot, within the limit of its account. The slot taken is a free one (log entry
14). -/
theorem effAlloc_allocates {account n : Nat} (ht : t = s.tdlStart 1 page account) (hpage : page < t.pageCount)
    (hnew : mapFind t.remap page = none)
    (hlimit : bits (t.rd shDie 0x060 (0x100 + 8 * (account % 64))) 63 44 <
      bits (t.rd shDie 0x060 (0x100 + 8 * (account % 64))) 19 0) (hslot : t.freePool = (some (.pool n), u)) :
    effAlloc page account s = ((u.zeroPool n).setPage page ⟨.pool n, account % 64, 0, false⟩).tdlEnd 0 := by
  have hfree : ¬ (t.pageCount ≤ page || (mapFind t.remap page).isSome) = true := by simp [hpage, hnew]
  simp only [effAlloc, s.tdlCmd_idle hidle, ← ht, if_neg hfree, if_neg hlimit.not_ge, hslot]

theorem effFree_migrates (ht : t = s.tdlStart 2 page 0) (hp : t.page page = some p) :
    effFree page s = t.migrate 2 page p p.slot none := by
  simp only [effFree, s.tdlCmd_idle hidle, ← ht, hp]

/-- A page of the pool moves to a free slot of the reserve. -/
theorem effFlood_migrates {n : Nat} {dst : Slot2M} (ht : t = s.tdlStart 3 page 0) (hp : t.page page = some p) (hslot : p.slot = .pool n)
    (hreserve : t.reserve ≠ 0) (hdst : t.freeReserve = (some dst, u)) :
    effFlood page s = u.migrate 3 page p dst none := by
  simp only [effFlood, s.tdlCmd_idle hidle, ← ht, hp, hslot, if_neg hreserve, hdst]

/-- A page of the reserve moves to a free slot of the pool. -/
theorem effEbb_migrates {n : Nat} {dst : Slot2M} (ht : t = s.tdlStart 4 page 0) (hp : t.page page = some p)
    (hslot : p.slot = .reserve n) (hdst : t.freePool = (some dst, u)) :
    effEbb page s = u.migrate 4 page p dst none := by
  simp only [effEbb, s.tdlCmd_idle hidle, ← ht, hp, hslot, hdst]

theorem effQuery_allocated (ht : t = s.tdlStart 5 page 0) (hpage : page < t.pageCount) (hp : t.page page = some p) :
    effQuery page s = (t.wr shDie 0x060 0x010 p.word).tdlEnd 0 := by
  simp only [effQuery, s.tdlCmd_idle hidle, ← ht, hp, if_neg hpage.not_ge]

end Command

/-! ## A migration (R353) -/

section Migration
variable (s : State) (hsrc : s.slotUp s.tdl.src = true) (hdst : s.slotUp s.tdl.dst = true)
include hsrc hdst

/-- The acknowledgement of a die is kept; the last one starts the recall of the page's lines. -/
theorem effMigrationAck_awaited {die : Nat} (hphase : s.tdl.phase = 1) (hdie : die < 6) (hup : s.dieUp die = true)
    (hnew : s.tdl.acks.contains die = false) (hdone : s.pageBusy s.tdl.page die = false) :
    effMigrationAck die s =
      if (List.range 6).all (fun d => (die :: s.tdl.acks).contains d || !s.dieUp d) then
        ({ s with tdl := { s.tdl with acks := die :: s.tdl.acks, phase := 2 } } : State).recallPage s.tdl.page
      else { s with tdl := { s.tdl with acks := die :: s.tdl.acks } } := by
  have awaited : ¬ (s.tdl.phase ≠ 1 || 6 ≤ die || !s.dieUp die || s.tdl.acks.contains die || s.pageBusy s.tdl.page die) = true := by
    simp [-List.contains_eq_mem, hphase, hdie.not_ge, hup, hnew, hdone]
  simp only [effMigrationAck, if_neg awaited, hsrc, hdst, Bool.not_true, Bool.or_self, Bool.false_eq_true, if_false]

section Uncached
variable (hphase : s.tdl.phase = 2) (htxns : s.txns.any (fun t => inPage s.tdl.page t.1) = false)
  (hdir : s.dir.any (fun e => inPage s.tdl.page e.1) = false)
include hphase htxns hdir

/-- Once no line of the page is cached, a FREE drops the page. -/
theorem effMigrationCopyDone_frees {p a : Nat} (hcmd : s.tdl.cmd = some (2, p, a)) :
    effMigrationCopyDone s = (({ s with remap := mapErase s.remap p } : State).wake).tdlEnd 0 := by
  simp [effMigrationCopyDone, hphase, hsrc, hdst, htxns, hdir, hcmd]

/-- Once no line of the page is cached, a FLOOD or an EBB copies it and flips its entry. -/
theorem effMigrationCopyDone_copies (hcmd : ∀ c, s.tdl.cmd = some c → c.1 ≠ 2) :
    effMigrationCopyDone s = (s.copyPage s.tdl.src s.tdl.dst).flip := by
  have other : ∀ p a, s.tdl.cmd = some (2, p, a) → False := fun p a h => hcmd _ h rfl
  simp [effMigrationCopyDone, hphase, hsrc, hdst, htxns, hdir]

end Uncached

end Migration

/-- Settles O31: each command is the sealed effect; an idle engine takes a command, and a migration goes on where both slots are up. -/
theorem shelfAndTide : Obligations.ShelfAndTide := by
  intro s
  refine ⟨exec_of_effect rfl, fun hinit => exec_of_effect (effShelfInitDone_initialising s hinit), ?commands, ?ack, ?copy,
    exec_of_effect rfl⟩
  case commands =>
    intro hidle page account t
    refine ⟨fun ht hpage hnew hlimit n u hslot => ?alloc, fun p ht hp => ?free, fun p n u dst ht hp hslot hreserve hdst => ?flood,
      fun p n u dst ht hp hslot hdst => ?ebb, fun p ht hpage hp => ?query⟩
    case alloc => exact exec_of_effect (effAlloc_allocates s hidle ht hpage hnew hlimit hslot)
    case free => exact exec_of_effect (effFree_migrates s hidle ht hp)
    case flood => exact exec_of_effect (effFlood_migrates s hidle ht hp hslot hreserve hdst)
    case ebb => exact exec_of_effect (effEbb_migrates s hidle ht hp hslot hdst)
    case query => exact exec_of_effect (effQuery_allocated s hidle ht hpage hp)
  case ack =>
    intro die hphase hdie hup hnew hdone hsrc hdst
    have awaited := effMigrationAck_awaited s hsrc hdst hphase hdie hup hnew hdone
    exact ⟨fun hall => exec_of_effect (awaited.trans (if_pos hall)),
      fun hmore => exec_of_effect (awaited.trans (if_neg (ne_true_of_eq_false hmore)))⟩
  case copy =>
    intro hphase hsrc hdst htxns hdir
    exact ⟨fun hcmd => exec_of_effect (effMigrationCopyDone_copies s hsrc hdst hphase htxns hdir hcmd),
      fun p a hcmd => exec_of_effect (effMigrationCopyDone_frees s hsrc hdst hphase htxns hdir hcmd)⟩

end Sys2Proof.Machine
end

section
/-!
Breakwater lanes, flits and ports (14_breakwater_fabric.md R368, R370, R371, R375, R390, R395): what each effect does at a port whose
die is up.
-/
namespace Sys2Proof.Machine

section Port
variable (s : State) {port : Nat} (hport : port < 32) (hup : s.dieUp (portDie port) = true)
include hport hup

/-! ## Lanes (R368, R370) -/

section Lane
variable {lane : Nat} (hlane : lane < 8) (hworks : s.fget (portDie port) (portRef port BWF_STATUS.FAILED) / 2 ^ lane % 2 = 0)
include hlane hworks

/-- The training of a lane that has not failed ends with it trained or failed. -/
theorem effLaneTrainingEnd_training (hst : s.portState port = pTRAINING) (ok : Bool) :
    effLaneTrainingEnd port lane ok s =
      if ok then (s.updPort port (fun t => { t with trained := orBit t.trained lane })).portProgress port
      else (s.laneFails port lane).portProgress port :=
  if_neg (by simp [hport.not_ge, hlane.not_ge, hup, hst, hworks])

theorem effLaneLock_locking (hst : s.portState port = pLOCKING) :
    effLaneLock port lane s =
      (s.fset (portDie port) (portRef port BWF_STATUS.LOCKED)
        (orBit (s.fget (portDie port) (portRef port BWF_STATUS.LOCKED)) lane)).portProgress port :=
  if_neg (by simp [hport.not_ge, hlane.not_ge, hup, hst, hworks])

theorem effLaneFailure_training (hst : s.portState port = pTRAINING) :
    effLaneFailure port lane s = (s.laneFails port lane).portProgress port := by
  simp [effLaneFailure, hport.not_ge, hlane.not_ge, hup, hst, hworks]

/-- A ×8 port that loses a lane asks its peer to keep the half without it (R375). -/
theorem effLaneFailure_linked {u : State} {w : Nat} (hst : s.portState port = pLINKED) (hu : u = s.laneFails port lane)
    (hw : w = widthOf (u.fget (portDie port) (portRef port BWF_STATUS.FAILED))) (hhalf : w ≠ 0)
    (hwide : u.fget (portDie port) (portRef port BWF_STATUS.WIDTH) = 3) (hlost : w ≠ 3) :
    effLaneFailure port lane s = (u.updPort port (fun t => { t with width := some w, held := true })).sendCtl port 2 false 1 w := by
  have hnotTraining : ¬ (pLINKED = pTRAINING ∨ pLINKED = pLOCKING) := by decide
  simp [effLaneFailure, hport.not_ge, hlane.not_ge, hup, hst, hworks, hnotTraining, ← hu, ← hw, hhalf, hwide, hlost.symm]

end Lane

/-! ## A port trains, and is enabled or taken down (R375, R395) -/

theorem effPortRetrainTimer_down (hdown : s.portState port = pDOWN) (hen : s.fbit (portDie port) (portRef port BWF_CTRL.EN) = true) :
    effPortRetrainTimer port s = s.portTrain port :=
  if_pos (by simp [hport, hup, hdown, hen])

theorem effBwfRetrain_enabled (hen : s.fbit (portDie port) (portRef port BWF_CTRL.EN) = true) :
    effBwfRetrain port s =
      ((if s.portState port = pLINKED then s.portDown port else s).portTrain port).fset (portDie port) (portRef port BWF_CTRL.RETRAIN)
        1 :=
  if_neg (by simp [hport.not_ge, hup, hen])

theorem effBwfEnWrite_disables (hen : s.fbit (portDie port) (portRef port BWF_CTRL.EN) = true) :
    effBwfEnWrite port false s =
      (if s.portState port = pDOWN then s.fset (portDie port) (portRef port BWF_CTRL.EN) 0
        else (s.fset (portDie port) (portRef port BWF_CTRL.EN) 0).portDown port).fset (portDie port) (portRef port BWF_STATUS.STATE)
        pDISABLED := by
  simp [effBwfEnWrite, hport.not_ge, hup, hen, b2n]

theorem effBwfEnWrite_enables (hoff : s.fbit (portDie port) (portRef port BWF_CTRL.EN) = false) :
    effBwfEnWrite port true s = (s.fset (portDie port) (portRef port BWF_CTRL.EN) 1).portTrain port := by
  simp [effBwfEnWrite, hport.not_ge, hup, hoff, b2n]

end Port

/-- The window of a Breakwater port ends as R390 gives it. -/
theorem effViolationWindowEnd_port (s : State) {port : Nat} (hport : port < 32) :
    effViolationWindowEnd port s = portWindowEnd port s :=
  if_pos hport

section Linked
variable (s : State) {port : Nat} (hup : s.portUp port = true)
include hup

/-! ## Flits (R371) -/

section Flit
variable {bytes : List Byte} (hlen : bytes.length = 256)
include hlen

/-- A flit whose CRC fails is discarded and its sender told. -/
theorem effFlitReceive_badCrc (hcrc : crc32 ((bytes.take 252).map BitVec.toNat) ≠ leNat (bytes.drop 252)) :
    effFlitReceive port bytes s = s.sendCtl port 0 true 0 0 := by
  simp only [effFlitReceive, hup, hlen, if_pos hcrc]
  rfl

/-- A flit of type 0 with nothing reserved set only acknowledges and returns credit. -/
theorem effFlitReceive_ack {h : Nat} {u : State} (hcrc : crc32 ((bytes.take 252).map BitVec.toNat) = leNat (bytes.drop 252))
    (hh : h = leNat (bytes.take 12)) (htype : bitsN h 95 92 = 0) (hseq : bitsN h 91 80 = 0) (hnak : bitsN h 67 67 = 0)
    (hreserved : bitsN h 66 64 = 0)
    (hu : u = ((s.pmuEvent (portDie port) 0x209 1).takeAck port (bitsN h 79 68)).takeCredit port (bitsN h 63 0))
    (hstays : u.portUp port = true) :
    effFlitReceive port bytes s = u.pump port := by
  simp only [effFlitReceive, hup, hlen, if_neg (not_not_intro hcrc), ← hh, htype, hseq, hnak, hreserved, ← hu]
  simp [hstays]

end Flit

/-! ## Widths (R375) -/

section Offered
variable {half : Nat} (hwidth : (s.port port).width = some half)
include hwidth

theorem effLinkControlResend_unanswered : effLinkControlResend port s = s.sendCtl port 2 false 1 half := by
  simp only [effLinkControlResend, hwidth, if_pos hup]

theorem effWidthAck_awaited : effWidthAck port half s = s.narrow port half :=
  if_pos (by simp [hup, hwidth])

end Offered

/-- A ×8 port with no failed lane keeps the half that its peer names. -/
theorem effWidth_narrows (hgood : s.fget (portDie port) (portRef port BWF_STATUS.FAILED) = 0) (hnone : (s.port port).width = none)
    (hwide : s.fget (portDie port) (portRef port BWF_STATUS.WIDTH) = 3) {half : Nat} (hhalf : half = 1 ∨ half = 2) :
    effWidth port half s = (s.sendCtl port 2 false 2 half).narrow port half := by
  rcases hhalf with rfl | rfl <;> simp [effWidth, hup, hgood, hnone, hwide]

end Linked

/-- Settles O32: each command is the sealed effect, which takes the branch that the port's state names. -/
theorem breakwaterLinks : Obligations.BreakwaterLinks := by
  rintro s port lane _ rfl hport hup
  refine ⟨fun hlane hworks => ⟨fun hst => ?training, fun hst => ?locking, fun u w hst hu hw hhalf hwide hlost => ?linked⟩,
    fun hdown hen => ?retrainTimer, fun bytes hlink hlen => ?flit, exec_of_effect (effViolationWindowEnd_port s hport),
    fun half hwidth hlink => ?offered,
    fun hlink hgood hnone hwide => ?width, fun hen => ?enabled, fun hoff => ?enable⟩
  case training =>
    have trains := effLaneTrainingEnd_training s hport hup hlane hworks hst
    exact ⟨exec_of_effect (trains true), exec_of_effect (trains false),
      exec_of_effect (effLaneFailure_training s hport hup hlane hworks hst)⟩
  case locking => exact exec_of_effect (effLaneLock_locking s hport hup hlane hworks hst)
  case linked => exact exec_of_effect (effLaneFailure_linked s hport hup hlane hworks hst hu hw hhalf hwide hlost)
  case retrainTimer => exact exec_of_effect (effPortRetrainTimer_down s hport hup hdown hen)
  case flit =>
    exact ⟨fun hcrc => exec_of_effect (effFlitReceive_badCrc s hlink hlen hcrc),
      fun h u hcrc hh htype hseq hnak hreserved hu hstays =>
        exec_of_effect (effFlitReceive_ack s hlink hlen hcrc hh htype hseq hnak hreserved hu hstays)⟩
  case offered =>
    exact ⟨exec_of_effect (effLinkControlResend_unanswered s hlink hwidth), exec_of_effect (effWidthAck_awaited s hlink hwidth)⟩
  case width =>
    have narrows := fun half => effWidth_narrows s hlink hgood hnone hwide (half := half)
    exact ⟨exec_of_effect (narrows 1 (.inl rfl)), exec_of_effect (narrows 2 (.inr rfl))⟩
  case enabled =>
    have retrains := effBwfRetrain_enabled s hport hup hen
    have disables := effBwfEnWrite_disables s hport hup hen
    refine ⟨fun hst => ?_, fun hst => ?_, fun hst => ?_, fun hst => ?_⟩
    · rw [if_pos hst] at retrains
      exact exec_of_effect retrains
    · rw [if_neg hst] at retrains
      exact exec_of_effect retrains
    · rw [if_neg hst] at disables
      exact exec_of_effect disables
    · rw [if_pos hst] at disables
      exact exec_of_effect disables
  case enable => exact exec_of_effect (effBwfEnWrite_enables s hport hup hoff)

end Sys2Proof.Machine
end

section
/-!
The requests of other packages (14_breakwater_fabric.md R380, R385, R387; 17_harbour_queues.md R477): how a new request for this package
is served at the port by which it came, and what a request does that was held (R256).
-/
namespace Sys2Proof.Machine

/-! ## A new request at a port -/

section Fresh
variable {s : State} {port : Nat} {m : FabMsg} (hfresh : s.fabFresh port m = true)
include hfresh

theorem State.fabFresh_port : port < 32 := by
  simp only [State.fabFresh, Bool.and_eq_true, decide_eq_true_eq] at hfresh
  obtain ⟨⟨⟨⟨⟨hport, -⟩, -⟩, -⟩, -⟩, -⟩ := hfresh
  exact hport

section Serve
variable {typ : Nat} (htyp : m.typ = typ) {act : State → Served}
include htyp

/-- A new request of the right kind is answered as its service says, and its tag is kept (R255, R385). -/
theorem State.serve_answer {t : State} {a : FabMsg} (hact : act s = .answer t a) :
    s.serve port m typ act = ((t.takeIn port m).keepTag m).fabReply port a := by
  have hport := State.fabFresh_port hfresh
  simp only [State.fabFresh, Bool.and_eq_true, decide_eq_true_eq, Option.isNone_iff_eq_none] at hfresh
  obtain ⟨⟨⟨⟨⟨-, hopen⟩, hviolation⟩, hid⟩, hdst⟩, hseen⟩ := hfresh
  simp [State.serve, htyp, hopen, hport, hviolation, hid, hdst, hseen, hact, selfPort, hport.ne, hport.not_gt]

theorem State.serve_reply {t : State} {k aux : Nat} {units : List Nat} (hact : act s = t.reply m k aux units) :
    s.serve port m typ act = t.fabAnswered port m k aux units :=
  State.serve_answer hfresh htyp hact

/-- A new request whose answer follows when its command ends leaves the port with its tag kept. -/
theorem State.serve_later {t : State} (hact : act s = .later t) : s.serve port m typ act = (t.takeIn port m).keepTag m := by
  have hport := State.fabFresh_port hfresh
  simp only [State.fabFresh, Bool.and_eq_true, decide_eq_true_eq, Option.isNone_iff_eq_none] at hfresh
  obtain ⟨⟨⟨⟨⟨-, hopen⟩, hviolation⟩, hid⟩, hdst⟩, hseen⟩ := hfresh
  simp [State.serve, htyp, hopen, hport, hviolation, hid, hdst, hseen, hact, selfPort, hport.ne, hport.not_gt]

end Serve
end Fresh

/-- A line of this package whose home is up and not fenced is served at its address. -/
theorem State.lineAt_served {s : State} {port : Nat} {m : FabMsg} (hport : port < 32) (hat : s.fabAt (m.addr / 64 * 64) = .ok true)
    (write : Bool) (f : State → Nat → Served) : s.lineAt port m write f = f s (m.addr / 64 * 64) := by
  simp only [State.lineAt, if_pos hport, hat]

/-! ## Its kinds -/

section Kinds
variable (s : State) {port : Nat} {m : FabMsg} (hfresh : s.fabFresh port m = true)
include hfresh

/-! ### Reads (R380, R385) -/

section Read
variable (htyp : m.typ = mRD)
include htyp

theorem effRd_line {d : List Byte} {p : Bool} {t : State} (hline : m.aux % 2 = 0) (hat : s.fabAt (m.addr / 64 * 64) = .ok true)
    (hread : s.anyRead engHome (m.addr / 64 * 64) 64 = (.got d p, t)) :
    effRd port m s = t.fabAnswered port m mRSPDATA (b2n p) (unitsOf d) := by
  apply State.serve_reply hfresh htyp
  simp [hline, State.lineAt_served (State.fabFresh_port hfresh) hat, hread]

theorem effRd_register {v : Word} {t : State} (hreg : m.aux % 2 = 1) (hrange : isRegRange m.addr = true)
    (hread : s.fabReg port (Config.serialOf m.src).toNat m.addr none = .ok (v, t)) :
    effRd port m s = t.fabAnswered port m mRSPDATA 0 [v.toNat] := by
  apply State.serve_reply hfresh htyp
  simp [hreg, hrange, (State.fabFresh_port hfresh).not_ge, hread]

end Read

/-! ### Writes (R380, R385) -/

section Write
variable {die off : Nat} (hat : s.fabAt (m.addr / 64 * 64) = .ok true) (hopen : s.partnerShut (m.addr / 64 * 64) m.src = false)
  (hstack : regionOf (m.addr / 64 * 64) = .stack die off) (hready : s.engWait engHome true (m.addr / 64 * 64) 64 = none)
include hat hopen hstack hready

/-- A line of the stack is written by the home's engine and acknowledged. -/
theorem State.serveWrite_stack (d : List Byte) (mask : Nat) :
    s.serveWrite port m d mask = (s.engPut engHome (m.addr / 64 * 64 / 64) d mask).reply m mRSPACK 0 [] := by
  simp [State.serveWrite, State.lineAt_served (State.fabFresh_port hfresh) hat, hopen, hstack, hready]

theorem effWrFull_stack (htyp : m.typ = mWRFULL) :
    effWrFull port m s =
      (s.engPut engHome (m.addr / 64 * 64 / 64) (unitBytes m.units) fullLine).fabAnswered port m mRSPACK 0 [] :=
  State.serve_reply hfresh htyp (s.serveWrite_stack hfresh hat hopen hstack hready _ _)

theorem effWrMask_stack (htyp : m.typ = mWRMASK) :
    effWrMask port m s =
      (s.engPut engHome (m.addr / 64 * 64 / 64) (unitBytes (m.units.drop 1)) (m.units.headD 0 % 2 ^ 64)).fabAnswered port m mRSPACK
        0 [] :=
  State.serve_reply hfresh htyp (s.serveWrite_stack hfresh hat hopen hstack hready _ _)

end Write

theorem effWrReg_register {v : Word} {t : State} (htyp : m.typ = mWRREG) (hrange : isRegRange m.addr = true)
    (hwrite : s.fabReg port (Config.serialOf m.src).toNat m.addr (some (BitVec.ofNat 64 (m.units.headD 0))) = .ok (v, t)) :
    effWrReg port m s = t.fabAnswered port m mRSPACK 0 [] := by
  apply State.serve_reply hfresh htyp
  simp only [hrange, (State.fabFresh_port hfresh).not_ge, hwrite]
  rfl

/-! ### Atomics (R387) -/

section Atomic
variable (htyp : m.typ = mATOM) (hcode : m.aux % 32 < 0x14) (haligned : m.addr % atomSize (m.aux % 32) = 0)
  (hat : s.fabAt m.addr = .ok true)
include htyp hcode haligned hat

/-- An atomic of the stack goes to the Glaze unit of its address. -/
theorem effAtom_stack {die off : Nat} (hstack : regionOf m.addr = .stack die off) (hway : s.unitCut port m.addr = false)
    (hroom : s.unitRoom port m.addr = true) :
    effAtom port m s =
      ((s.fabCmd port m 8 (m.aux % 32) [] (m.units.headD 0 % 2 ^ 64) (m.units.headD 0 / 2 ^ 64 % 2 ^ 64) none).takeIn port
        m).keepTag m := by
  apply State.serve_later hfresh htyp
  simp [-Nat.reducePow, hcode.not_ge, haligned, (State.fabFresh_port hfresh).not_ge, hstack, hat, hway, hroom]

/-- An atomic of the Shelf is performed at the home and answered with the old value. -/
theorem effAtom_shelf {off : Nat} {d : List Byte} {p : Bool} {t : State} (hshelf : regionOf m.addr = .shelf off)
    (hready : s.engWait engHome true m.addr (atomSize (m.aux % 32)) = none)
    (hread : s.engRead engHome m.addr (atomSize (m.aux % 32)) srcDynamic = (d, p, t)) :
    effAtom port m s =
      (t.engWrite engHome m.addr (leBytes (atomSize (m.aux % 32)) (atomResult (m.aux % 32) (leNat d) (m.units.headD 0 % 2 ^ 64)
        (m.units.headD 0 / 2 ^ 64 % 2 ^ 64))) p srcDynamic).fabAnswered port m mRSPOLD 0 [leNat d] := by
  apply State.serve_reply hfresh htyp
  simp [-Nat.reducePow, hcode.not_ge, haligned, (State.fabFresh_port hfresh).not_ge, hshelf, hat, hready, hread]

end Atomic

/-! ### Glaze commands and journal keys (R385, R477) -/

section Glaze
variable (htyp : m.typ = mGLZ)
include htyp

theorem effFabricGlz_stack {die off : Nat} (hgop : m.aux % 16 < 8) (hstack : regionOf m.addr = .stack die off)
    (hat : s.fabAt m.addr = .ok true) (hway : s.unitCut port m.addr = false) (hroom : s.unitRoom port m.addr = true) :
    effFabricGlz port m s =
      ((s.fabCmd port m (m.aux % 16) 0 (unitBytes m.units) 0 0
        (if m.aux / 2 ^ 20 % 2 = 1 then some (m.src, m.aux / 16 % 2 ^ 16) else none)).takeIn port m).keepTag m := by
  rw [effFabricGlz, if_neg hgop.not_ge]
  apply State.serve_later hfresh htyp
  simp [-Nat.reducePow, (State.fabFresh_port hfresh).not_ge, hstack, hat, hway, hroom]

/-- A key message joins the applies under way, which then go on. -/
theorem State.keyMessage_starts {gop : Nat} (hgop : m.aux % 16 = gop) :
    s.keyMessage port m gop =
      (((s.updFab (fun f => { f with applies := f.applies ++ [(m, port, [], [])] })).takeIn port m).keepTag m).applyAll := by
  rw [State.keyMessage, if_neg (by simp [hgop, State.fabFresh_port hfresh])]
  exact congrArg State.applyAll (State.serve_later hfresh htyp rfl)

end Glaze
end Kinds

/-! ## A request that was held (R256) -/

section Held
variable (s : State) {src agent tag port : Nat} {m : FabMsg}
  (hfind : s.fab.inbox.find? (fun x => x.2.isRequest && x.2.src = src && x.2.agent = agent && x.2.tag = tag) = some (port, m))
include hfind

theorem effRequestResend_read (htyp : m.typ = mRD) : effRequestResend (.fab src agent tag) s = effRd port m s := by
  simp only [effRequestResend, hfind, if_pos htyp]

theorem effHomeUnavailable_held (hheld : s.fabHeld port m = true) :
    effHomeUnavailable (.fab src agent tag) s = ((s.takeIn port m).keepTag m).fabReply port (nakOf s.ownId nHOME m) := by
  simp only [effHomeUnavailable, hfind, if_pos hheld]

end Held

/-- Settles O33: each command is the sealed effect, and a new request is served by its kind and the region of its address. -/
theorem fabricRequests : Obligations.FabricRequests := by
  intro s port m hfresh
  refine ⟨fun d p t htyp hline hat hread => ?readLine, fun v t htyp hreg hrange hread => ?readRegister,
    fun die off hat hopen hstack hready => ⟨fun htyp => ?writeLine, fun htyp => ?writeMasked⟩,
    fun die off htyp hcode haligned hstack hat hway hroom => ?atomicOfStack,
    fun off d p t htyp hcode haligned hshelf hat hready hread => ?atomicOfShelf,
    fun die off htyp hgop hstack hat hway hroom => ?glaze, fun htyp => ⟨fun hgop => ?commit, fun hgop => ?discard⟩,
    fun v t htyp hrange hwrite => ?writeRegister, fun src agent tag hfind => ?held⟩
  case readLine => exact exec_of_effect (effRd_line s hfresh htyp hline hat hread)
  case readRegister => exact exec_of_effect (effRd_register s hfresh htyp hreg hrange hread)
  case writeLine => exact exec_of_effect (effWrFull_stack s hfresh hat hopen hstack hready htyp)
  case writeMasked => exact exec_of_effect (effWrMask_stack s hfresh hat hopen hstack hready htyp)
  case atomicOfStack => exact exec_of_effect (effAtom_stack s hfresh htyp hcode haligned hat hstack hway hroom)
  case atomicOfShelf => exact exec_of_effect (effAtom_shelf s hfresh htyp hcode haligned hat hshelf hready hread)
  case glaze => exact exec_of_effect (effFabricGlz_stack s hfresh htyp hgop hstack hat hway hroom)
  case commit => exact exec_of_effect (s.keyMessage_starts hfresh htyp hgop)
  case discard => exact exec_of_effect (s.keyMessage_starts hfresh htyp hgop)
  case writeRegister => exact exec_of_effect (effWrReg_register s hfresh htyp hrange hwrite)
  case held =>
    refine ⟨fun htyp => ?_, fun d p t htyp hline hat hread => ?_, fun hheld => ?_⟩
    · exact (exec_of_effect (effRequestResend_read s hfind htyp)).trans rfl
    · exact exec_of_effect ((effRequestResend_read s hfind htyp).trans (effRd_line s hfresh htyp hline hat hread))
    · exact exec_of_effect (effHomeUnavailable_held s hfind hheld)

end Sys2Proof.Machine
end

section
/-!
The answers of other packages (14_breakwater_fabric.md R386 to R389): what each effect does with an answer at a Breakwater port that is up,
and the timers of a long command and of a request.
-/
namespace Sys2Proof.Machine

section Answer
variable (s : State) {port : Nat} {m : FabMsg} (hport : port < 32) (hup : s.portUp port = true)
include hport hup

/-- Messages arrive by a linked port. -/
theorem State.fabOpen_port : s.fabOpen port = true := by
  rw [State.fabOpen, if_pos hport, hup]

theorem effRspData_port (htyp : m.typ = mRSPDATA) :
    effRspData port m s = s.answerIn port m
      (.data (if m.units.length = 1 then (unitBytes m.units).take 8 else unitBytes m.units) (m.aux % 2 = 1)) := by
  have hplace : port ≠ 35 ∧ port ≠ 36 := by omega
  simp [effRspData, htyp, hplace, s.fabOpen_port hport hup]

theorem effRspAck_port (htyp : m.typ = mRSPACK) : effRspAck port m s = s.answerIn port m .ack := by
  have hplace : port ≠ 35 ∧ port ≠ 36 := by omega
  simp [effRspAck, htyp, hplace, s.fabOpen_port hport hup]

theorem effRspOld_port (htyp : m.typ = mRSPOLD) :
    effRspOld port m s = s.answerIn port m (.old (m.units.headD 0 % 2 ^ 64)) :=
  if_neg (by simp [htyp, s.fabOpen_port hport hup])

/-- The timeout of the request starts again. -/
theorem effRspPending_outstanding (htyp : m.typ = mRSPPENDING)
    (hreq : s.fab.reqs.any (fun r => decide (r.msg.tag = m.tag && r.msg.agent = m.agent && r.sent)) = true) :
    effRspPending port m s = (s.takeIn port m).updFab (fun f =>
      { f with reqs := f.reqs.map (fun r =>
        if decide (r.msg.tag = m.tag && r.msg.agent = m.agent && r.sent) then { r with at_ := s.now } else r) }) := by
  have answered : ¬ (m.typ ≠ mRSPPENDING || !s.fabOpen port) = true := by simp [htyp, s.fabOpen_port hport hup]
  rw [effRspPending, if_neg answered]
  exact if_pos hreq

/-- A NAK of the target that names neither its home nor an ID fails the request, is counted, and is reported (R389, R391). -/
theorem effNak_target {r : FabReq} {t : State} (htyp : m.typ = mNAK) (hagent : m.agent ≠ agCol) (hhome : m.aux ≠ nHOME)
    (hid : m.aux ≠ nNOID) (htake : s.fabTake m.tag m.agent = some (r, t)) (hsrc : m.src = r.msg.dst) :
    effNak port m s = ((s.answerIn port m (.fail 1)).finc r.q BWF_REQ_CNT.NAK_CNT).faultReport r.q r.msg.dst rNAK := by
  have hnear : port < 33 := by omega
  simp [effNak, htyp, hagent, hhome, hid, htake, hsrc, hport, hnear, s.fabOpen_port hport hup]

end Answer

section Timer
variable (s : State)

/-- A command of another package that runs here tells it so, by the port at which it came. -/
theorem effRspPendingTimer_running {pkg agent tag port : Nat} {ps : List Nat} (hrunning : s.fabRunning pkg agent tag = port :: ps)
    (hport : port < 32) :
    effRspPendingTimer pkg agent tag s = s.dispatch (portDie port) (rspMsg mRSPPENDING s.ownId pkg agent tag 0 []) := by
  simp only [effRspPendingTimer, hrunning, if_pos hport]

/-- A request to another package that expires fails at its origin and is reported. -/
theorem effFabricTimeout_package {tag agent : Nat} {r : FabReq} {t u : State} (htake : s.fabTake tag agent = some (r, t))
    (hdeliver : t.deliver r (.fail 0) = some u) (hdst : r.msg.dst < siteDst 0) :
    effFabricTimeout tag agent s =
      ((u.fabNext r.msg).finc r.q BWF_REQ_CNT.TIMEOUT_CNT).faultReport r.q r.msg.dst rTIMEOUT := by
  simp only [effFabricTimeout, htake, hdeliver, if_pos hdst]

end Timer

/-- Settles O34: each command is the sealed effect, on an answer of its kind or a request that is outstanding. -/
theorem fabricAnswers : Obligations.FabricAnswers := by
  intro s port m hport hup
  refine ⟨fun htyp => ?data, fun htyp => ?ack, fun htyp => ?old, fun htyp hreq => ?pending, fun pkg agent tag ps hrunning => ?timer,
    fun r t htyp hagent hhome hid htake hsrc => ?nak, fun tag agent r t u htake hdeliver hdst => ?timeout⟩
  case data => exact exec_of_effect (effRspData_port s hport hup htyp)
  case ack => exact exec_of_effect (effRspAck_port s hport hup htyp)
  case old => exact exec_of_effect (effRspOld_port s hport hup htyp)
  case pending => exact exec_of_effect (effRspPending_outstanding s hport hup htyp hreq)
  case timer => exact exec_of_effect (effRspPendingTimer_running s hrunning hport)
  case nak => exact exec_of_effect (effNak_target s hport hup htyp hagent hhome hid htake hsrc)
  case timeout => exact exec_of_effect (effFabricTimeout_package s htake hdeliver hdst)

end Sys2Proof.Machine
end

section
/-!
The control messages of the fabric (14_breakwater_fabric.md R378, R379, R392, R393, R400, R403): identity, directed requests, the
assignment of an ID, reports and events.
-/
namespace Sys2Proof.Machine

/-! ## Messages at a linked port -/

section Message
variable (s : State) {port : Nat} {m : FabMsg} (hup : s.portUp port = true) (htyp : m.typ = mCTL)
include hup htyp

/-- IDENT sets what is known of the neighbour and is acknowledged (R378). -/
theorem effIdent_control {u : Nat} (hsub : m.aux = cIDENT) (hu : u = m.units.headD 0) :
    effIdent port m s =
      ((s.takeIn port m).fsets (portDie port)
        [(portRef port BWF_NBR.VALID, 1), (portRef port BWF_NBR.PEER_IDV, bitsN u 62 62),
         (portRef port BWF_NBR.PEER_PORT, bitsN u 67 63), (portRef port BWF_NBR.PEER_SERIAL, bitsN u 127 80),
         (portRef port BWF_NBR2.PEER_LEVEL, bitsN u 49 42), (portRef port BWF_NBR2.PEER_LOC, bitsN u 79 68),
         (portRef port BWF_NBR2.PEER_ID, bitsN u 61 50)]).sendPort port (ctlMsg cIDENTACK 0 []) := by
  subst hu
  exact if_neg (by simp [hup, htyp, hsub])

theorem effIdentAck_control (hsub : m.aux = cIDENTACK) :
    effIdentAck port m s = (s.takeIn port m).updPort port (fun u => { u with ident := false }) :=
  if_pos (by simp [hup, htyp, hsub])

/-- A REPORT is merged with its period's entry, or sent on. The places of its fields follow log entry 17. -/
theorem effReport_control (hsub : m.aux = cREPORT) :
    effReport port m s = (s.takeIn port m).takeReport (FabReport.ofUnit (m.units.headD 0)) :=
  if_pos (by simp [hup, htyp, hsub])

/-- A directed request that has not reached the end of its path goes on, with its arrival port recorded (R379). -/
theorem effDrReq_passesOn {d : DrUnits} (hsub : m.aux = cDRREQ) (hd : d = DrUnits.of m.units) (hlen : d.plen ≤ 8)
    (hmore : d.ptr + 1 < d.plen) (hout : (s.takeIn port m).portUp (drPort d.path (d.ptr + 1)) = true) :
    effDrReq port m s = (s.takeIn port m).sendPort (drPort d.path (d.ptr + 1))
      { m with units := ({ d with ret := putPort d.ret d.ptr port, ptr := d.ptr + 1 } : DrUnits).units } := by
  have hpath : d.plen ≠ 0 ∧ ¬ 8 < d.plen ∧ ¬ d.plen ≤ d.ptr := by omega
  simp [effDrReq, hup, htyp, hsub, ← hd, hpath, hmore, hout]

section Response
variable {d : DrUnits} (hsub : m.aux = cDRRSP) (hd : d = DrUnits.of m.units)
include hsub hd

/-- A response goes back by the ports that its request recorded (R379). -/
theorem effDrRsp_returns (hptr : 0 < d.ptr) :
    effDrRsp port m s = (s.takeIn port m).sendPort (drPort d.ret (d.ptr - 1))
      { m with units := ({ d with ptr := d.ptr - 1 } : DrUnits).units } := by
  simp [effDrRsp, hup, htyp, hsub, ← hd, hptr]

/-- The response to a read ends the request of its Q-die with the data that it brings (R379, R403). -/
theorem effDrRsp_ends (hptr : d.ptr = 0) (hq : isQ m.agent = true) (htag : mapFind (s.takeIn port m).fab.drAt m.agent = some m.tag)
    (hbusy : (s.takeIn port m).fbit m.agent BWF_DR_CTRL.BUSY = true) (hread : d.write = false) :
    effDrRsp port m s = ((s.takeIn port m).fset m.agent BWF_DR_DATA.DATA d.data).drEnd m.agent d.result := by
  simp [effDrRsp, hup, htyp, hsub, ← hd, hptr, hq, htag, hbusy, hread]

end Response
end Message

theorem effIdentResend_unanswered (s : State) {port : Nat} (hup : s.portUp port = true) (hident : (s.port port).ident = true) :
    effIdentResend port s = s.sendPort port (ctlMsg cIDENT 0 [s.identUnit port]) :=
  if_pos (by simp [hup, hident])

/-! ## Directed requests of this package (R403) -/

section Directed
variable (s : State) {q : Nat} (hq : isQ q = true)
include hq

/-- GO sends a directed request by the first port of its path, or ends it where that port is not linked. -/
theorem effBwfDrGo_path {u : State} {plen path : Nat} (hdie : s.dieUp q = true) (hidle : s.fbit q BWF_DR_CTRL.BUSY = false)
    (hplen : plen = s.fget q BWF_DR_PATH.PLEN) (hpath : path = s.fget q BWF_DR_PATH.PATH) (hmin : 0 < plen) (hmax : plen ≤ 8)
    (hu : u = (s.fsets q [(BWF_DR_CTRL.BUSY, 1), (BWF_DR_CTRL.RESULT, 0)]).updFab (fun f =>
      { f with nextTag := (s.fab.nextTag + 1) % 65536, drAt := mapSet f.drAt q s.fab.nextTag })) :
    effBwfDrGo q s =
      if !u.portUp (drPort path 0) then u.drEnd q 3
      else u.sendPort (drPort path 0)
        { ctlMsg cDRREQ (s.fget q BWF_DR_ADDR.ADDR) (⟨path, plen, 0, 0, 0, Config.serial.toNat, s.fbit q BWF_DR_CTRL.WRITE,
          s.fget q BWF_DR_DATA.DATA⟩ : DrUnits).units with tag := s.fab.nextTag, agent := q } := by
  simp [effBwfDrGo, hq, hdie, hidle, ← hplen, ← hpath, hmin.ne', hmax.not_gt, ← hu]

theorem effDrTimeout_busy (hbusy : s.fbit q BWF_DR_CTRL.BUSY = true) : effDrTimeout q s = s.drEnd q 1 :=
  if_pos (by simp [hq, hbusy])

end Directed

/-! ## The periods of reports (R392) -/

section Period
variable (s : State) {period : Nat} (hnew : s.fab.forwarded ≤ period)
include hnew

theorem effReportPeriodForward_below (hroot : s.fbit shDie BWF_REPORT.ROOT = false) :
    effReportPeriodForward period s = s.sendPeriod period :=
  if_neg (by simp [hroot, hnew])

theorem effRootEventDelivery_root (hroot : s.fbit shDie BWF_REPORT.ROOT = true) :
    effRootEventDelivery period s = s.sendPeriod period :=
  if_neg (by simp [hroot, hnew])

end Period

/-- Settles O35: each command is the sealed effect, on a control message of its subtype or a request that is under way. -/
theorem fabricControl : Obligations.FabricControl := by
  intro s port q m hup hq
  refine ⟨fun u htyp hsub hu => ?ident, fun htyp hsub => ?identAck, fun hident => ?identAgain,
    fun d htyp hsub hd hlen hmore hout => ?passesOn, fun d htyp hsub hd hptr => ?returns,
    fun d htyp hsub hd hptr hagent htag hbusy hread => ?ends,
    fun u plen path hdie hidle hplen hpath hmin hmax hu => ⟨fun hout => ?sent, fun hcut => ?notSent⟩, fun hbusy => ?timeout,
    fun _ _ => exec_of_effect rfl, fun htyp hsub => ?report,
    fun period hnew => ⟨fun hroot => ?forward, fun hroot => ?deliver⟩, fun _ => exec_of_effect rfl⟩
  case ident => exact exec_of_effect (effIdent_control s hup htyp hsub hu)
  case identAck => exact exec_of_effect (effIdentAck_control s hup htyp hsub)
  case identAgain => exact exec_of_effect (effIdentResend_unanswered s hup hident)
  case passesOn => exact exec_of_effect (effDrReq_passesOn s hup htyp hsub hd hlen hmore hout)
  case returns => exact exec_of_effect (effDrRsp_returns s hup htyp hsub hd hptr)
  case ends =>
    subst hagent
    exact exec_of_effect (effDrRsp_ends s hup htyp hsub hd hptr hq htag hbusy hread)
  case sent =>
    exact exec_of_effect ((effBwfDrGo_path s hq hdie hidle hplen hpath hmin hmax hu).trans (if_neg (by simp [hout])))
  case notSent =>
    exact exec_of_effect ((effBwfDrGo_path s hq hdie hidle hplen hpath hmin hmax hu).trans (if_pos (by simp [hcut])))
  case timeout => exact exec_of_effect (effDrTimeout_busy s hq hbusy)
  case report => exact exec_of_effect (effReport_control s hup htyp hsub)
  case forward => exact exec_of_effect (effReportPeriodForward_below s hnew hroot)
  case deliver => exact exec_of_effect (effRootEventDelivery_root s hnew hroot)

end Sys2Proof.Machine
end

section
/-!
Tidemark ticks and time, and the ballast ramp of an await (15_collectives_and_tidemark.md R407, R409, R410, R424). Offsets and the time
that a tick takes are given by the row (log entry 49).
-/
namespace Sys2Proof.Machine

/-! ## Ticks (R407) -/

section Tick
variable (s : State)

/-- A tick on the path from the time source slews the copy of the die that it reaches by the offset that it shows (R408). -/
theorem effTick_slews {a b u : Nat} {rest : List (Nat × Nat × Nat)} {s1 : State} {d o : Int} (hup : s.tickUp (.jetty a b) = true)
    (hwire : takeFirst (fun (x : Nat × Nat × Nat) => decide (x = (a, b, u))) s.tidemark.wire = some ((a, b, u), rest))
    (hs1 : s1 = ({ s with tidemark := { s.tidemark with wire := rest } } : State).updTick (.jetty a b)
      (fun e => { e with peer := some (bitsN u 15 0, ({ s with tidemark := { s.tidemark with wire := rest } } : State).tmk16 a) }))
    (hoffset : s.tickOffset (.jetty a b) u = some (d, o)) (hnot : a ≠ s.timeSource) (hpath : nextDie a s.timeSource 0 = b) :
    effTick (.jetty a b) u s = { s1 with tidemark := { s1.tidemark with slew := mapSet s1.tidemark.slew a (-o * 640) } } := by
  have hslews : (a ≠ s.timeSource && nextDie a s.timeSource 0 = b) = true := by simp [hnot, hpath]
  subst hs1
  simp only [effTick, hup, hwire, hoffset, hslews]
  rfl

section Send
variable {p : Nat} {e : TickEnd} {t : Nat} (hup : s.tickUp (.port p) = true) (he : e = s.tickEnd (.port p))
  (ht : t = s.tmk16 (portDie p))
include hup he ht

/-- Before a tick of the peer has arrived, a tick carries no echo. -/
theorem effTickSend_noEcho {u : Nat} (hpeer : e.peer = none) (hu : u = tickUnit (t / 16) 0xFFFFFFFF 0 e.seq) :
    effTickSend (.port p) s =
      (s.updTick (.port p) (fun x => { x with seq := (x.seq + 1) % 65536, sent := mapSet x.sent x.seq t })).sendPort p
        (ctlMsg cTICK 0 [u]) := by
  subst he ht hu
  simp only [effTickSend, hup, hpeer]
  rfl

/-- A tick echoes the last tick of the peer and the time since it arrived; ECHO_DELTA ends at 0xFFFFFFFE (log entry 49). -/
theorem effTickSend_echo {u n at_ : Nat} (hpeer : e.peer = some (n, at_))
    (hu : u = tickUnit (t / 16) (min (t - at_) 0xFFFFFFFE) n e.seq) :
    effTickSend (.port p) s =
      (s.updTick (.port p) (fun x => { x with seq := (x.seq + 1) % 65536, sent := mapSet x.sent x.seq t })).sendPort p
        (ctlMsg cTICK 0 [u]) := by
  subst he ht hu
  simp only [effTickSend, hup, hpeer]
  rfl

end Send

/-! ## Time (R409, R410) -/

/-- A forward write on an unacquired master sets all six copies in one command (log entry 49). -/
theorem effTmkSetWrite_forward {q : Nat} {time : Word} (hq : isQ q = true) (hup : s.dieUp q = true)
    (hmaster : s.fbit shDie TMK_CTRL.MASTER = true) (hacquired : s.fbit q TMK_STATUS.ACQUIRED = false)
    (hforward : s.tmkNs q ≤ time.toNat) :
    effTmkSetWrite q time s = (foldN 6 (fun t d => { t with tmk := mapSet t.tmk d (time.toNat * 10240) }) s).setAcquired :=
  if_neg (by simp [hq, hup, hmaster, hacquired, hforward.not_gt])

theorem effHoldoverFault_holdover (hholdover : s.fbit s.timeSource TMK_STATUS.HOLDOVER = true) (hid : s.idValid = true) :
    effHoldoverFault s = s.faultReport s.timeSource s.ownId rLINK :=
  if_pos (by simp [hholdover, hid])

end Tick

/-! ## The ballast ramp (R424) -/

section Ballast
variable (s : State) {die : Nat} {ws : List Word} (hc : isC die = true) (hfetched : (s.td die).fetched = some ws)
  (hst : s.seqState die = seqAWAITING) (hstep : (s.td die).step2 = true) (hballast : bBallast ws = true)
include hc hfetched hst hstep hballast

/-- While no release is known the level falls. -/
theorem effBallastRampStep_falls (hup : (s.td die).ballastUp = false) (hunknown : s.releaseNs die = none) :
    effBallastRampStep die s = s.fset die SEQ_BALLAST.LEVEL (s.fget die SEQ_BALLAST.LEVEL - 1) := by
  simp [effBallastRampStep, hc, hfetched, hst, hstep, hballast, hup, hunknown]

/-- A rise that has begun goes on to L0. -/
theorem effBallastRampStep_rises (hup : (s.td die).ballastUp = true) :
    effBallastRampStep die s = (s.updTd die (fun t => { t with ballastUp := true })).fset die SEQ_BALLAST.LEVEL
      (min (s.td die).ballastTop (s.fget die SEQ_BALLAST.LEVEL + 1)) := by
  simp [effBallastRampStep, hc, hfetched, hst, hstep, hballast, hup]

end Ballast

/-- Settles O36: each command is the sealed effect, on a link that is up, by the time source's state or by the ramp's direction. -/
theorem tidemarkCommands : Obligations.TidemarkCommands := by
  intro s
  refine ⟨fun a b u rest s1 d o hup hwire hs1 hoffset hnot hpath => ?slew, fun p e t u hup he ht => ⟨fun hpeer hu => ?noEcho,
    fun n at_ hpeer hu => ?echo⟩, fun q time hq hup hmaster hacquired hforward => ?set, fun hholdover hid => ?holdover,
    fun die ws hc hfetched hst hstep hballast hup hunknown => ?falls, fun die ws hc hfetched hst hstep hballast hup => ?rises⟩
  case slew => exact exec_of_effect (effTick_slews s hup hwire hs1 hoffset hnot hpath)
  case noEcho => exact exec_of_effect (effTickSend_noEcho s hup he ht hpeer hu)
  case echo => exact exec_of_effect (effTickSend_echo s hup he ht hpeer hu)
  case set => exact exec_of_effect (effTmkSetWrite_forward s hq hup hmaster hacquired hforward)
  case holdover => exact exec_of_effect (effHoldoverFault_holdover s hholdover hid)
  case falls => exact exec_of_effect (effBallastRampStep_falls s hc hfetched hst hstep hballast hup hunknown)
  case rises => exact exec_of_effect (effBallastRampStep_rises s hc hfetched hst hstep hballast hup)

end Sys2Proof.Machine
end

section
/-!
Collective instances (15_collectives_and_tidemark.md R412, R414, R418 to R425): a group's table, the arrival and launch of commands, the
messages of a collective, and its end.
-/
namespace Sys2Proof.Machine

/-- The table of an idle group is copied and its CRC recorded (R412). -/
theorem effColGroupValid_copies (s : State) {q group ranks a : Nat} {d : List Byte} {p : Bool} {t : State} {tbl : List Nat}
    (hq : isQ q = true) (hup : s.dieUp q = true) (hgroup : group < 64) (hidle : s.groupBusy group = false) (hmin : 0 < ranks)
    (hmax : ranks ≤ 32768) (ha : a = s.fget q (COL_GRP_TABLE.ADDR.plus (16 * group)) * 2)
    (hread : s.readFrom q 0 idColl a (2 * ranks) = (.got d p, t))
    (htbl : tbl = (List.range ranks).map (fun r => leNat ((d.drop (2 * r)).take 2))) :
    effColGroupValid q group ranks s =
      (t.updColl (fun c => { c with
        tables := mapSet c.tables (q * 64 + group) tbl, failed := c.failed.filter (· ≠ group),
        ended := mapErase c.ended group })).fsets q
        [(COL_GRP_CFG.VALID.plus (16 * group), 1), (COL_GRP_CFG.RANKS.plus (16 * group), ranks),
         (COL_GRP_CFG.CRC.plus (16 * group), tableCrc tbl)] := by
  have hlegal : ¬ (!isQ q || !s.dieUp q || 64 ≤ group || s.groupBusy group || ranks = 0 || 32768 < ranks) = true := by
    simp [hq, hup, hgroup, hidle, hmin.ne', hmax]
  simp only [effColGroupValid, if_neg hlegal, ← ha, hread, ← htbl]

/-! ## The arrival of a command (R413, R414, R417) -/

/-- Each of the six operations is the arrival of a command of its operation code. -/
theorem exec_collective (s : State) {q op : Nat} {i : Instr}
    (h : (i, op) ∈ [(Instr.reduce q, opREDUCE), (.allreduce q, opALLREDUCE), (.reduceScatter q, opSCATTER), (.allgather q, opGATHER),
      (.broadcast q, opBROADCAST), (.barrier q, opBARRIER)]) :
    exec i s = .next (s.sealed (s.colArrive q op)) := by
  simp only [List.mem_cons, Prod.mk.injEq, List.not_mem_nil, or_false] at h
  rcases h with ⟨rfl, rfl⟩ | ⟨rfl, rfl⟩ | ⟨rfl, rfl⟩ | ⟨rfl, rfl⟩ | ⟨rfl, rfl⟩ | ⟨rfl, rfl⟩ <;> rfl

/-- A command that is well-formed and agrees with its collective joins it and launches. -/
theorem State.colArrive_joins (s : State) {q op : Nat} {c : ColCmd} {rest : List ColCmd} {u v : State} {x : ColInst}
    (htake : takeFirst (fun (c : ColCmd) => decide (c.q = q ∧ c.op = op)) s.coll.coming = some (c, rest)) (hup : s.dieUp q = true)
    (hu : u = (s.updColl (fun y => { y with coming := rest })).needInst c.group c.seq) (hinst : u.inst c.group c.seq = some x)
    (hv : v = u.setInst { x with cmds := x.cmds ++ [c] }) (hformat : v.colFormat c = false)
    (hfailed : v.coll.failed.contains c.group = false) (hagrees : v.colMismatch x c = false) (htick : c.tick = 0) :
    s.colArrive q op = v.colLaunch c.group c.seq c.rank := by
  simp only [State.colArrive, htake, hup, ← hu, hinst, ← hv, hformat, hfailed, hagrees, htick]
  rfl

/-! ## A collective in progress -/

section Instance
variable (s : State) {group seq : Nat} {x : ColInst} (hinst : s.inst group seq = some x)
include hinst

/-- The commands of a collective that have not launched do so, in their order (R421). -/
theorem effCollectiveLaunch_engineUp (hup : s.engineUp x = true) :
    effCollectiveLaunch group seq s =
      ((x.cmds.filter (fun m => !m.launched)).foldl (fun t m => t.colLaunch group seq m.rank) s).colStep group seq := by
  simp [effCollectiveLaunch, hinst, hup]

theorem effCollectiveTimeout_launched (hup : s.engineUp x = true) (hlaunched : x.cmds.any (fun m => m.launched) = true) :
    effCollectiveTimeout group seq s = s.colFail x fTIMEOUT true := by
  simp only [effCollectiveTimeout, hinst, hup, hlaunched]
  rfl

theorem effFloorExpiry_instance : effFloorExpiry group seq s = s.setInst { x with floor := false } := by
  simp only [effFloorExpiry, hinst]

end Instance

/-- A collective whose ranks here are all done and that has nothing left to send is dropped, counted (R419; event 0x20D by log entry 40),
and adds the tokens of its commands; its group keeps its sequence number (log entry 19). -/
theorem effInstanceComplete_done (s : State) {group seq : Nat} {u : State} {x : ColInst} {tbl : List Nat}
    (hu : u = s.colStep group seq) (hinst : u.inst group seq = some x) (hup : u.engineUp x = true) (htbl : tbl = u.instTable x)
    (hdone : x.cmds.all (x.rankDone tbl.length) = true) (hsent : x.messages u.ownId tbl = []) :
    effInstanceComplete group seq s =
      x.cmds.foldl (fun t c => if c.op = opBARRIER then t else t.colToken c)
        (((x.cmds.map (fun (c : ColCmd) => c.q)).dedup.foldl (fun (t : State) q => t.finc q COL_CNT.DONE_CNT)
          { (u.dropInst group seq).updColl (fun c => { c with ended := mapSet c.ended group seq }) with
            queueEnds := u.queueEnds ++ x.cmds.map (fun (c : ColCmd) => (c.queue, none)) }).pmuEvent
          ((x.cmds.map (fun (c : ColCmd) => c.q)).dedup.headD 4) 0x20D (x.combined u.ownId tbl)) := by
  simp only [effInstanceComplete, ← hu, hinst, ← htbl, hup, hdone, hsent]
  rfl

/-- The releases of a die whose tick has come add their tokens (R423). -/
theorem effReleaseTickApply_running (s : State) {die : Nat} (hup : s.dieUp die = true) :
    effReleaseTickApply die s =
      (s.coll.releases.filter (fun r => decide (r.1 = die) && decide (r.2.2 ≤ s.tickCount die))).foldl
        (fun t r => t.tokenAdd die r.2.1 1)
        (s.updColl (fun c => { c with
          releases := c.releases.filter (fun r => !(decide (r.1 = die) && decide (r.2.2 ≤ s.tickCount die))) })) :=
  if_neg (by simp [hup])

/-! ## The messages of a collective (R415, R418, R420, R423) -/

section Message
variable {s : State} {port kind : Nat} {m : FabMsg} {t : State} {x : ColInst} {h : ColSub}

/-- A message that its engine takes changes its collective, which then goes on. -/
theorem State.colTake_fresh (hfresh : s.colFresh port m kind = some (t, x, h)) (f : State → ColInst → ColSub → State) :
    s.colTake port m kind f = (f t x h).colStep h.group h.seq := by
  simp only [State.colFresh] at hfresh
  split_ifs at hfresh with hrefused
  simp only [Bool.or_eq_true, not_or, Bool.not_eq_true, Bool.not_eq_false'] at hrefused
  obtain ⟨⟨⟨⟨htyp, hkind⟩, hport⟩, hid⟩, hfailed, hended⟩ := hrefused
  split at hfresh
  · cases hfresh
  · next y hinst =>
    split_ifs at hfresh with hcrc
    cases hfresh
    simp only [State.colTake, htyp, hkind, hport, hid, hfailed, hended, hinst, hcrc]
    rfl

/-- A release that the collective has not had is kept and goes to the dies that its commands name. -/
theorem effColRelease_first (hfresh : s.colFresh port m kRELEASE = some (t, x, h)) (hfirst : x.release = none) :
    effColRelease port m s =
      ((t.setInst { x with release := some (m.units.getD 1 0) }).barrierOut { x with release := some (m.units.getD 1 0) }
        (m.units.getD 1 0)).colStep h.group h.seq := by
  rw [effColRelease, State.colTake_fresh hfresh, hfirst]
  rfl

end Message

/-- Settles O37: each command is the sealed effect, on a collective that is there or on a message that its engine takes. -/
theorem collectiveCommands : Obligations.CollectiveCommands := by
  intro s
  refine ⟨fun q group ranks a d p t tbl hq hup hgroup hidle hmin hmax ha hread htbl => ?table,
    fun q i op c rest u x v hi htake hup hu hinst hv hformat hfailed hagrees htick => ?joins,
    fun group seq x hinst hup => ⟨?launch, fun hlaunched => ?timeout, ?floor⟩,
    fun group seq u x tbl hu hinst hup htbl hdone hsent => ?complete, fun die hup => ?release,
    fun port m kind t x h hfresh => ⟨?data, ?result, ?gather, ?arrive, ?released, ?fail⟩⟩
  case table => exact exec_of_effect (effColGroupValid_copies s hq hup hgroup hidle hmin hmax ha hread htbl)
  case joins =>
    exact exec_of_effect (s.colArrive_joins htake hup hu hinst hv hformat hfailed hagrees htick) (exec_collective s hi)
  case launch => exact exec_of_effect (effCollectiveLaunch_engineUp s hinst hup)
  case timeout => exact exec_of_effect (effCollectiveTimeout_launched s hinst hup hlaunched)
  case floor => exact exec_of_effect (effFloorExpiry_instance s hinst)
  case complete => exact exec_of_effect (effInstanceComplete_done s hu hinst hup htbl hdone hsent)
  case release => exact exec_of_effect (effReleaseTickApply_running s hup)
  case released =>
    rintro rfl hfirst
    exact exec_of_effect (effColRelease_first hfresh hfirst)
  all_goals
    rintro rfl
    exact exec_of_effect (State.colTake_fresh hfresh _)

end Sys2Proof.Machine
end

section
/-!
A host link (16_host_port_and_companions.md R440, R446 to R448): how it trains, is enabled, is lost and leaves service, and what becomes of
its uncertain writes.
-/
namespace Sys2Proof.Machine

section Link
variable (s : State) {port : Nat}

/-! ## Training (R440, R446) -/

section Train
variable {speed width : Nat} (hspeed : speed = 1 ∨ speed = 2) (hwidth : width = 1 ∨ width = 2)
include hspeed hwidth

theorem effHostLinkUp_trains (hport : isPort port = true) (hup : s.dieUp (4 + port) = true)
    (hreset : s.fbit (4 + port) HPU_STATUS.RESETTING = false) (hdown : s.hpu port HPU_STATUS.LINK ≠ 2) :
    effHostLinkUp port speed width s =
      (s.fsets (4 + port) [(HPU_STATUS.LINK, 2), (HPU_STATUS.SPEED, speed), (HPU_STATUS.WIDTH, width)]).updHost port
        (fun p => { p with downAt := none }) :=
  if_neg (by simp [hport, hup, hreset, hdown]; omega)

theorem effHostRetrain_linkUp (hlink : s.linkUp port = true) :
    effHostRetrain port speed width s =
      (s.fsets (4 + port) [(HPU_STATUS.SPEED, speed), (HPU_STATUS.WIDTH, width)]).finc (4 + port) HPU_LOSS.RETRAIN_CNT :=
  if_pos (by simp [hlink, hspeed, hwidth])

end Train

/-! ## Enables (R440, R448) -/

section Enable
variable (hlink : s.linkUp port = true)
include hlink

/-- Without Bus Master Enable nothing is issued again. -/
theorem effHostEnable_bmeOff (mem cache : Bool) :
    effHostEnable port false mem cache s =
      (s.fsets (4 + port) [(HPU_STATUS.BME, 0), (HPU_STATUS.MEM_EN, b2n mem), (HPU_STATUS.CACHE_EN, b2n cache)]).wake :=
  if_neg (by simp [hlink])

/-- With Bus Master Enable and CXL.cache the port is in service and its uncertain writes are issued again. -/
theorem effHostEnable_inService (mem : Bool) :
    effHostEnable port true mem true s =
      (((s.fsets (4 + port) [(HPU_STATUS.BME, 1), (HPU_STATUS.MEM_EN, b2n mem), (HPU_STATUS.CACHE_EN, 1)]).fset (4 + port)
        HPU_STATUS.IN_SERVICE 1).reissue port).wake :=
  if_neg (by simp [hlink])

end Enable

/-! ## Loss and its end (R440, R447, R448) -/

section Loss
variable (hport : isPort port = true)
include hport

theorem effHostLinkLoss_up (hup : s.dieUp (4 + port) = true) (hlink : s.hpu port HPU_STATUS.LINK ≠ 0) (cause : Nat) :
    effHostLinkLoss port cause s = s.linkLoss port cause :=
  if_pos (by simp [hport, hup, hlink])

theorem effHpuResetDone_port : effHpuResetDone port s = s.fset (4 + port) HPU_STATUS.RESETTING 0 := if_pos hport

theorem effPortOutOfService_down (hdown : s.hpu port HPU_STATUS.LINK ≠ 2) (hservice : s.fbit (4 + port) HPU_STATUS.IN_SERVICE = true) :
    effPortOutOfService port s = (s.failHeld port).fset (4 + port) HPU_STATUS.IN_SERVICE 0 :=
  if_neg (by simp [hport, hdown, hservice])

theorem effHpuLossDiscard_uncertain (huncertain : s.hpu port HPU_LOSS.UNCERTAIN ≠ 0)
    (hbme : s.fbit (4 + port) HPU_STATUS.BME = false) :
    effHpuLossDiscard port s = (s.dropUncertain port).fset (4 + port) HPU_LOSS.DISCARD 1 :=
  if_neg (by simp [hport, huncertain, hbme])

end Loss
end Link

/-- Settles O39: each command is the sealed effect, which takes the branch that the link's state names. -/
theorem hostLink : Obligations.HostLink := by
  intro s port hport
  refine ⟨fun speed width hup hreset hspeed hwidth => ⟨fun hdown => ?train, fun hlink => ?retrain⟩, fun cause hup hlink => ?loss,
    ?resetDone, fun mem cache u hlink => ⟨?bmeOff, ?inService⟩, fun hdown hservice => ?outOfService,
    fun huncertain hbme => ?discard⟩
  case train => exact exec_of_effect (effHostLinkUp_trains s hspeed hwidth hport hup hreset hdown)
  case retrain => exact exec_of_effect (effHostRetrain_linkUp s hspeed hwidth hlink)
  case loss => exact exec_of_effect (effHostLinkLoss_up s hport hup hlink cause)
  case resetDone => exact exec_of_effect (effHpuResetDone_port s hport)
  case bmeOff =>
    rintro bme rfl rfl
    exact exec_of_effect (effHostEnable_bmeOff s hlink mem cache)
  case inService =>
    rintro bme rfl rfl rfl
    exact exec_of_effect (effHostEnable_inService s hlink mem)
  case outOfService => exact exec_of_effect (effPortOutOfService_down s hport hdown hservice)
  case discard => exact exec_of_effect (effHpuLossDiscard_uncertain s hport huncertain hbme)

end Sys2Proof.Machine
end

section
/-!
A companion site (16_host_port_and_companions.md R451 to R453): the steps of its admission, its temperature, and its sideband.
-/
namespace Sys2Proof.Machine

section Site
variable (s : State) {site : Nat} (hsite : site < 2)
include hsite

/-! ## Admission (R451, R452) -/

section Admission
variable (hup : s.dieUp (4 + site) = true)
include hup

section Partner
variable {modules rate : Nat} {cxl : Bool} {u : State} (hst : s.fget (4 + site) UCI_STATUS.STATE = 1)
  (hu : u = s.fsets (4 + site) [(UCI_STATUS.MODULES, modules % 16), (UCI_STATUS.RATE, rate), (UCI_STATUS.PROTO, b2n cxl)])
include hst hu

/-- A partner whose four modules train at a known rate is asked for its descriptor (R451, step 1). -/
theorem effCompanionAdmission_trains (hmodules : modules % 16 = 15) (hmin : 1 ≤ rate) (hmax : rate ≤ 3) :
    effCompanionAdmission site modules rate cxl true s = (u.fset (4 + site) UCI_STATUS.STATE 2).siteStep site := by
  have htrained : (modules % 16 = 15 && 1 ≤ rate && rate ≤ 3) = true := by simp [hmodules, hmin, hmax]
  simp [effCompanionAdmission, linkAdmission, hsite.not_ge, hsite, hup, hst, ← hu, htrained]

/-- A partner with a module that does not train fails with RESULT 2. -/
theorem effCompanionAdmission_untrained (hmodules : modules % 16 ≠ 15) :
    effCompanionAdmission site modules rate cxl true s = (u.admitEnd site 2).siteStep site := by
  simp [effCompanionAdmission, linkAdmission, hsite.not_ge, hsite, hup, hst, ← hu, hmodules]

end Partner

section Descriptor
variable {bytes b : List Byte} {u : State} (hst : s.fget (4 + site) UCI_STATUS.STATE = 2)
  (hb : b = (bytes ++ List.replicate 256 (0 : Byte)).take 256)
  (hu : u = (foldN 32 (fun t n => t.wr (4 + site) 0x160 (0x100 + 8 * n) (BitVec.ofNat 64 (dNum b (8 * n) 8))) s).fset (4 + site)
    UCI_STATUS.LEVEL (dNum b 6 1))
include hst hb hu

/-- A descriptor that fails a check ends the admission with the check's RESULT (R452). -/
theorem effDescriptorReceived_fails (hbad : descResult b ≠ 0) :
    effDescriptorReceived site bytes s = (u.admitEnd site (descResult b)).siteStep site := by
  simp only [effDescriptorReceived, linkDescriptor, if_pos hsite, ← hb, ← hu, if_pos hbad]
  rw [if_neg (by simp [hsite, hup, hst])]

/-- A good descriptor of a site that is not measured admits it. -/
theorem effDescriptorReceived_admits (hgood : descResult b = 0) (hmeasure : u.fbit (4 + site) UCI_CTRL.MEASURE = false) :
    effDescriptorReceived site bytes s = (u.admitEnd site 0).siteStep site := by
  simp only [effDescriptorReceived, linkDescriptor, if_pos hsite, ← hb, ← hu, if_neg (not_not_intro hgood), hmeasure,
    Bool.false_eq_true, if_false]
  rw [if_neg (by simp [hsite, hup, hst])]

end Descriptor

/-! ## Temperature (R453, R502, R504) -/

section Temperature
variable {temp thr lim : Nat} (hst : s.fget (4 + site) UCI_STATUS.STATE = 4) (hlimits : s.siteTemps site = (thr, lim))
include hst hlimits

theorem effCompanionTempSample_cool (hthr : temp < thr) (hlim : temp < lim) :
    effCompanionTempSample site temp s = s.fset (4 + site) UCI_STATUS.TEMP (min 255 temp) := by
  simp [effCompanionTempSample, hsite.not_ge, hup, hst, hlimits, hthr, hlim.not_ge]

/-- A companion that is already throttled and reaches its limit asks for a trip. -/
theorem effCompanionTempSample_limit (hthr : thr ≤ temp) (hlim : lim ≤ temp) (hhot : (s.site site).hot = true) :
    effCompanionTempSample site temp s =
      ((s.fset (4 + site) UCI_STATUS.TEMP (min 255 temp)).finc (4 + site) UCI_CNT.THERM_CNT).raise ⟨2, 4 + site, 5, temp⟩ := by
  simp [effCompanionTempSample, hsite.not_ge, hup, hst, hlimits, hthr.not_gt, hlim, hhot]

end Temperature
end Admission

/-! ## Silence (R451) -/

theorem effAdmissionTimeout_noPartner (hst : s.fget (4 + site) UCI_STATUS.STATE = 1) :
    effAdmissionTimeout site s = (s.admitEnd site 1).siteStep site := by
  simp only [effAdmissionTimeout, linkTimeout, if_pos hsite, if_neg hsite.not_ge, hst, if_true]

theorem effAdmissionTimeout_noDescriptor (hst : s.fget (4 + site) UCI_STATUS.STATE = 2) :
    effAdmissionTimeout site s = (s.admitEnd site 3).siteStep site := by
  simp [effAdmissionTimeout, linkTimeout, hsite, hsite.not_ge, hst]

end Site

/-- An access on a sideband that gets no answer reads 0 (R9, R453). -/
theorem effSidebandTimeout_waiting (s : State) {site : Nat} {g : Agent} {a : Nat} {w : Bool} {rest : List (Agent × Nat × Bool)}
    (hside : (s.site site).side = (g, a, w) :: rest) :
    effSidebandTimeout site s = (s.updSite site (fun p => { p with side := rest })).sideEnd g a w 0 := by
  simp only [effSidebandTimeout, hside]

/-- Settles O40: each command is the sealed effect, which takes the branch that the site's state names. -/
theorem companionCommands : Obligations.CompanionCommands := by
  rintro s site _ hsite rfl hup
  refine ⟨fun modules rate cxl u hst hu => ⟨fun hmodules hmin hmax => ?trains, fun hmodules => ?untrained⟩,
    fun bytes b u hst hb hu => ⟨fun hbad => ?fails, fun hgood hmeasure => ?admits⟩, fun hst => ?noPartner, fun hst => ?noDescriptor,
    fun temp thr lim hst hlimits hthr hlim => ?cool, fun temp thr lim hst hlimits hthr hlim hhot => ?limit,
    fun g a w rest hside => ?sideband⟩
  case trains => exact exec_of_effect (effCompanionAdmission_trains s hsite hup hst hu hmodules hmin hmax)
  case untrained => exact exec_of_effect (effCompanionAdmission_untrained s hsite hup hst hu hmodules)
  case fails => exact exec_of_effect (effDescriptorReceived_fails s hsite hup hst hb hu hbad)
  case admits => exact exec_of_effect (effDescriptorReceived_admits s hsite hup hst hb hu hgood hmeasure)
  case noPartner => exact exec_of_effect (effAdmissionTimeout_noPartner s hsite hst)
  case noDescriptor => exact exec_of_effect (effAdmissionTimeout_noDescriptor s hsite hst)
  case cool => exact exec_of_effect (effCompanionTempSample_cool s hsite hup hst hlimits hthr hlim)
  case limit => exact exec_of_effect (effCompanionTempSample_limit s hsite hup hst hlimits hthr hlim hhot)
  case sideband => exact exec_of_effect (effSidebandTimeout_waiting s hside)

end Sys2Proof.Machine
end

section
/-!
Queue entries (17_harbour_queues.md R467, R469, R471 to R476): doorbells, fetching and acceptance, the partner that does not answer, and
the start of each opcode's work.
-/
namespace Sys2Proof.Machine

/-! ## Acceptance (R467, R471 to R474) -/

section Accept
variable (s : State) {queue : Nat} {x : Queue} (hx : x = s.queue queue)

section Enabled
include hx

/-- A doorbell ahead of the accepted entries and within the ring raises TAIL. -/
theorem effDoorbell_raises {tail : Word} (hqueue : queue < 4096) (hst : x.st = 1) (hup : s.dieUp (s.queueDie queue) = true)
    (hahead : x.accepted < tail.toNat) (hring : tail.toNat ≤ x.accepted + 2 ^ x.ctx.log2)
    (hfree : (s.freeRec (homeQ queue)).isSome = true) :
    effDoorbell queue tail s = s.updQueue queue (fun y => { y with tail := max y.tail tail.toNat }) := by
  have hrec : s.freeRec (homeQ queue) ≠ none := Option.isSome_iff_ne_none.mp hfree
  simp [effDoorbell, ← hx, hqueue.not_ge, hst, hup, hahead.not_ge, hring.not_gt, hrec]

/-- The next entry of the ring is fetched where its SEQ is the expected one. -/
theorem effEntryFetched_expected {n : Nat} {b : List Byte} {t : State} (hst : x.st = 1) (hruns : s.hqRuns queue = true)
    (hn : n = (x.fetched.map (·.1)).foldl max x.accepted + 1) (htail : n ≤ x.tail)
    (hread : s.readFrom (s.queueDie queue) 0 idQueue (x.ctx.ring + 256 * (n % 2 ^ x.ctx.log2)) 256 = (.got b false, t))
    (hseq : dNum b 8 8 = n) :
    effEntryFetched queue s = t.updQueue queue (fun y => { y with fetched := y.fetched ++ [(n, b)] }) := by
  have hnext : ¬ (x.st ≠ 1 || !s.hqRuns queue || x.tail < n) = true := by simp [hst, hruns, htail]
  simp only [effEntryFetched, ← hx, ← hn, if_neg hnext, hread, if_neg (not_not_intro hseq), Bool.false_eq_true, if_false]

/-- A fetched entry is journaled and, with no partner, accepted, and the accept pointer is written. -/
theorem effEntryAccept_journals {n k : Nat} {b : List Byte} {rest : List (Nat × List Byte)} {r : JRec} (hruns : s.hqRuns queue = true)
    (hnone : s.hq.journal.find? (fun r => r.queue = queue && !r.counted) = none) (hst : x.st = 1)
    (hfetched : x.fetched = (n, b) :: rest) (hfree : s.freeRec (homeQ queue) = some k)
    (hr : r = JRec.fresh ((homeQ queue - 4) * 2 ^ 15 + k) queue n b)
    (halone : (s.entryJournaled queue r rest).partnered queue = false) :
    effEntryAccept queue s = ((s.entryJournaled queue r rest).accepted r).putPointer queue := by
  simp only [effEntryAccept, ← hx, hruns, hnone, hst, hfetched, hfree, ← hr, halone, Bool.not_true, Bool.not_false,
    Bool.false_eq_true, if_false, if_true]

end Enabled

/-- A record whose mirror the partner does not acknowledge is let go, and the partner is marked down and reported (R474). -/
theorem effPartnerTimeout_mirrored {r : JRec} {u : State}
    (hfind : s.hq.journal.find? (fun r => r.queue = queue && r.mirror ≠ 0) = some r)
    (hu : u = ((s.updFab (fun f => { f with reqs := f.reqs.filter (fun x => !(decide (x.origin = .mirror r.jid))) })).updRec r.jid
      (fun x => { x with mirror := 0 })).fset (s.queueDie queue) HQ_STATUS.PARTNER_DOWN 1) :
    effPartnerTimeout queue s =
      (u.hqErr (s.queueDie queue) 0x5 queue).faultReport (s.queueDie queue) (u.fget (homeQ queue) HQ_PARTNER.PKG) rTIMEOUT := by
  simp only [effPartnerTimeout, hfind, ← hu]

end Accept

/-! ## The start of an entry (R469, R475, R476) -/

section Start
variable (s : State) {queue op : Nat} {t : State} {r : JRec}

/-- An entry that may start does its work in STATE RUNNING. -/
theorem State.startEntry_starts (hstart : s.entryStarts queue op = some (t, r)) (work : State → JRec → State) :
    s.startEntry queue op work = work t r := by
  cases hrec : s.startable queue op with
  | none => simp [State.entryStarts, hrec] at hstart
  | some r0 =>
    cases hstatus : s.entryStatus r0 with
    | some st => simp [State.entryStarts, hrec, hstatus] at hstart
    | none =>
      by_cases hrunning : r0.st = 2
      · obtain ⟨rfl, rfl⟩ : s = t ∧ r0 = r := by simpa [State.entryStarts, hrec, hstatus, hrunning] using hstart
        simp only [State.startEntry, hrec, hstatus, if_pos hrunning]
      · cases hwritten : (s.jWrite { r0 with st := 2 }).recOf r0.jid with
        | none => simp [State.entryStarts, hrec, hstatus, hrunning, hwritten] at hstart
        | some r' =>
          obtain ⟨hready, rfl, rfl⟩ : (s.jWrite { r0 with st := 2 }).written r' = true ∧
              s.jWrite { r0 with st := 2 } = t ∧ r' = r := by
            simpa [State.entryStarts, hrec, hstatus, hrunning, hwritten] using hstart
          simp only [State.startEntry, hrec, hstatus, if_neg hrunning, hwritten, if_pos hready]

theorem effNop_ends (hstart : s.entryStarts queue 0 = some (t, r)) : effNop queue s = t.endWith r 0 0 :=
  s.startEntry_starts hstart _

/-- A RUN whose image stands on the die it picks starts there. -/
theorem effRun_sameImage {die : Nat} {b : List Byte} {u v : State} (hstart : s.entryStarts queue 1 = some (t, r))
    (hdie : t.pickDie r = some die)
    (hread : t.readFrom (t.queueDie queue) 0 idQueue (r.num 0x28 8) 2048 = (.got b false, u)) (hv : v = u.putWindows die b)
    (hsame : v.sameImage die (r.num 0x20 8 / 4096 * 4096) = true) :
    effRun queue s = v.runOn r die := by
  refine (s.startEntry_starts hstart _).trans ?_
  simp only [hdie, hread, ← hv, if_pos hsame, Bool.false_eq_true, if_false]

/-- A GLAZE whose target is in a stack of this package goes to the unit of its vault. -/
theorem effGlaze_stack {g : GlzCmd} {u v : State} {die off : Nat} (hstart : s.entryStarts queue 2 = some (t, r))
    (hcmd : t.queueGlz queue r = (some (.ok g), u)) (hnear : g.target < 2 ^ 44)
    (hv : v = u.setRec { r with phase := .running, parts := 1 }) (hstack : regionOf g.target = .stack die off)
    (hplace : v.placeOfAddr g.target ≠ .nowhere) (hway : v.wayCut (v.unitWay (v.queueDie queue) 0 g.target) = false) :
    effGlaze queue s = v.toUnit (v.queueDie queue) 0 0 g := by
  refine (s.startEntry_starts hstart _).trans ?_
  simp only [hcmd, ← hv, if_neg hnear.not_ge, hstack, if_neg hplace, hway, Bool.false_eq_true, if_false]

/-- A DMA between translated ranges of this package starts one transfer for each of their parts. -/
theorem effQueueDma_local {a b parts : List (Nat × Nat × Nat)} {u v : State} (hstart : s.entryStarts queue 3 = some (t, r))
    (hsrc : t.translate (t.queueDie queue) queue (t.queue queue).ctx.pasid (r.num 0x20 8) (r.num 0x30 8) false = (.ok a, u))
    (hdst : u.translate (t.queueDie queue) queue (t.queue queue).ctx.pasid (r.num 0x28 8) (r.num 0x30 8) true = (.ok b, v))
    (hlen : r.num 0x30 8 ≠ 0) (hparts : parts = pairParts a b (r.num 0x30 8)) (hsome : parts ≠ [])
    (hnear : ∀ p ∈ parts, p.1 < 2 ^ 44 ∧ p.2.1 < 2 ^ 44) :
    effQueueDma queue s =
      parts.foldl (fun t p => (t.notePath (t.recOf r.jid) p.2.1 p.2.2).dmaStart (.queue queue) p.1 p.2.1 p.2.2)
        (v.setRec { r with phase := .running, parts := parts.length }) := by
  refine (s.startEntry_starts hstart _).trans ?_
  have hnoneFar : parts.any (fun p => decide (2 ^ 44 ≤ p.1) || decide (2 ^ 44 ≤ p.2.1)) = false := by
    simp only [List.any_eq_false, Bool.or_eq_true, decide_eq_true_eq, not_or, not_le]
    exact hnear
  simp only [hsrc, hdst, if_neg hlen, ← hparts, if_neg hsome, hnoneFar, Bool.false_and, Bool.false_eq_true, if_false]

/-- A WRITE whose pieces all lie in this package ends with them. -/
theorem effWrite_local {parts ps : List (Nat × Nat × Nat)} {t1 u : State} {r1 : JRec} (hstart : s.entryStarts queue 4 = some (t, r))
    (htranslate : t.translate (t.queueDie queue) queue (t.queue queue).ctx.pasid (r.num 0x20 8)
      ((r.entry.drop 0x40).take r.inlineLen).length true = (.ok parts, t1))
    (hps : ps = parts.flatMap (fun p => linePieces p.1 p.2.1 p.2.2)) (hnear : ∀ p ∈ ps, p.2.1 < 2 ^ 44)
    (hdone : t1.inlineHere r ((r.entry.drop 0x40).take r.inlineLen) ps = (u, false, false)) (hrec : u.recOf r.jid = some r1) :
    effWrite queue s = u.endWith r1 0 0 := by
  refine (s.startEntry_starts hstart _).trans ?_
  have hhere : ps.filter (fun p => p.2.1 < 2 ^ 44) = ps := List.filter_eq_self.mpr fun p hp => decide_eq_true (hnear p hp)
  have hfar : ps.filter (fun p => 2 ^ 44 ≤ p.2.1) = [] :=
    List.filter_eq_nil_iff.mpr fun p hp => by simpa using hnear p hp
  simp only [htranslate, ← hps, hhere, hfar, hdone, hrec]
  rfl

theorem effCollective_joins (hstart : s.entryStarts queue 5 = some (t, r)) :
    effCollective queue s =
      (t.setRec { r with phase := .running, parts := 1 }).updColl (fun x => { x with coming := x.coming ++ [t.entryCol r] }) :=
  s.startEntry_starts hstart _

end Start

/-- Settles O41: each command is the sealed effect; an entry is accepted in its turn, and one that may start does its opcode's work. -/
theorem queueEntries : Obligations.QueueEntries := by
  intro s queue x hx
  refine ⟨fun tail hqueue hst hup hahead hring hfree => ?doorbell, fun n b t hst hruns hn htail hread hseq => ?fetched,
    fun n b rest k hruns hnone hst hfetched hfree halone => ?accepted, fun r u hfind hu => ?partner, fun t r hstart => ?nop,
    fun t r die b u v hstart hdie hread hv hsame => ?run,
    fun t r g u v die off hstart hcmd hnear hv hstack hplace hway => ?glaze,
    fun t r a b parts u v hstart hsrc hdst hlen hparts hsome hnear => ?dma,
    fun t r parts ps t1 u r1 hstart htranslate hps hnear hdone hrec => ?write, fun t r hstart => ?collective⟩
  case doorbell => exact exec_of_effect (effDoorbell_raises s hx hqueue hst hup hahead hring hfree)
  case fetched => exact exec_of_effect (effEntryFetched_expected s hx hst hruns hn htail hread hseq)
  case accepted => exact exec_of_effect (effEntryAccept_journals s hx hruns hnone hst hfetched hfree rfl halone)
  case partner => exact exec_of_effect (effPartnerTimeout_mirrored s hfind hu)
  case nop => exact exec_of_effect (effNop_ends s hstart)
  case run => exact exec_of_effect (effRun_sameImage s hstart hdie hread hv hsame)
  case glaze => exact exec_of_effect (effGlaze_stack s hstart hcmd hnear hv hstack hplace hway)
  case dma => exact exec_of_effect (effQueueDma_local s hstart hsrc hdst hlen hparts hsome hnear)
  case write => exact exec_of_effect (effWrite_local s hstart htranslate hps hnear hdone hrec)
  case collective => exact exec_of_effect (effCollective_joins s hstart)

end Sys2Proof.Machine
end

section
/-!
How entries end and how queues are controlled (17_harbour_queues.md R477, R478, R480, R488).
-/
namespace Sys2Proof.Machine

/-! ## The end of an entry (R477, R480) -/

section Entry
variable (s : State) {queue : Nat} {r : JRec} (hfront : s.frontRec queue = some r) (hruns : s.hqRuns queue = true)
  (hwritten : s.written r = true)
include hfront hruns hwritten

/-- The result of a run ends its entry where it is not run again (R480). -/
theorem effRunEnd_run {y : RunResult} {rest : List RunResult} {u : State} {st det : Nat} (hphase : r.phase = .running)
    (hop : r.opcode = 1) (hresults : (s.td (r.die.getD 0)).results = y :: rest)
    (hu : u = s.updTd (r.die.getD 0) (fun t => { t with results := rest }))
    (hstatus : u.runStatus r (r.die.getD 0) y = (st, det, false)) :
    effRunEnd queue s = u.endWith r st det := by
  simp only [effRunEnd, hfront, hruns, hwritten, hphase, if_pos hop, hresults, ← hu, hstatus]
  rfl

/-- An engine entry ends with DONE once all its parts have ended well. -/
theorem effRunEnd_parts {u v : State} {r0 r1 : JRec} (hphase : r.phase = .running) (hop : r.opcode ≠ 1)
    (hu : u = s.dmaAll (fun d => d.ofQueue queue)) (hrec : u.recOf r.jid = some r0) (hparts : u.takeParts r0 = (v, r1))
    (hnone : r1.parts = 0) (hgood : r1.bad = none) :
    effRunEnd queue s = v.endWith r1 0 0 := by
  simp only [effRunEnd, hfront, hruns, hwritten, hphase, if_neg hop, ← hu, hrec, Option.getD_some, hparts, hnone, hgood]
  rfl

/-- A commit ends its entry once every C-die has applied the key and no package is left to tell. -/
theorem effRunEnd_commit {u : State} {r1 : JRec} (hphase : r.phase = .commit) (hu : u = s.applyKey r true)
    (hrec : u.recOf r.jid = some r1) (happlied : 4 ≤ r1.applied.length) (hpkgs : r1.pkgs = []) (honce : r1.again = false) :
    effRunEnd queue s = u.setRec { r1 with phase := .ended } := by
  simp [effRunEnd, hfront, hruns, hwritten, hphase, ← hu, hrec, happlied.not_gt, hpkgs, honce]

/-! ## Completion (R478) -/

section Complete
variable (hstop : (s.queue queue).stop = 0)
include hstop

theorem effEntryComplete_ended (hphase : r.phase = .ended) (hpaths : r.paths = []) :
    effEntryComplete queue s = s.journalDone r := by
  simp [effEntryComplete, hfront, hruns, hwritten, hstop, hphase, hpaths]

theorem effEntryComplete_drained (hphase : r.phase = .drain) (hdrains : r.drains = 0) :
    effEntryComplete queue s = s.journalDone r := by
  simp [effEntryComplete, hfront, hruns, hwritten, hstop, hphase, hdrains]

theorem effEntryComplete_done (hphase : r.phase = .done) : effEntryComplete queue s = s.writeCpl r := by
  simp [effEntryComplete, hfront, hruns, hwritten, hstop, hphase]

end Complete
end Entry

theorem effMsixPendingSend_open (s : State) {port vector : Nat} (hpending : (s.hostPort port).pba.contains vector = true)
    (hopen : s.msixOpen port vector = true) :
    effMsixPendingSend port vector s =
      (s.updHost port (fun p => { p with pba := p.pba.filter (· ≠ vector) })).msixNotify port vector :=
  if_pos (by rw [hpending, hopen]; rfl)

/-! ## Queue control (R488) -/

section Control
variable (s : State) {die loc : Nat} (hq : isQ die = true) (hup : s.dieUp die = true) (hloc : loc < 2048)
  (hidle : s.fbit die HQ_QCMD.BUSY = false)
include hq hup hloc hidle

/-- HQ_QCMD takes a command where none is under way. -/
theorem State.qcmd_idle (op : Nat) (f : State → State) : s.qcmd die op loc f = f (s.qcmdStart die op loc) := by
  simp only [State.qcmd, hq, hup, hidle, hloc.not_ge]
  rfl

section Taken
variable {t : State}

/-- A queue that is not enabled takes its context and starts from the larger of its accept pointer and the SEQ of its journaled
entries (log entry 30). -/
theorem effHqEnable_enables {b p : List Byte} {u v : State} {n : Nat} (ht : t = s.qcmdStart die 1 loc)
    (hst : (t.queue (queueOf die loc)).st = 0)
    (hread : t.readFrom die 0 idQueue (t.fget die HQ_CTX.BASE * 2 ^ 17 + 64 * loc) 64 = (.got b false, u)) (hctx : ctxOk b = true)
    (haccept : u.readFrom die 0 idQueue (QCtx.of b).accept 8 = (.got p false, v))
    (hn : n = ((v.hq.journal.filter (fun r => r.queue = queueOf die loc && r.counted)).map (·.seq)).foldl max (leNat p)) :
    effHqEnable die loc s =
      (v.updQueue (queueOf die loc) (fun _ =>
        { st := 1, stop := 0, ctx := QCtx.of b, tail := n, accepted := n, ptr := leNat p, fetched := [] })).qcmdEnd die 0 := by
  simp only [effHqEnable, s.qcmd_idle hq hup hloc hidle, ← ht, hst, hread, hctx, haccept, ← hn]
  rfl

theorem effHqDisable_enabled (ht : t = s.qcmdStart die 2 loc) (hst : (t.queue (queueOf die loc)).st = 1) :
    effHqDisable die loc s = (t.updQueue (queueOf die loc) (fun x => { x with st := 3, fetched := [] })).qcmdEnd die 0 := by
  simp [effHqDisable, s.qcmd_idle hq hup hloc hidle, ← ht, hst]

theorem effHqQuery_answers {y : Queue} (ht : t = s.qcmdStart die 3 loc) (hy : y = t.queue (queueOf die loc)) :
    effHqQuery die loc s =
      (t.fsets die [(HQ_QSTAT.STATE, y.st), (HQ_QSTAT.STOP, y.stop), (HQ_QSTAT.ACCEPTED, y.accepted % 2 ^ 48)]).qcmdEnd die 0 := by
  simp only [effHqQuery, s.qcmd_idle hq hup hloc hidle, ← ht, ← hy]

end Taken
end Control

theorem effQueueDrained_empty (s : State) {queue : Nat} (hst : (s.queue queue).st = 3) (hnone : s.frontRec queue = none) :
    effQueueDrained queue s = s.updQueue queue (fun x => { x with st := 0 }) :=
  if_pos (by simp [hst, hnone])

/-- Settles O42: each command is the sealed effect, by the phase of the front entry or by the queue's state. -/
theorem queueEndsAndControl : Obligations.QueueEndsAndControl := by
  intro s queue
  refine ⟨fun r hfront hruns hwritten => ⟨?run, ?parts, ?commit, fun hstop => ⟨?ended, ?drained, ?done⟩⟩,
    fun port vector hpending hopen => ?msix,
    fun die loc op t hq hup hloc hidle ht => ⟨?enable, ?disable, ?query⟩, fun hst hnone => ?empty⟩
  case run =>
    intro y rest st det hphase hop hresults hstatus
    exact exec_of_effect (effRunEnd_run s hfront hruns hwritten hphase hop hresults rfl hstatus)
  case parts =>
    intro u r0 v r1 hphase hop hu hrec hparts hnone hgood
    exact exec_of_effect (effRunEnd_parts s hfront hruns hwritten hphase hop hu hrec hparts hnone hgood)
  case commit =>
    intro u r1 hphase hu hrec happlied hpkgs honce
    exact exec_of_effect (effRunEnd_commit s hfront hruns hwritten hphase hu hrec happlied hpkgs honce)
  case ended => exact fun hphase hpaths => exec_of_effect (effEntryComplete_ended s hfront hruns hwritten hstop hphase hpaths)
  case drained => exact fun hphase hdrains => exec_of_effect (effEntryComplete_drained s hfront hruns hwritten hstop hphase hdrains)
  case done => exact fun hphase => exec_of_effect (effEntryComplete_done s hfront hruns hwritten hstop hphase)
  case msix => exact exec_of_effect (effMsixPendingSend_open s hpending hopen)
  case enable =>
    rintro b u p v n rfl hst hread hctx haccept hn
    exact exec_of_effect (effHqEnable_enables s hq hup hloc hidle ht hst hread hctx haccept hn)
  case disable =>
    rintro rfl hst
    exact exec_of_effect (effHqDisable_enabled s hq hup hloc hidle ht hst)
  case query =>
    rintro y rfl hy
    exact exec_of_effect (effHqQuery_answers s hq hup hloc hidle ht hy)
  case empty => exact exec_of_effect (effQueueDrained_empty s hst hnone)

end Sys2Proof.Machine
end

section
/-!
A die's operating point, its droop, and the package's events (18_power_and_thermal.md R495 to R498, R511, R512, R524).
-/
namespace Sys2Proof.Machine

/-! ## Points (R495, R496) -/

section Point
variable (s : State) {die : Nat} (hup : s.dieUp die = true)
include hup

/-- A request shows its ceiling and goes to the arbiter as a frequency change. -/
theorem effPwrReqWrite_running (hdie : die < 6) (point : Nat) :
    effPwrReqWrite die point s =
      ((s.fset die (pwr die PWR_POINT.REQ) (point % 16)).showCeil die).raise ⟨7, die, 0, 0⟩ := by
  have hstill : (s.fset die (pwr die PWR_POINT.REQ) (point % 16)).dieUp die = true := hup
  simp [effPwrReqWrite, State.freqEvent, hdie, hup, hstill]

theorem effVoltageRampDone_reached {n : Nat} (htarget : (s.dieP die).target = some n) (hsteady : s.droops die = false) :
    effVoltageRampDone die s =
      (s.updP die (fun p => { p with target := none })).fsets die [(pwr die PWR_POINT.CUR, n), (pwr die PWR_POINT.BUSY, 0)] := by
  simp only [effVoltageRampDone, htarget, hsteady, hup]
  rfl

/-! ## Droop (R497, R498) -/

theorem effDroop_begins {dom : Nat} (hdie : die < 6) (hnew : (s.dieP die).droop.contains dom = false)
    (hdom : dom = 0 ∨ dom = 1 ∧ isQ die = true) :
    effDroop die dom s =
      (((s.updP die (fun p => { p with droop := p.droop ++ [dom], settling := false })).fset die (pwr die PWR_DROOP.ACTIVE) 1).finc
        die (pwr die PWR_DROOP.DROOP_CNT)).raise ⟨4, die, dom, 0⟩ :=
  if_neg (by simp [-List.contains_eq_mem, hdie, hup, hnew]; tauto)

section Clear
variable {dom : Nat} {rest : List Nat} (hactive : (s.dieP die).droop.contains dom = true)
  (hrest : rest = (s.dieP die).droop.filter (· ≠ dom))
include hactive hrest

/-- When its last domain has cleared, a die settles. -/
theorem effDroopClear_last (hlast : rest = []) :
    effDroopClear die dom s =
      (s.updP die (fun p => { p with droop := [], settling := true })).fset die (pwr die PWR_DROOP.ACTIVE) 0 := by
  simp only [effDroopClear, hup, hactive, ← hrest, hlast]
  rfl

/-- While another domain droops, the droop stands. -/
theorem effDroopClear_other (hmore : rest ≠ []) :
    effDroopClear die dom s = s.updP die (fun p => { p with droop := rest, settling := false }) := by
  simp only [effDroopClear, hup, hactive, ← hrest, if_neg hmore, decide_eq_false hmore]
  rfl

end Clear

/-- The end of the settling applies the changes that were deferred. -/
theorem effDroopSettleEnd_settling {u : State} (hsettling : (s.dieP die).settling = true)
    (hu : u = s.updP die (fun p => { p with settling := false })) :
    effDroopSettleEnd die s =
      if u.fbit die (pwr die PWR_POINT.DEFERRED) then (u.fset die (pwr die PWR_POINT.DEFERRED) 0).changePoint die else u := by
  subst hu
  exact if_neg (by simp [hup, hsettling])

end Point

/-! ## Events (R511, R512, R524) -/

section Event
variable (s : State)

/-- An arbiter without power, or held in reset, only sees time pass. -/
theorem effEventTickResolve_idle (hidle : s.power.phase = .off ∨ s.power.phase = .held) :
    effEventTickResolve s = { s with now := s.now + 1024 } :=
  if_pos (by simpa using hidle)

variable (hoff : s.power.phase ≠ .off) (hheld : s.power.phase ≠ .held)
include hoff hheld

theorem effEvtSwWrite_powered (code : Nat) : effEvtSwWrite code s = s.raise ⟨8, s.arb, 0, code % 2 ^ 16⟩ :=
  if_neg (by simp [hoff, hheld])

/-- A tick resolves its events, advances time, and is counted where no reset has come with it. -/
theorem effEventTickResolve_powered {u v : State} (hu : u = ({ s with events := [] } : State).resolveEvents s.events)
    (hv : v = { u.tmkAdvance with now := u.now + 1024 }) (hstays : v.power.phase ≠ .held) :
    effEventTickResolve s = v.fset v.arb EVT_TICK.TICK ((v.fget v.arb EVT_TICK.TICK + 1) % 2 ^ 64) := by
  have hpowered : ¬ (s.power.phase = .off || s.power.phase = .held) = true := by simp [hoff, hheld]
  subst hu hv
  rw [effEventTickResolve, if_neg hpowered]
  exact if_neg hstays

end Event

/-- Settles O43: each command is the sealed effect, by the die's droop and the power of the arbiter. -/
theorem pointsDroopAndEvents : Obligations.PointsDroopAndEvents := by
  intro s die hup
  refine ⟨fun point hdie => ?request, fun n htarget hsteady => ?ramp, fun dom hdie hnew hdom => ?droop,
    fun dom rest hactive hrest => ⟨fun hlast => ?last, fun hmore => ?other⟩, fun u hsettling hu => ?settled,
    fun code hoff hheld => ?software, fun hidle => ?idleTick, fun u v hoff hheld hu hv hstays => ?tick⟩
  case request => exact exec_of_effect (effPwrReqWrite_running s hup hdie point)
  case ramp => exact exec_of_effect (effVoltageRampDone_reached s hup htarget hsteady)
  case droop => exact exec_of_effect (effDroop_begins s hup hdie hnew hdom)
  case last => exact exec_of_effect (effDroopClear_last s hup hactive hrest hlast)
  case other => exact exec_of_effect (effDroopClear_other s hup hactive hrest hmore)
  case settled =>
    have settles := effDroopSettleEnd_settling s hup hsettling hu
    exact ⟨fun hdeferred => exec_of_effect (settles.trans (if_pos hdeferred)),
      fun hnone => exec_of_effect (settles.trans (if_neg (ne_true_of_eq_false hnone)))⟩
  case software => exact exec_of_effect (effEvtSwWrite_powered s hoff hheld code)
  case idleTick => exact exec_of_effect (effEventTickResolve_idle s hidle)
  case tick => exact exec_of_effect (effEventTickResolve_powered s hoff hheld hu hv hstays)

end Sys2Proof.Machine
end

section
/-!
The power cap, heat and the package's pins (18_power_and_thermal.md R499 to R510, R513, R514; 20_boot_and_trust.md R562; 22_package_signals.md
R607, R609).
-/
namespace Sys2Proof.Machine

/-! ## A control period (R499 to R507, R513, R514) -/

/-- A period of a running package adds its energies, sets the level, and then steps the ceilings of each die. -/
theorem effControlPeriodEnd_runs (s : State) {energies temps : List Nat} {package : Nat} {acts : List (Nat × List Nat)}
    {s1 s2 s3 : State} (hruns : s.runs = true)
    (hs1 : s1 = foldN 6 (fun t d => if t.dieUp d then t.addEnergy d (pwr d PWR_ENERGY.ENERGY_UJ) (energies.getD d 0) else t) s)
    (hs2 : s2 = acts.foldl (fun t a => t.meter a) (s1.addEnergy shDie PKG_ENERGY.ENERGY_UJ package))
    (hs3 : s3 = (s2.updPower (fun p => { p with periods := (package :: p.periods).take 1000 })).fset shDie PKG_CAPSTAT.PERIOD_W
      (min 0xFFFF (package * 10 / 1024))) :
    effControlPeriodEnd energies package temps acts s = foldN 6 (fun t d => t.thermStep temps d) s3.adjustLevel := by
  subst hs1 hs2 hs3
  exact if_neg (by simp [hruns])

/-! ## The cap and the pins of a powered package (R502, R509, R511, R520, R607, R609) -/

section Powered
variable (s : State) (hoff : s.power.phase ≠ .off) (hheld : s.power.phase ≠ .held)
include hoff hheld

theorem effPkgCapWrite_powered (w : Word) :
    effPkgCapWrite w s =
      (s.wr shDie 0x180 0x080 (w &&& fieldMask 51 0)).raise ⟨5, s.arb, 0, (w &&& fieldMask 51 0).toNat⟩ :=
  if_neg (by simp [hoff, hheld])

theorem effCapLimitEdge_changes {b : Bool} (hpin : s.power.capN = b) :
    effCapLimitEdge b s = (s.updPower (fun p => { p with capN := !b })).raise ⟨5, s.arb, 1, b2n b⟩ := by
  simp [effCapLimitEdge, hpin, hoff, hheld]

theorem effCoolantOkLow_powered :
    effCoolantOkLow s = (s.updPower (fun p => { p with coolant := false })).raise ⟨1, s.arb, 0, 0⟩ :=
  if_neg (by simp [hoff, hheld])

theorem effTrayPwrOkLow_powered :
    effTrayPwrOkLow s = (s.updPower (fun p => { p with tray := false })).raise ⟨1, s.arb, 1, 0⟩ :=
  if_neg (by simp [hoff, hheld])

theorem effRailFault_trayGood (htray : s.power.tray = true) : effRailFault s = s.raise ⟨1, s.arb, 1, 1⟩ :=
  if_neg (by simp [hoff, hheld, htray])

theorem effPkgResetAssert_powered :
    effPkgResetAssert s = (s.updPower (fun p => { p with resetN := false })).raise ⟨3, s.arb, 0, 0⟩ :=
  if_neg (by simp [hoff, hheld])

end Powered

section Pins
variable (s : State)

theorem effTrayPwrOkHigh_rises (hlow : s.power.tray = false) :
    effTrayPwrOkHigh s =
      { s.updPower (fun p => { p with tray := true }) with lht := { s.lht with rose := true } } :=
  if_neg (by simp [hlow])

/-! ## Companions and Shelf devices (R502, R504) -/

theorem effCompanionThrottleEnd_cool {site : Nat} (hsite : site < 2) (hhot : (s.site site).hot = true)
    (hcool : s.fget (4 + site) UCI_STATUS.TEMP + 5 ≤ (s.siteTemps site).1) :
    effCompanionThrottleEnd site s = s.updSite site (fun p => { p with hot := false }) :=
  if_pos (by simp [hsite, hhot, hcool])

/-- A channel's derating is kept, and devices above their range ask for a trip. -/
theorem effShelfTemperatureRead_running {channel derate : Nat} {u : State} (hchannel : channel < 64)
    (hup : s.dieUp (shfDie channel) = true) (hu : u = s.updPower (fun p => { p with derate := mapSet p.derate channel derate }))
    (tooHot : Bool) :
    effShelfTemperatureRead channel derate tooHot s = if tooHot then u.raise ⟨2, shfDie channel, 6, channel⟩ else u := by
  subst hu
  exact if_neg (by simp [hchannel, hup])

/-! ## The end of reset, and power (R510, R562) -/

/-- With coolant and tray power good, the end of reset starts the package. -/
theorem effPkgResetDeassert_starts (links : List (Nat × Nat)) (shelf : List Nat) (hheld : s.power.phase = .held)
    (hstopped : s.isStopped = false) (hcoolant : s.power.coolant = true) (htray : s.power.tray = true) :
    effPkgResetDeassert links shelf s = (s.updPower (fun p => { p with resetN := true })).startUp links shelf := by
  simp [effPkgResetDeassert, hheld, hstopped, hcoolant, htray]

theorem effPowerUp_off (hoff : s.power.phase = .off) :
    effPowerUp s =
      { s.updPower (fun p => { p with phase := .held }) with
        strand := { s.strand with nextSeq := (s.strand.flashSeq + 1) % 2 ^ 32 }, lht := { s.lht with entryAt := s.now } } :=
  if_neg (not_not_intro hoff)

end Pins

/-- Settles O44: each command is the sealed effect, by the package's power and its pins. What a loss of power keeps follows log entries 4,
32 and 36. -/
theorem powerHeatAndPins : Obligations.PowerHeatAndPins := by
  intro s
  refine ⟨fun energies package temps acts s1 s2 s3 hruns hs1 hs2 hs3 => ?period,
    fun hoff hheld => ⟨fun w => ?cap, fun b hpin => ?capPin, ?coolantLow, ?trayLow, fun htray => ?rail, ?resetLow⟩,
    exec_of_effect rfl, fun hlow => ?trayHigh, fun site hsite hhot hcool => ?companion,
    fun channel derate u hchannel hup hu => ?shelf, fun links shelf hheld hstopped hcoolant htray => ?resetHigh,
    fun hoff => ?powerUp, exec_of_effect rfl⟩
  case period => exact exec_of_effect (effControlPeriodEnd_runs s hruns hs1 hs2 hs3)
  case cap => exact exec_of_effect (effPkgCapWrite_powered s hoff hheld w)
  case capPin => exact exec_of_effect (effCapLimitEdge_changes s hoff hheld hpin)
  case coolantLow => exact exec_of_effect (effCoolantOkLow_powered s hoff hheld)
  case trayLow => exact exec_of_effect (effTrayPwrOkLow_powered s hoff hheld)
  case rail => exact exec_of_effect (effRailFault_trayGood s hoff hheld htray)
  case resetLow => exact exec_of_effect (effPkgResetAssert_powered s hoff hheld)
  case trayHigh => exact exec_of_effect (effTrayPwrOkHigh_rises s hlow)
  case companion => exact exec_of_effect (effCompanionThrottleEnd_cool s hsite hhot hcool)
  case shelf =>
    have reads := effShelfTemperatureRead_running s hchannel hup hu
    exact ⟨exec_of_effect (reads false), exec_of_effect (reads true)⟩
  case resetHigh => exact exec_of_effect (effPkgResetDeassert_starts s links shelf hheld hstopped hcoolant htray)
  case powerUp => exact exec_of_effect (effPowerUp_off s hoff)

end Sys2Proof.Machine
end

section
/-!
Fences, scores, sweeps, losses, error records and the boot record (19_faults_and_errors.md R531 to R537, R545, R548; 20_boot_and_trust.md
R556, R559, R560, R570).
-/
namespace Sys2Proof.Machine

section DieRuns
variable (s : State) {die : Nat} (hup : s.dieUp die = true)
include hup

/-! ## Fences and scores (R531 to R533, R548) -/

theorem effErrFenceGo_unfenced {core : Nat} (hc : isC die = true) (hcore : core < 64)
    (hfree : (s.fset die ERR_FENCE.CORE core).isFenced die core = false) :
    effErrFenceGo die core s = ((s.fset die ERR_FENCE.CORE core).fset die ERR_FENCE.GO 1).fenceCore die core := by
  have hruns : ¬ (!isC die || !s.dieUp die || decide (64 ≤ core)) = true := by simp [hc, hup, hcore]
  simp only [effErrFenceGo, if_neg hruns, if_neg (ne_true_of_eq_false hfree)]

theorem effScoreDecay_running (hdie : die < 6) :
    effScoreDecay die s =
      foldN (if isC die then 64 else 32) (fun t n => if t.score die n = 0 then t else t.setScore die n (t.score die n - 1)) s :=
  if_neg (by simp [hdie, hup])

/-! ## Losses (R536, R537) -/

theorem effLossRelay_waiting {agent : Nat} (hlost : s.links.losses.contains (die, agent) = true) :
    effLossRelay die agent s =
      { s with
        links := { s.links with losses := s.links.losses.filter (fun (l : Nat × Nat) => l ≠ (die, agent)) },
        sweeps := s.sweeps.filter (fun (w : Nat × Nat) => w ≠ (die, agent)) ++ [(die, agent)] } :=
  if_pos (by simp [-List.contains_eq_mem, hlost, hup])

/-- The end of a sweep: the owned lines of the lost agent are poisoned, its bits leave the directory, and what waited proceeds. -/
theorem effHomeSweepDone_sweeping {agent : Nat} {mine : List (Nat × DirEnt)} {owned : List Nat} {u v w : State}
    (hsweep : s.sweeps.contains (die, agent) = true)
    (hmine : mine = s.dir.filter (fun (e : Nat × DirEnt) =>
      (s.homeOf e.1).die = die && s.homeOf e.1 ≠ .none && bitOf e.2.sharers agent))
    (howned : owned = (mine.filter (fun (e : Nat × DirEnt) => e.2.owned)).map (fun (e : Nat × DirEnt) => e.1))
    (hu : u = mine.foldl (fun t (e : Nat × DirEnt) => t.dropSharer e.1 agent) (owned.foldl (fun t l => t.sweepBlock l) s))
    (hv : v = ((u.fadd die (ERR_SWEEP.POISONED_CNT.inBlk (errBlk die)) owned.length).fadd die
      (ERR_SWEEP.REMOVED_CNT.inBlk (errBlk die)) (mine.length - owned.length)).logErr die (if owned = [] then 1 else 2) 0x0B 0 0x1
      (owned.length * 2 ^ 32 + 2 ^ agent))
    (hw : w = { v with sweeps := v.sweeps.filter (fun (w : Nat × Nat) => w ≠ (die, agent)) }) :
    effHomeSweepDone die agent s =
      (((w.txns.filter (fun (t : Nat × Txn) => (w.homeOf t.1).die = die)).map
        (fun (t : Nat × Txn) => t.1)).foldl (fun t l => t.advance l) w).wake := by
  subst hmine howned hu hv hw
  exact if_neg (by simp [-List.contains_eq_mem, hsweep, hup])

theorem effQdieLost_running (hq : isQ die = true) : effQdieLost die s = s.loseQ die :=
  if_pos (by simp [hq, hup])

/-! ## The error log (R545) -/

theorem effErrRec0Read_running (agent : Agent) (hdie : die < 6) :
    effErrRec0Read agent die s = (s.setErrs die ((s.errs die).drop 1)).emit (.regData agent (s.errWords die).1) := by
  have hruns : ¬ (decide (6 ≤ die) || !s.dieUp die) = true := by simp [hdie, hup]
  simp only [effErrRec0Read, if_neg hruns]

end DieRuns

/-! ## The boot record (R556, R560) -/

/-- The watchdog fails the first step in progress, or slot 0x01 where none is. -/
theorem effBootWatchdogExpiry_booting (s : State) (hharbour : s.lht.harbour = true) (hboot : s.fbit 4 LHT_BOOT.DONE = false)
    (hruns : s.runs = true) :
    effBootWatchdogExpiry s =
      s.failReset (((List.range 256).filter (fun i => progressSlot i && i ≠ 1 && decide (128 ≤ s.stepByte i))).headD 1) :=
  if_neg (by simp [hharbour, hboot, hruns])

theorem effCounterLogAppend_powered (s : State) (hphase : s.power.phase ≠ .off) (htray : s.power.tray = true) :
    effCounterLogAppend s = s.appendCounter (s.lht.hours + 1) s.lht.powers s.lht.starts :=
  if_neg (by simp [hphase, htray])

/-! ## Steps of Harbour firmware (R559, R570) -/

/-- A write of LHT_PROGRESS that is not ignored: the register holds its event and slot. -/
def State.progressWritten (s : State) (die event slot : Nat) : State :=
  s.fsets die [(LHT_PROGRESS.EVENT, event % 4), (LHT_PROGRESS.SLOT, slot % 256)]

section Progress
variable (s : State) {die slot : Nat} (hup : s.dieUp die = true) (hq : isQ die = true) (hfirmware : ownStep slot = false)
  (hslot : progressSlot slot = true)
include hup hq hfirmware hslot

/-- Event 1, while Harbour boots, begins a step of the firmware. -/
theorem effLhtProgressWrite_begins {t : State} (hharbour : (s.progressWritten die 1 slot).lht.harbour = true)
    (hboot : (s.progressWritten die 1 slot).fbit 4 LHT_BOOT.DONE = false)
    (hbegin : (s.progressWritten die 1 slot).stepBegin slot = (t, .run)) :
    effLhtProgressWrite die 1 slot s = t := by
  rw [State.progressWritten] at hharbour hboot hbegin
  simp only [effLhtProgressWrite, hup, hq, hfirmware, hslot, hharbour, hboot, hbegin, Bool.not_true, Bool.or_false, Bool.false_eq_true,
    if_false, if_true]

/-- Event 2 ends the step; the end of slot 0x01 ends the boot. -/
theorem effLhtProgressWrite_ends (hharbour : (s.progressWritten die 2 slot).lht.harbour = true)
    (hboot : (s.progressWritten die 2 slot).fbit 4 LHT_BOOT.DONE = false) :
    effLhtProgressWrite die 2 slot s =
      if slot = 1 then ((s.progressWritten die 2 slot).stepDone slot).boot LHT_BOOT.DONE 1
      else (s.progressWritten die 2 slot).stepDone slot := by
  rw [State.progressWritten] at *
  simp only [effLhtProgressWrite, hup, hq, hfirmware, hslot, hharbour, hboot, Bool.not_true, Bool.or_false, Bool.false_eq_true,
    if_false, if_true, OfNat.ofNat_ne_one]

/-- Event 3 fails the step, and with a step that is not optional the package. -/
theorem effLhtProgressWrite_fails (hharbour : (s.progressWritten die 3 slot).lht.harbour = true)
    (hboot : (s.progressWritten die 3 slot).fbit 4 LHT_BOOT.DONE = false) :
    effLhtProgressWrite die 3 slot s =
      if optionalStep slot then (s.progressWritten die 3 slot).stepFail slot else (s.progressWritten die 3 slot).failReset slot := by
  rw [State.progressWritten] at *
  simp only [effLhtProgressWrite, hup, hq, hfirmware, hslot, hharbour, hboot, Bool.not_true, Bool.or_false, Bool.false_eq_true,
    if_false, if_true, OfNat.ofNat_ne_one, Nat.reduceEqDiff]

end Progress

/-- Settles O45: each command is the sealed effect, on a die that runs or by the boot's progress. The record of a sweep that poisoned
nothing (R541, R542) has severity 1 by log entry 44. -/
theorem faultsLossesAndBoot : Obligations.FaultsLossesAndBoot := by
  intro s die hup
  refine ⟨fun core hc hcore hfree => ?fence, fun hdie => ?decay, fun agent hlost => ?relay,
    fun agent mine owned u v w hsweep hmine howned hu hv hw => ?sweep, fun hq => ?lost, fun agent hdie => ?errRead,
    fun hharbour hboot hruns => ?watchdog, fun slot f hq hfirmware hslot hf => ?progress, fun hphase htray => ?hours⟩
  case fence => exact exec_of_effect (effErrFenceGo_unfenced s hup hc hcore hfree)
  case decay => exact exec_of_effect (effScoreDecay_running s hup hdie)
  case relay => exact exec_of_effect (effLossRelay_waiting s hup hlost)
  case sweep => exact exec_of_effect (effHomeSweepDone_sweeping s hup hsweep hmine howned hu hv hw)
  case lost => exact exec_of_effect (effQdieLost_running s hup hq)
  case errRead => exact exec_of_effect (effErrRec0Read_running s hup agent hdie)
  case watchdog => exact exec_of_effect (effBootWatchdogExpiry_booting s hharbour hboot hruns)
  case progress =>
    subst hf
    exact ⟨fun t hharbour hboot hbegin => exec_of_effect (effLhtProgressWrite_begins s hup hq hfirmware hslot hharbour hboot hbegin),
      fun hharbour hboot => exec_of_effect (effLhtProgressWrite_ends s hup hq hfirmware hslot hharbour hboot),
      fun hharbour hboot => exec_of_effect (effLhtProgressWrite_fails s hup hq hfirmware hslot hharbour hboot)⟩
  case hours => exact exec_of_effect (effCounterLogAppend_powered s hphase htray)

end Sys2Proof.Machine
end

section
/-!
The mailbox commands of Lighthouse (20_boot_and_trust.md R554 to R568; 21_recorder_and_counters.md R581; log entry 33): each runs only
while its operation is the mailbox's.
-/
namespace Sys2Proof.Machine

section Mailbox
variable (s : State) {die : Nat}

/-! ## Reports and identity (R566, R568) -/

theorem effAttest_asked {r : List Byte} (hruns : s.lhtRuns die 1 = true)
    (hr : r = s.report (s.bufBytes die 0 32) (s.bufBytes die 32 64)) :
    effAttest die s =
      (({ s with freeCtr := s.freeCtr + 1 } : State).putBuf die (r ++ Config.sm2Sign s.freeCtr (Config.sm3 r))).lhtEnd die 0 := by
  rw [hr, effAttest, hruns]
  rfl

theorem effGetIdentity_asked (hruns : s.lhtRuns die 2 = true) :
    effGetIdentity die s = (s.putBuf die (Config.identityKey ++ Config.identityCert ++ s.bufBytes die 128 384)).lhtEnd die 0 :=
  if_neg (by simp [hruns])

/-! ## The flash and its images (R557, R568) -/

theorem effFlashRead_inside (hruns : s.lhtRuns die 3 = true) (hinside : s.lhtArg die < 2 ^ 18) :
    effFlashRead die false s = (s.putBuf die (s.flashRead (s.lhtArg die * 512) 512)).lhtEnd die 0 := by
  have hfits : ¬ 2 ^ 27 < s.lhtArg die * 512 + 512 := by omega
  simp only [effFlashRead, hruns, if_neg hfits, Bool.not_true, Bool.false_eq_true, if_false]

theorem effFlashWrite_inside (hruns : s.lhtRuns die 4 = true) (hinside : s.lhtArg die * 512 + 512 ≤ imageMax)
    (hfree : s.lhtRuns (peerQ die) 5 = false) :
    effFlashWrite die false s =
      (s.flashPut (imageBase (1 - s.imageSlot) + s.lhtArg die * 512) (s.bufBytes die 0 512)).lhtEnd die 0 := by
  simp only [effFlashWrite, hruns, hfree, if_neg (Nat.not_lt.mpr hinside), Bool.not_true, Bool.false_eq_true, if_false]

theorem effImageCommit_ok (hruns : s.lhtRuns die 5 = true) (hok : s.imageOk (1 - s.imageSlot) = true) :
    effImageCommit die s =
      (s.putRec s.bootRec (1 - s.imageSlot) (s.bootRec.table.set 1 (s.bootRec.table.getD 1 0 / 128 * 128))).lhtEnd die 0 := by
  simp only [effImageCommit, hruns, hok, Bool.not_true, Bool.false_eq_true, if_false]

theorem effAdvanceSvn_allowed (hruns : s.lhtRuns die 6 = true) (hmax : s.lhtArg die ≤ 64)
    (hrunning : s.lhtArg die ≤ s.imageSvn s.imageSlot) (hother : s.lhtArg die ≤ s.imageSvn (1 - s.imageSlot))
    (hok0 : s.imageOk 0 = true) (hok1 : s.imageOk 1 = true) :
    effAdvanceSvn die s = ({ s with lht := { s.lht with svn := max s.lht.svn (s.lhtArg die) } } : State).lhtEnd die 0 := by
  simp only [effAdvanceSvn, hruns, hok0, hok1, Nat.not_lt.mpr hmax, Nat.not_lt.mpr hrunning, Nat.not_lt.mpr hother, decide_false,
    Bool.not_true, Bool.or_false, Bool.false_eq_true, if_false]

/-! ## Tokens and the boot record (R559, R563, R564, R581) -/

section Token
variable {t : List Byte} {arg : Nat} (hruns : s.lhtRuns die 7 = true) (ht : t = s.bufBytes die 0 96) (harg : arg = dNum t 0x18 8)
include hruns ht harg

/-- A token of kind 1 clears what its scope names. -/
theorem effToken_clears {u : State} (hok : s.tokenOk t 1 = true) (hsome : 0 < arg) (hscope : arg < 8)
    (hclear : s.stlClear arg = (u, true)) : effToken die s = u.lhtEnd die 0 := by
  have hkind : (s.tokenOk t 1 && decide (arg ≠ 0) && decide (arg < 8)) = true := by simp [hok, hsome.ne', hscope]
  subst harg ht
  simp only [effToken, hruns, hclear, if_pos hkind, Bool.not_true, Bool.false_eq_true, if_false, if_true]

/-- A token of kind 2 grants debugging of the Q-dies that it names, and is recorded. -/
theorem effToken_grants (hnot : s.tokenOk t 1 = false) (hok : s.tokenOk t 2 = true) (hdies : arg < 4) :
    effToken die s =
      (({ s with
        debugOn := (s.debugOn ++ (List.range 2).filterMap (fun q => if arg / 2 ^ q % 2 = 1 then some (4 + q) else none)).dedup,
        lht := { s.lht with granted := true } } : State).fixedCause 0x86 arg).lhtEnd die 0 := by
  have hkind : (s.tokenOk t 2 && decide (arg < 4)) = true := by simp [hok, hdies]
  subst harg ht
  simp only [effToken, hruns, hnot, if_pos hkind, Bool.not_true, Bool.false_and, Bool.false_eq_true, if_false]

end Token

theorem effBootrecRetry_known (hruns : s.lhtRuns die 8 = true) (hknown : knownStep (s.lhtArg die) = true) :
    effBootrecRetry die s =
      (s.setStep (s.lhtArg die) (s.stepByte (s.lhtArg die) / 128 * 128 + s.stepByte (s.lhtArg die) % 32)).lhtEnd die 0 := by
  simp only [effBootrecRetry, hruns, hknown, Bool.not_true, Bool.false_eq_true, if_false]

/-- The first owner is fused where the token of kind 3 names the digest of its key. -/
theorem effFuseOwner_first {h : List Byte} (hruns : s.lhtRuns die 9 = true) (hh : h = Config.sm3 (s.bufBytes die 0 64))
    (hnone : s.lht.owner.isSome = false) (hok : s.tokenOk (s.bufBytes die 64 96) 3 = true)
    (hnames : dNum (s.bufBytes die 64 96) 0x18 8 = leNat (h.take 8)) :
    effFuseOwner die s = ({ s with lht := { s.lht with owner := some h } } : State).lhtEnd die 0 := by
  subst hh
  simp only [effFuseOwner, hruns, hnone, hok, hnames, ne_eq, not_true_eq_false, decide_false, Bool.not_true, Bool.or_false,
    Bool.false_eq_true, if_false]

end Mailbox

/-- Settles O46: each mailbox command is the sealed effect of the operation that runs (log entry 33). -/
theorem mailboxCommands : Obligations.MailboxCommands := by
  intro s die
  refine ⟨fun hruns r hr => ?attest, fun hruns => ?identity, fun hruns hinside => ?read, fun hruns hinside hfree => ?write,
    fun hruns hok => ?commit, fun hruns hmax hrunning hother hok0 hok1 => ?svn, fun t arg hruns ht harg => ?token,
    fun hruns hknown => ?retry, fun h hruns hh hnone hok hnames => ?owner⟩
  case attest => exact exec_of_effect (effAttest_asked s hruns hr)
  case identity => exact exec_of_effect (effGetIdentity_asked s hruns)
  case read => exact exec_of_effect (effFlashRead_inside s hruns hinside)
  case write => exact exec_of_effect (effFlashWrite_inside s hruns hinside hfree)
  case commit => exact exec_of_effect (effImageCommit_ok s hruns hok)
  case svn => exact exec_of_effect (effAdvanceSvn_allowed s hruns hmax hrunning hother hok0 hok1)
  case token =>
    exact ⟨fun u hok hsome hscope hclear => exec_of_effect (effToken_clears s hruns ht harg hok hsome hscope hclear),
      fun hnot hok hdies => exec_of_effect (effToken_grants s hruns ht harg hnot hok hdies)⟩
  case retry => exact exec_of_effect (effBootrecRetry_known s hruns hknown)
  case owner => exact exec_of_effect (effFuseOwner_first s hruns hh hnone hok hnames)

end Sys2Proof.Machine
end

section
/-!
The Strandline recorder (21_recorder_and_counters.md R573 to R584; the header's layout and the direct log are log entry 33, the order of
the copies log entry 45).
-/
namespace Sys2Proof.Machine

section Recorder
variable (s : State)

/-! ## Triggers and records (R574, R576 to R578) -/

theorem effPeriodTrigger_offers {t : Nat} (ht : t < 64) (hperiod : bits (s.rd 4 0x1A0 (0x2008 + 16 * t)) 4 0 ≤ 20)
    (hphase : s.power.phase ≠ .off) :
    effPeriodTrigger t s = s.offerTrig t 5 0 0 (bits (s.rd 4 0x1A0 (0x2008 + 16 * t)) 4 0) :=
  if_neg (by simp [ht, hperiod, hphase])

section Waiting
variable {late : List Nat} {e : StlEvent} {rest : List StlEvent} {b : List Byte} {v : State}
  (hqueue : s.strand.queue = e :: rest) (hb : b = s.recBytes e (s.strand.nextSeq % 2 ^ 32) (s.snapSet e.cause late))
  (hv : v = { s with strand := { s.strand with queue := rest, nextSeq := (s.strand.nextSeq % 2 ^ 32 + 1) % 2 ^ 32 } })
include hqueue

/-- With Q1 as the arbiter, a record that is not marked is dropped. -/
theorem effStrandlineRecordWrite_drops (harb : s.arb = 5) (hunmarked : e.marked = false) :
    effStrandlineRecordWrite late s = { s with strand := { s.strand with queue := rest } } := by
  have hdrop : (decide (s.arb = 5) && !e.marked) = true := by simp [harb, hunmarked]
  simp only [effStrandlineRecordWrite, hqueue, if_pos hdrop]

include hb hv

theorem effStrandlineRecordWrite_ring (harb : s.arb = 4) :
    effStrandlineRecordWrite late s = v.ringRecord b (s.strand.nextSeq % 2 ^ 32) e.marked := by
  have hq0 : ¬ s.arb = 5 := by omega
  subst hb hv
  simp only [effStrandlineRecordWrite, hqueue, hq0, decide_false, Bool.false_and, Bool.false_eq_true, if_false]

/-- With Q1 as the arbiter, a marked record goes to the direct log. -/
theorem effStrandlineRecordWrite_direct (harb : s.arb = 5) (hmarked : e.marked = true) :
    effStrandlineRecordWrite late s = v.directRecord b (s.strand.nextSeq % 2 ^ 32) := by
  subst hb hv
  simp only [effStrandlineRecordWrite, hqueue, harb, hmarked, Bool.not_true, Bool.and_false, Bool.false_eq_true, if_false, if_true]

end Waiting

/-! ## Copies to flash (R578, R579) -/

/-- The image is in its slot and its header follows; then a pending copy starts. -/
theorem effFlashCopyDone_busy {n newest : Nat} {img : Memory} {head : List Byte} {t u : State}
    (hbusy : s.fbit 4 STL_STATUS.COPY_BUSY = true) (hn : n = s.strand.slot) (himg : img = s.strand.copyBuf)
    (hnewest : newest = s.fget 4 STL_STATUS.LAST_SEQ)
    (hhead : head = leBytes 8 (s.strand.writes + 1) ++ leBytes 4 newest ++ leBytes 48 0)
    (ht : t = s.flashPut (copyHead n) (head ++ leBytes 4 (crc32 ((head ++ memReadN img 0 (2 ^ 21)).map BitVec.toNat))))
    (hu : u = ({ t with strand := { t.strand with
        copies := mapSet t.strand.copies n img, writes := s.strand.writes + 1, flashSeq := newest } } : State).fsets 4
        [(STL_STATUS.COPY_BUSY, 0), (STL_STATUS.LAST_SLOT, n)]) :
    effFlashCopyDone s = if u.fbit 4 STL_STATUS.COPY_PENDING then u.startCopy else u := by
  subst hn himg hnewest hhead ht hu
  exact if_neg (by simp [hbusy])

/-! ## Pages (R580, R584) -/

theorem effCursorWrite_selects (source page : Nat) (harb : s.arb ≠ 5) (hphase : s.power.phase ≠ .off) :
    effCursorWrite source page s = s.fsets 4
      [(STL_CURSOR.SOURCE, source % 8), (STL_CURSOR.PAGE, page % 4096), (STL_CURSOR.READY, b2n (decide (source % 8 = 0)))] :=
  if_neg (by simp [harb, hphase])

section Page
variable {base len a : Nat} (hwait : s.fbit 4 STL_CURSOR.READY = false)
  (hsource : stlSource (s.fget 4 STL_CURSOR.SOURCE) = (base, len)) (ha : a = s.fget 4 STL_CURSOR.PAGE * 4096)
include hwait hsource ha

theorem effPageFetchDone_inside (hfits : a + 4096 ≤ len) :
    effPageFetchDone s =
      ({ s with strand := { s.strand with win := memWriteN [] 0 (s.flashRead (base + a) 4096) } } : State).fset 4 STL_CURSOR.READY 1 := by
  subst ha
  simp only [effPageFetchDone, hwait, hsource, if_pos hfits, Bool.false_eq_true, if_false]

theorem effPageFetchDone_pastEnd (hpast : len < a + 4096) :
    effPageFetchDone s = ({ s with strand := { s.strand with win := [] } } : State).fset 4 STL_CURSOR.READY 1 := by
  subst ha
  simp only [effPageFetchDone, hwait, hsource, if_neg (Nat.not_le.mpr hpast), Bool.false_eq_true, if_false]

end Page

end Recorder

/-- Settles O47: each command is the sealed effect; the copy's header and the direct log are those of log entry 33, the copies' order that
of log entry 45. -/
theorem recorder : Obligations.Recorder := by
  intro s
  refine ⟨fun t ht hperiod hphase => ?trigger, fun late e rest b u v hqueue hb hu hv => ?record,
    fun n img newest head t u hbusy hn himg hnewest hhead ht hu => ?copy, fun source page harb hphase => ?cursor,
    fun base len a hwait hsource ha => ?page⟩
  case trigger => exact exec_of_effect (effPeriodTrigger_offers s ht hperiod hphase)
  case record =>
    subst hu
    exact ⟨fun harb => exec_of_effect (effStrandlineRecordWrite_ring s hqueue hb hv harb),
      fun harb hmarked => exec_of_effect (effStrandlineRecordWrite_direct s hqueue hb hv harb hmarked),
      fun harb hunmarked => exec_of_effect (effStrandlineRecordWrite_drops s hqueue harb hunmarked)⟩
  case copy => exact exec_of_effect (effFlashCopyDone_busy s hbusy hn himg hnewest hhead ht hu)
  case cursor => exact exec_of_effect (effCursorWrite_selects s source page harb hphase)
  case page =>
    exact ⟨fun hfits => exec_of_effect (effPageFetchDone_inside s hwait hsource ha hfits),
      fun hpast => exec_of_effect (effPageFetchDone_pastEnd s hwait hsource ha hpast)⟩

end Sys2Proof.Machine
end

section
/-!
Performance counters and samples (21_recorder_and_counters.md R587 to R602; the direction of the LFSR and the HEAD that a clear keeps are
log entry 45).
-/
namespace Sys2Proof.Machine

/-! ## Counters (R587, R589, R591) -/

/-- A carry out of a counter with no chained partner wraps it. -/
theorem State.addCounter_wraps (s : State) (die : Nat) (core : Option Nat) {i inc : Nat}
    (hcarry : 2 ^ 48 ≤ bits (s.rd die (pmuBlk die) (cntOff core i)) 47 0 + inc)
    (hunchained : i % 2 = 0 → bitAt (s.rd die (pmuBlk die) (selOff core (i + 1))) 62 = false) :
    s.addCounter die core i inc =
      (s.wr die (pmuBlk die) (cntOff core i)
        (BitVec.ofNat 64 ((bits (s.rd die (pmuBlk die) (cntOff core i)) 47 0 + inc) % 2 ^ 48))).counterWrap die core i := by
  have halone : ¬ (decide (i % 2 = 0) && bitAt (s.rd die (pmuBlk die) (selOff core (i + 1))) 62) = true := by
    simpa using hunchained
  simp only [State.addCounter, if_neg (Nat.not_lt.mpr hcarry), if_neg halone]

section DieRuns
variable (s : State) {die : Nat} (hup : s.dieUp die = true)
include hup

theorem effCounterOverflow_carries {core : Option Nat} {i inc : Nat} (hhas : hasCounter die core i = true)
    (hen : s.fbit die (PMU_CTRL.EN.inBlk (pmuBlk die)) = true) (hsel : bitAt (s.rd die (pmuBlk die) (selOff core i)) 63 = true)
    (hcarry : 2 ^ 48 ≤ bits (s.rd die (pmuBlk die) (cntOff core i)) 47 0 + inc) :
    effCounterOverflow die core i inc s = s.addCounter die core i inc := by
  simp only [effCounterOverflow, hhas, hup, hen, hsel, if_neg (Nat.not_lt.mpr hcarry), Bool.not_true, Bool.or_false,
    Bool.false_eq_true, if_false]

theorem effEvenCounterRead_latches (agent : Agent) {core : Option Nat} {i : Nat} (hhas : hasCounter die core i = true)
    (heven : i % 2 = 0) :
    effEvenCounterRead agent die core i s =
      (s.wr die (pmuBlk die) 0x010 (BitVec.ofNat 64 (bits (s.rd die (pmuBlk die) (cntOff core (i + 1))) 47 0))).emit
        (.regData agent (BitVec.ofNat 64 (bits (s.rd die (pmuBlk die) (cntOff core i)) 47 0))) :=
  if_neg (by simp [hhas, hup, heven])

/-! ## Samples (R596, R597, R601, R602) -/

section DieOfSix
variable (hdie : die < 6)
include hdie

/-- Sampling starts with the seed, or with 1 where the seed is 0. -/
theorem effPmuSampleEnable_running {seed : Nat} {u : State} (hseed : seed = s.fget die (PMU_SEED.SEED.inBlk (pmuBlk die)))
    (hu : u = s.fset die (PMU_SAMPLE.EN.inBlk (pmuBlk die)) 1) :
    effPmuSampleEnable die s =
      { u with samplers := mapSet u.samplers die { u.sampler die with lfsr := if seed = 0 then 1 else seed } } := by
  subst hseed hu
  exact if_neg (by simp [hdie, hup])

theorem effPmuSbClear_running {u : State}
    (hu : u = s.fsets die [(PMU_SB_CTRL.STOPPED.inBlk (pmuBlk die), 0), (PMU_SB_CTRL.CLEAR.inBlk (pmuBlk die), 0)]) :
    effPmuSbClear die s = { u with samplers := mapSet u.samplers die { u.sampler die with held := 0 } } := by
  subst hu
  exact if_neg (by simp [hdie, hup])

section Tagged
variable (flags a pc n last : Nat) {u : State} (hen : s.fbit die (PMU_SAMPLE.EN.inBlk (pmuBlk die)) = true)
  (hu : u = { s with samplers := mapSet s.samplers die { s.sampler die with lfsr := lfsrStep (s.sampler die).lfsr } })
include hen hu

/-- The record of a tagged bundle. -/
theorem effSampleTag_bundle (hc : isC die = true) :
    effSampleTag die flags a pc n last s =
      u.sbRecord die
        [BitVec.ofNat 64 (1 + flags % 8 * 2 ^ 8 + s.fget die SEQ_STATUS.STEP * 2 ^ 16 + a % 2 ^ 32 * 2 ^ 32),
         BitVec.ofNat 64 ((s.td die).cycle - (s.td die).start), BitVec.ofNat 64 (n % 2 ^ 16 + last % 2 ^ 32 * 2 ^ 32),
         BitVec.ofNat 64 (s.tmkNs die)] := by
  have hsamples : ¬ (decide (6 ≤ die) || !s.dieUp die || !s.fbit die (PMU_SAMPLE.EN.inBlk (pmuBlk die))) = true := by
    simp [hdie, hup, hen]
  subst hu
  simp only [effSampleTag, if_neg hsamples, if_pos hc]

/-- The record of a tagged instruction. -/
theorem effSampleTag_instruction (hq : isC die = false) :
    effSampleTag die flags a pc n last s =
      u.sbRecord die
        [BitVec.ofNat 64 (3 + flags % 16 * 2 ^ 8 + (32 * (die - 4) + s.fget die (PMU_SAMPLE.HART.inBlk (pmuBlk die))) * 2 ^ 16 +
           a % 2 ^ 32 * 2 ^ 32),
         BitVec.ofNat 64 pc, BitVec.ofNat 64 (n % 2 ^ 32), BitVec.ofNat 64 (s.tmkNs die)] := by
  have hsamples : ¬ (decide (6 ≤ die) || !s.dieUp die || !s.fbit die (PMU_SAMPLE.EN.inBlk (pmuBlk die))) = true := by
    simp [hdie, hup, hen]
  subst hu
  simp only [effSampleTag, if_neg hsamples, if_neg (ne_true_of_eq_false hq)]

end Tagged

end DieOfSix

end DieRuns

/-- Settles O48: each command is the sealed effect on a die that runs; a counter that overflows carries, and alone it wraps. The step of
the LFSR and the HEAD that a clear keeps are log entry 45's. -/
theorem countersAndSamples : Obligations.CountersAndSamples := by
  intro s die hup
  refine ⟨fun core i inc hhas hen hsel hcarry hunchained => ?overflow, fun agent core i hhas heven => ?evenRead,
    fun u seed hdie hseed hu => ?enable, fun flags a pc n last u hdie hen hu => ?tag, fun u hdie hu => ?clear⟩
  case overflow =>
    exact exec_of_effect ((effCounterOverflow_carries s hup hhas hen hsel hcarry).trans
      (s.addCounter_wraps die core hcarry hunchained))
  case evenRead => exact exec_of_effect (effEvenCounterRead_latches s hup agent hhas heven)
  case enable => exact exec_of_effect (effPmuSampleEnable_running s hup hdie hseed hu)
  case tag =>
    exact ⟨fun hc => exec_of_effect (effSampleTag_bundle s hup hdie flags a pc n last hen hu hc),
      fun hq => exec_of_effect (effSampleTag_instruction s hup hdie flags a pc n last hen hu hq)⟩
  case clear => exact exec_of_effect (effPmuSbClear_running s hup hdie hu)

end Sys2Proof.Machine
end
